-- ==== Sys2Proof/Word.lean ====
section
/-! DEFINITION. The word types of the KX3 block, the sparse map that holds every indexed store, and the
names that both the commands and the state use (initiators, access sources). -/
namespace Sys2Proof

/-- A byte. -/
abbrev Byte := BitVec 8
/-- A 32-bit register word. -/
abbrev Word := BitVec 32
/-- A 64-bit value: a register pair, a Tally, a program word. -/
abbrev DWord := BitVec 64

/-- A store indexed by a number, in one canonical form: keys strictly rising, and no entry equal to the value an
unlisted key reads as. The operations are in Machine/Ops.lean. -/
abbrev SMap (α : Type) := List (Nat × α)

/-- The initiators of the internal fabric that reach the firmware view (R81, R89). -/
inductive Who where
  | bc | sc1 | sc2 | sc3 | jtag
deriving DecidableEq, Repr

/-- The number of an initiator: 0 BC, 1 SC1, 2 SC2, 3 SC3 (TMP_CORE, Table 17-4), 4 JTAG. -/
def Who.num : Who → Nat
  | .bc => 0 | .sc1 => 1 | .sc2 => 2 | .sc3 => 3 | .jtag => 4

/-- Where a register access comes from: HCP with its 24-bit context tag (Table 1-7) and its HCP_REQ_ID (Table 2-1, R37), or the
internal fabric. -/
inductive Src where
  | hcp (tag : BitVec 24) (id : BitVec 6)
  | fab (w : Who)
deriving DecidableEq, Repr

/-- The sender of a WSP message (R368): a private channel by PID, or an operator channel 0 to 3. -/
inductive Chan where
  | priv (pid : BitVec 8)
  | oper (n : BitVec 2)
deriving DecidableEq, Repr

/-- The number R539 gives a channel: PID p is p - 2, operator channel n is 64 + n. -/
def Chan.num : Chan → Nat
  | .priv p => p.toNat - 2
  | .oper n => 64 + n.toNat

/-- How an SPDM request, or a message that may travel in a session, arrived: in the clear, in a secured record that
opens to `plain`, or in a record that fails its tag (R238, R246). -/
inductive Carriage where
  | clear
  | secured (plain : List Byte)
  | badTag
deriving DecidableEq, Repr

/-- Which of the algorithms that KX3 accepts a NEGOTIATE_ALGORITHMS offers (R240). -/
structure AlgOffer where
  asym     : Bool
  hash     : Bool
  meas     : Bool
  dhe      : Bool
  aead     : Bool
  schedule : Bool
deriving DecidableEq, Repr

/-- The response codes of HCP and HIP (Table 2-1), in the order of that table. -/
inductive Rsp where
  | ok | efull | edown | eaccess | elock | edecode | epoison
deriving DecidableEq, Repr

/-- The number of a response code. DEDUCED: Table 2-1 lists the codes in this order and R26 reserves 7. -/
def Rsp.num : Rsp → Nat
  | .ok => 0 | .efull => 1 | .edown => 2 | .eaccess => 3 | .elock => 4 | .edecode => 5 | .epoison => 6

end Sys2Proof
end

