-- ==== Sys2Proof/Syntax.lean ====
section
/-! DEFINITION. The commands of the KX3 block: one constructor per row of spec/opcode_table.json, with the row's operands
(what the port, register or message carries). -/
namespace Sys2Proof

/-- A recheck of R430 that does not give OUTSIDE again, because of a fault in the arithmetic of an array: the band, whether its second
product is meant (O of ATTENTION), the cause when it gives UNDECIDED (0: it gives WITHIN), and the array the disagreement is counted
on. -/
structure Recheck where
  band   : BitVec 6
  second : Bool
  cause  : BitVec 3
  array  : BitVec 4
deriving DecidableEq, Repr

/-- What KX3 finds when a sense begins and S1 tests itself: the passes that are disturbed (R111), and the code of a failed self-test
or 0 (Table 5-16). -/
structure StartReport where
  disturbed : BitVec 8
  fail      : BitVec 8
deriving DecidableEq, Repr

/-- A read request: its first address and its beats of 8 bytes (R38, R39). -/
structure ReadSpan where
  addr  : BitVec 23
  beats : BitVec 10
deriving DecidableEq, Repr

/-- The place whose forms are compared, and the rechecks that do not repeat their outcome (R429, R430). -/
structure Judged where
  place  : BitVec 2
  faults : List Recheck
deriving DecidableEq, Repr

/-- The certificate slot that an SPDM request names, with its measurement index or its ReqSessionID (R241, R242). -/
structure SlotIndex where
  slot  : BitVec 4
  index : Byte
deriving DecidableEq, Repr
structure SlotSession where
  slot  : BitVec 4
  reqId : BitVec 16
deriving DecidableEq, Repr

/-- The commands, in the order of the table. Each docstring is the rule that owns the row. -/
inductive Instr where
  /-- KX_POR_N_ASSERT (R67). -/
  | kxPorNAssert
  /-- KX_RST_N_ASSERT (R67). -/
  | kxRstNAssert
  /-- RESET_EXIT (R109). -/
  | resetExit
  /-- SENSE_BIAS_READY (R109). -/
  | senseBiasReady (report : StartReport) (arrays : BitVec 16) (coresBad : BitVec 4) (sfdp : Option (Bool × DWord))
  /-- SENSE_BIAS_TIMEOUT (R116). -/
  | senseBiasTimeout
  /-- BOOT_WATCHDOG (R128). -/
  | bootWatchdog
  /-- PUSH_WAIT_TIMEOUT (R131). -/
  | pushWaitTimeout
  /-- STAGED_TIMEOUT (R147). -/
  | stagedTimeout
  /-- SITE_READY (R64). -/
  | siteReady (site : BitVec 4)
  /-- SITE_READY_TIMEOUT (R146). -/
  | siteReadyTimeout (site : BitVec 4)
  /-- SITE_DRAIN_TIMEOUT (R65). -/
  | siteDrainTimeout (site : BitVec 4)
  /-- KX_WAKE (R505). -/
  | kxWake
  /-- PWR_ACK (R69). -/
  | pwrAck (level : Bool)
  /-- PWR_ACK_TIMEOUT (R505). -/
  | pwrAckTimeout
  /-- PD_STATUS_FALL (R61). -/
  | pdStatusFall (d : BitVec 6)
  /-- PD_STATUS_RISE (R68). -/
  | pdStatusRise (d : BitVec 6)
  /-- DOMAIN_POWER_TIMEOUT (R321). -/
  | domainPowerTimeout (d : BitVec 6)
  /-- TAMPER_CONDITION (R470). -/
  | tamperCondition (src : BitVec 5)
  /-- ALARM_CONFIRMED (R471). -/
  | alarmConfirmed (src : BitVec 5)
  /-- TREF_DEVIATION (R477). -/
  | trefDeviation (dev : BitVec 16)
  /-- TREF_BAD_CLEAR (R477). -/
  | trefBadClear
  /-- TAP_BEAT (R418). -/
  | tapBeat (port : BitVec 4) (data : BitVec 1024) (info : BitVec 128) (absorbed : Bool)
  /-- CPB_REPLY (R51). -/
  | cpbReply (frame : BitVec 128)
  /-- CPB_REPLY_TIMEOUT (R51). -/
  | cpbReplyTimeout (agent : BitVec 10)
  /-- HIP_RESPONSE (R42). -/
  | hipResponse (id : BitVec 6) (code : BitVec 3) (data : List Byte)
  /-- REGISTER_WRITE (R79). -/
  | registerWrite (src : Src) (addr : BitVec 23) (beats : List (DWord × Byte))
  /-- READ_LO_LATCH (R89). -/
  | readLoLatch (src : Src) (span : ReadSpan)
  /-- WRITE_HI_COMMIT (R90). -/
  | writeHiCommit (src : Src) (addr : BitVec 23) (hi : Word)
  /-- PG_LOCK_SET (R92). -/
  | pgLockSet (src : Src) (addr : BitVec 23)
  /-- CORE_RELEASE (R143). -/
  | coreRelease (w : Who) (data : Word)
  /-- TOP_HALT_WRITE (R513). -/
  | topHaltWrite (w : Who) (code : Byte)
  /-- TOP_VT_CLR (R514). -/
  | topVtClr (w : Who)
  /-- HEARTBEAT_WRITE (R483). -/
  | heartbeatWrite (w : Who)
  /-- HEARTBEAT_TIMEOUT (R483). -/
  | heartbeatTimeout (core : BitVec 2)
  /-- CORE_FAULT (R483). -/
  | coreFault (core : BitVec 2) (parity : Bool)
  /-- SRAM_ERROR (R480). -/
  | sramError (mem : BitVec 3) (uncorrectable : Bool) (pid : Byte) (off : Word)
  /-- READ_RAW (R516). -/
  | readRaw (w : Who)
  /-- READ_DECODED (R516). -/
  | readDecoded (w : Who)
  /-- PROGRAM_ROW (R118). -/
  | programRow (w : Who) (window : BitVec 2)
  /-- PROGRAM_GROUP (R118). -/
  | programGroup (w : Who) (window : BitVec 2) (group : Byte)
  /-- PROGRAM_SECRET (R119). -/
  | programSecret (w : Who) (window : BitVec 2)
  /-- PROGRAM_RAW (R121). -/
  | programRaw (w : Who) (window : BitVec 2) (check : Byte)
  /-- FUSE_OP_DONE (R120). -/
  | fuseOpDone (failed : BitVec 72)
  /-- FUSE_SUPPLY_LOST (R117). -/
  | fuseSupplyLost (window : BitVec 2) (completed : BitVec 72) (cut : BitVec 7)
  /-- INSTALL (R175). -/
  | install (w : Who)
  /-- ERASE (R175). -/
  | erase (w : Who)
  /-- DERIVE (R173). -/
  | derive (w : Who)
  /-- ERASE_PID (R175). -/
  | erasePid (w : Who)
  /-- ERASE_STALE (R175). -/
  | eraseStale (w : Who)
  /-- ROOT (R168). -/
  | rootCmd (w : Who)
  /-- SBOX_LOCK_SET (R176). -/
  | sboxLockSet (w : Who) (data : Word)
  /-- SLEEP_DIGEST_ARM (R157). -/
  | sleepDigestArm (w : Who) (word : Word)
  /-- WAKE_DIGEST_COMPARE (R158). -/
  | wakeDigestCompare (w : Who) (word : Word)
  /-- PKE_SLOT_LEN_WRITE (R193). -/
  | pkeSlotLenWrite (w : Who) (data : Word)
  /-- PKE_JOB (R194). -/
  | pkeJob (w : Who) (offset : Word)
  /-- MOD_ADD (R195). -/
  | modAdd
  /-- MOD_SUB (R195). -/
  | modSub
  /-- MOD_MUL (R195). -/
  | modMul
  /-- MOD_EXP (R195). -/
  | modExp
  /-- MOD_INV (R195). -/
  | modInv
  /-- SLOT_CLEAR (R195). -/
  | slotClear
  /-- PKE_LOAD (R195). -/
  | pkeLoad
  /-- STORE (R195). -/
  | store
  /-- ECDSA_SIGN (R200). -/
  | ecdsaSign
  /-- ECDSA_VERIFY (R195). -/
  | ecdsaVerify
  /-- ECDH (R195). -/
  | ecdh
  /-- EC_CHECK (R199). -/
  | ecCheck
  /-- MLDSA_SIGN (R200). -/
  | mldsaSign
  /-- MLDSA_VERIFY (R195). -/
  | mldsaVerify
  /-- MLKEM_ENCAPS (R195). -/
  | mlkemEncaps
  /-- MLKEM_DECAPS (R198). -/
  | mlkemDecaps
  /-- ANVIL_YIELD (R202). -/
  | anvilYield (stretch : BitVec 16)
  /-- ANVIL_JOB_DONE (R204). -/
  | anvilJobDone
  /-- MEAS_JOB (R205). -/
  | measJob (w : Who) (lane : BitVec 4) (offset : Word)
  /-- SHA_384 (R205). -/
  | sha384 (lane : BitVec 4)
  /-- SHA3_384 (R205). -/
  | sha3384 (lane : BitVec 4)
  /-- KMAC256 (R206). -/
  | kmac256 (lane : BitVec 4)
  /-- HASH_JOB_DONE (R205). -/
  | hashJobDone (lane : BitVec 4)
  /-- SYM_JOB (R210). -/
  | symJob (w : Who) (offset : Word)
  /-- GCM_ENC (R210). -/
  | gcmEnc
  /-- GCM_DEC (R212). -/
  | gcmDec
  /-- GCM_DEC_SLOT (R179). -/
  | gcmDecSlot
  /-- XTS_ENC (R211). -/
  | xtsEnc
  /-- XTS_DEC (R211). -/
  | xtsDec
  /-- CTR (R210). -/
  | ctr
  /-- KW_WRAP (R178). -/
  | kwWrap
  /-- KW_UNWRAP (R178). -/
  | kwUnwrap
  /-- DRBG_GEN (R218). -/
  | drbgGen
  /-- AES_JOB_DONE (R210). -/
  | aesJobDone
  /-- ENTROPY_TEST_FAIL (R216). -/
  | entropyTestFail (raw : BitVec 1024)
  /-- DRBG_RESEED (R217). -/
  | drbgReseed
  /-- CVU_START (R221). -/
  | cvuStart (w : Who) (u : BitVec 3)
  /-- CVU_FINISH (R219). -/
  | cvuFinish (w : Who) (u : BitVec 3)
  /-- CVU_MEMRUN (R221). -/
  | cvuMemrun (w : Who) (u : BitVec 3)
  /-- CVU_MEMRUN_DONE (R221). -/
  | cvuMemrunDone (u : BitVec 3)
  /-- CVU_DATA (R220). -/
  | cvuData (w : Who) (u : BitVec 3) (data : Word)
  /-- CVU_DATA8 (R220). -/
  | cvuData8 (w : Who) (u : BitVec 3) (data : Byte)
  /-- HMK_TAKE (R524). -/
  | hmkTake (w : Who) (pid : Byte)
  /-- HMK_SEAL (R524). -/
  | hmkSeal (w : Who)
  /-- HMK_RELEASE (R524). -/
  | hmkRelease (w : Who)
  /-- HMK_DROP (R524). -/
  | hmkDrop (w : Who)
  /-- HMK_ASSEMBLE_LIMIT (R525). -/
  | hmkAssembleLimit (place : BitVec 2)
  /-- SET_STATE (R531). -/
  | setState (w : Who) (pid : Byte) (newState : BitVec 3)
  /-- GEN_STEP (R531). -/
  | genStep (w : Who) (pid : Byte)
  /-- GEN_READY (R531). -/
  | genReady (pid : Byte)
  /-- EPOCH_PREPARE (R534). -/
  | epochPrepare (w : Who)
  /-- EPOCH_COMMIT (R534). -/
  | epochCommit (w : Who)
  /-- EPOCH_RUN (R534). -/
  | epochRun (w : Who)
  /-- EPOCH_ROLLBACK (R534). -/
  | epochRollback (w : Who)
  /-- REPREPARE (R534). -/
  | reprepare (w : Who)
  /-- SCRUB_RETRY (R279). -/
  | scrubRetry (region : BitVec 13)
  /-- COMMIT_TIMEOUT (R276). -/
  | commitTimeout
  /-- TALLY_SIGNAL (R358). -/
  | tallySignal (src : Src) (slot : BitVec 14)
  /-- TALLY_ADD (R358). -/
  | tallyAdd (src : Src) (slot : BitVec 14) (addend : Word)
  /-- TALLY_SET (R358). -/
  | tallySet (src : Src) (slot : BitVec 14) (value : DWord)
  /-- POST_RETRY (R313). -/
  | postRetry (pid : Byte) (vec : Byte)
  /-- TL_WAIT (R365). -/
  | tlWait (src : Src)
  /-- TL_CANCEL (R365). -/
  | tlCancel (src : Src)
  /-- TL_READ (R365). -/
  | tlRead (src : Src)
  /-- TL_SET_ACL (R365). -/
  | tlSetAcl (src : Src)
  /-- TL_CLEAR (R538). -/
  | tlClear (w : Who)
  /-- MB_TX_WRITE (R370). -/
  | mbTxWrite (src : Src) (ch : Chan) (beats : List (DWord × Byte))
  /-- MB_RX_READ (R371). -/
  | mbRxRead (src : Src) (ch : Chan) (beats : BitVec 10)
  /-- MB_NOTE_READ (R373). -/
  | mbNoteRead (src : Src) (ch : Chan)
  /-- CHANNEL_RESET (R374). -/
  | channelReset (src : Src) (n : BitVec 2)
  /-- MBF_FLUSH (R539). -/
  | mbfFlush (w : Who)
  /-- MBF_RESET_DONE (R539). -/
  | mbfResetDone (w : Who)
  /-- MBF_TAKE (R539). -/
  | mbfTake (w : Who)
  /-- MBF_RX_APPEND (R539). -/
  | mbfRxAppend (w : Who) (words : List Word)
  /-- MBF_VERSION_WRITE (R539). -/
  | mbfVersionWrite (w : Who) (v : Word)
  /-- XL_SEND (R292). -/
  | xlSend (src : Src)
  /-- FQ_REGISTER (R299). -/
  | fqRegister (src : Src)
  /-- FQ_RELEASE (R299). -/
  | fqRelease (src : Src)
  /-- XL_FAULT_IN (R296). -/
  | xlFaultIn (src : Src) (bytes : List Byte)
  /-- BATCH_TIMER (R297). -/
  | batchTimer (pid : Byte)
  /-- INVAL_TIMEOUT (R294). -/
  | invalTimeout (pid : Byte)
  /-- INVAL_FENCE_DRAIN_END (R294). -/
  | invalFenceDrainEnd (pid : Byte)
  /-- IRQ_APPLY (R315). -/
  | irqApply (src : Src)
  /-- IRQ_DISCARD (R315). -/
  | irqDiscard (src : Src)
  /-- QN_START (R323). -/
  | qnStart (w : Who) (pid : Byte) (outcome : BitVec 2)
  /-- QUENCH_RESUME (R329). -/
  | quenchResume
  /-- QUENCH_DRAIN_WAIT_END (R325). -/
  | quenchDrainWaitEnd (pid : Byte)
  /-- QOS_OPER_RATE_WRITE (R338). -/
  | qosOperRateWrite (w : Who) (rate : BitVec 16)
  /-- TOKEN_REFILL (R336). -/
  | tokenRefill (pid : Byte)
  /-- SEALED_RELEASE (R346). -/
  | sealedRelease (pid : Byte) (k : Byte)
  /-- SEALED_HCP_RESPONSE (R347). -/
  | sealedHcpResponse (pid : Byte) (k : Byte)
  /-- ASY_SUBMIT (R415). -/
  | asySubmit (src : Src)
  /-- ASY_CLOSE (R423). -/
  | asyClose (src : Src)
  /-- ASY_CANCEL (R423). -/
  | asyCancel (src : Src)
  /-- LOG_REGISTER (R440). -/
  | logRegister (src : Src)
  /-- LOG_RELEASE (R440). -/
  | logRelease (src : Src)
  /-- ASY_RUN (R465). -/
  | asyRun (src : Src)
  /-- COUNTING_WINDOW_END (R423). -/
  | countingWindowEnd (pid : Byte) (place : BitVec 2)
  /-- ASSAY_VERDICT (R429). -/
  | assayVerdict (pid : Byte) (judged : Judged)
  /-- SLOT_FRAME_BOUNDARY (R541). -/
  | slotFrameBoundary
  /-- ASF_QUOTA_WRITE (R540). -/
  | asfQuotaWrite (w : Who) (value : Word)
  /-- PRG_OPEN (R462). -/
  | prgOpen (src : Src)
  /-- PRG_LOAD (R462). -/
  | prgLoad (src : Src)
  /-- PRG_UNLOAD (R463). -/
  | prgUnload (src : Src)
  /-- PRG_INFO (R469). -/
  | prgInfo (src : Src)
  /-- PRG_WINDOW_WRITE (R462). -/
  | prgWindowWrite (src : Src) (bytes : List Byte)
  /-- HANDLER_INVOKE (R446). -/
  | handlerInvoke (pid : Byte) (place : BitVec 2)
  /-- SLICE_YIELD (R459). -/
  | sliceYield (pid : Byte) (place : BitVec 2)
  /-- NOP (R451). -/
  | nop (pid : Byte) (place : BitVec 2)
  /-- END (R446). -/
  | endH (pid : Byte) (place : BitVec 2)
  /-- BR (R451). -/
  | br (pid : Byte) (place : BitVec 2)
  /-- CALL (R451). -/
  | call (pid : Byte) (place : BitVec 2)
  /-- RET (R451). -/
  | ret (pid : Byte) (place : BitVec 2)
  /-- LOOP (R451). -/
  | loop (pid : Byte) (place : BitVec 2)
  /-- VERDICT (R466). -/
  | verdict (pid : Byte) (place : BitVec 2)
  /-- EMIT (R451). -/
  | emit (pid : Byte) (place : BitVec 2)
  /-- BINFO (R455). -/
  | binfo (pid : Byte) (place : BitVec 2)
  /-- SFLAG (R451). -/
  | sflag (pid : Byte) (place : BitVec 2)
  /-- FCLR (R451). -/
  | fclr (pid : Byte) (place : BitVec 2)
  /-- SADD (R451). -/
  | sadd (pid : Byte) (place : BitVec 2)
  /-- SSUB (R451). -/
  | ssub (pid : Byte) (place : BitVec 2)
  /-- SMUL (R451). -/
  | smul (pid : Byte) (place : BitVec 2)
  /-- SAND (R451). -/
  | sand (pid : Byte) (place : BitVec 2)
  /-- SOR (R451). -/
  | sor (pid : Byte) (place : BitVec 2)
  /-- SXOR (R451). -/
  | sxor (pid : Byte) (place : BitVec 2)
  /-- SSHL (R451). -/
  | sshl (pid : Byte) (place : BitVec 2)
  /-- SSHR (R451). -/
  | sshr (pid : Byte) (place : BitVec 2)
  /-- SSRA (R451). -/
  | ssra (pid : Byte) (place : BitVec 2)
  /-- SMIN (R451). -/
  | smin (pid : Byte) (place : BitVec 2)
  /-- SMAX (R451). -/
  | smax (pid : Byte) (place : BitVec 2)
  /-- SMOV (R451). -/
  | smov (pid : Byte) (place : BitVec 2)
  /-- SCMPEQ (R451). -/
  | scmpeq (pid : Byte) (place : BitVec 2)
  /-- SCMPLT (R451). -/
  | scmplt (pid : Byte) (place : BitVec 2)
  /-- SCMPLTU (R451). -/
  | scmpltu (pid : Byte) (place : BitVec 2)
  /-- SHI (R451). -/
  | shi (pid : Byte) (place : BitVec 2)
  /-- SLD (R451). -/
  | sld (pid : Byte) (place : BitVec 2)
  /-- SST (R451). -/
  | sst (pid : Byte) (place : BitVec 2)
  /-- VLD (R451). -/
  | vld (pid : Byte) (place : BitVec 2)
  /-- VST (R451). -/
  | vst (pid : Byte) (place : BitVec 2)
  /-- VLDB (R451). -/
  | vldb (pid : Byte) (place : BitVec 2)
  /-- BLD (R451). -/
  | bld (pid : Byte) (place : BitVec 2)
  /-- VADD (R452). -/
  | vadd (pid : Byte) (place : BitVec 2)
  /-- VSUB (R452). -/
  | vsub (pid : Byte) (place : BitVec 2)
  /-- VMUL (R452). -/
  | vmul (pid : Byte) (place : BitVec 2)
  /-- VFMA (R452). -/
  | vfma (pid : Byte) (place : BitVec 2)
  /-- VMIN (R451). -/
  | vmin (pid : Byte) (place : BitVec 2)
  /-- VMAX (R451). -/
  | vmax (pid : Byte) (place : BitVec 2)
  /-- VABS (R451). -/
  | vabs (pid : Byte) (place : BitVec 2)
  /-- VNEG (R451). -/
  | vneg (pid : Byte) (place : BitVec 2)
  /-- VAND (R451). -/
  | vand (pid : Byte) (place : BitVec 2)
  /-- VOR (R451). -/
  | vor (pid : Byte) (place : BitVec 2)
  /-- VXOR (R451). -/
  | vxor (pid : Byte) (place : BitVec 2)
  /-- VSHL (R451). -/
  | vshl (pid : Byte) (place : BitVec 2)
  /-- VSRA (R451). -/
  | vsra (pid : Byte) (place : BitVec 2)
  /-- VCVT (R452). -/
  | vcvt (pid : Byte) (place : BitVec 2)
  /-- VMOV (R451). -/
  | vmov (pid : Byte) (place : BitVec 2)
  /-- VIDX (R451). -/
  | vidx (pid : Byte) (place : BitVec 2)
  /-- VCMPEQ (R451). -/
  | vcmpeq (pid : Byte) (place : BitVec 2)
  /-- VCMPLT (R451). -/
  | vcmplt (pid : Byte) (place : BitVec 2)
  /-- VCMPLE (R451). -/
  | vcmple (pid : Byte) (place : BitVec 2)
  /-- VEXP2 (R452). -/
  | vexp2 (pid : Byte) (place : BitVec 2)
  /-- VRCP (R452). -/
  | vrcp (pid : Byte) (place : BitVec 2)
  /-- DEC (R453). -/
  | dec (pid : Byte) (place : BitVec 2)
  /-- VSCL (R453). -/
  | vscl (pid : Byte) (place : BitVec 2)
  /-- VRSUM (R451). -/
  | vrsum (pid : Byte) (place : BitVec 2)
  /-- PAND (R451). -/
  | pand (pid : Byte) (place : BitVec 2)
  /-- POR (R451). -/
  | por (pid : Byte) (place : BitVec 2)
  /-- PNOT (R451). -/
  | pnot (pid : Byte) (place : BitVec 2)
  /-- TZERO (R451). -/
  | tzero (pid : Byte) (place : BitVec 2)
  /-- TFLOOR (R451). -/
  | tfloor (pid : Byte) (place : BitVec 2)
  /-- TMMA (R454). -/
  | tmma (pid : Byte) (place : BitVec 2)
  /-- TACC (R454). -/
  | tacc (pid : Byte) (place : BitVec 2)
  /-- TRED (R451). -/
  | tred (pid : Byte) (place : BitVec 2)
  /-- TGET (R451). -/
  | tget (pid : Byte) (place : BitVec 2)
  /-- TSGN (R451). -/
  | tsgn (pid : Byte) (place : BitVec 2)
  /-- TMOV (R451). -/
  | tmov (pid : Byte) (place : BitVec 2)
  /-- TSUB (R451). -/
  | tsub (pid : Byte) (place : BitVec 2)
  /-- TMAC (R454). -/
  | tmac (pid : Byte) (place : BitVec 2)
  /-- RND (R451). -/
  | rnd (pid : Byte) (place : BitVec 2)
  /-- RNDB (R451). -/
  | rndb (pid : Byte) (place : BitVec 2)
  /-- BOOK_OPEN (R547). -/
  | bookOpen (src : Src)
  /-- BOOK_SUBMIT (R266). -/
  | bookSubmit (src : Src)
  /-- BOOK_ABORT (R269). -/
  | bookAbort (src : Src)
  /-- BOOK_RESTORE (R270). -/
  | bookRestore (src : Src)
  /-- BOOK_READBACK (R547). -/
  | bookReadback (src : Src)
  /-- BOOK_WINDOW_WRITE (R269). -/
  | bookWindowWrite (src : Src) (bytes : List Byte)
  /-- CONSENT_TIMEOUT (R268). -/
  | consentTimeout
  /-- LG_RELEASE (R493). -/
  | lgRelease (src : Src)
  /-- LGF_WRITE (R542). -/
  | lgfWrite (w : Who)
  /-- PWR_DOMAIN (R498). -/
  | pwrDomain (w : Who) (d : BitVec 6) (st : BitVec 2)
  /-- PWR_SLEEP (R502). -/
  | pwrSleep (w : Who) (grace : BitVec 14)
  /-- SLEEP_GRACE_END (R502). -/
  | sleepGraceEnd
  /-- CPB_CMD_FRAME (R544). -/
  | cpbCmdFrame (w : Who) (op : BitVec 6)
  /-- CPB_ABANDON (R544). -/
  | cpbAbandon (w : Who)
  /-- SESSION_IDLE_TIMEOUT (R246). -/
  | sessionIdleTimeout (ch : Chan)
  /-- VERSION (R98). -/
  | version (ch : Chan) (tag : BitVec 6)
  /-- ECHO (R381). -/
  | echo (ch : Chan) (tag : BitVec 6)
  /-- POD_TOKEN (R190). -/
  | podToken (ch : Chan) (tag : BitVec 6)
  /-- OPER_TALLY (R383). -/
  | operTally (ch : Chan) (tag : BitVec 6)
  /-- QUARANTINE_LIFT (R263). -/
  | quarantineLift (ch : Chan) (tag : BitVec 6)
  /-- HALLMARK_GET (R235). -/
  | hallmarkGet (ch : Chan) (tag : BitVec 6) (car : Carriage)
  /-- WEIGHT_MEASURE (R232). -/
  | weightMeasure (ch : Chan) (tag : BitVec 6) (car : Carriage)
  /-- WEIGHT_STATUS (R238). -/
  | weightStatus (ch : Chan) (tag : BitVec 6) (car : Carriage)
  /-- KEM_UPGRADE (R245). -/
  | kemUpgrade (ch : Chan) (tag : BitVec 6) (car : Carriage)
  /-- KEY_DELIVER (R247). -/
  | keyDeliver (ch : Chan) (tag : BitVec 6) (car : Carriage)
  /-- KEY_REVOKE (R248). -/
  | keyRevoke (ch : Chan) (tag : BitVec 6) (car : Carriage)
  /-- IDENT_ENDORSE (R230). -/
  | identEndorse (ch : Chan) (tag : BitVec 6)
  /-- CONSENT (R268). -/
  | consent (ch : Chan) (tag : BitVec 6)
  /-- PART_START (R262). -/
  | partStart (ch : Chan) (tag : BitVec 6)
  /-- QUENCH (R323). -/
  | quench (ch : Chan) (tag : BitVec 6)
  /-- IRQ_BIND (R316). -/
  | irqBind (ch : Chan) (tag : BitVec 6)
  /-- DOMAIN_RESET (R321). -/
  | domainReset (ch : Chan) (tag : BitVec 6)
  /-- ASY_CONFIG (R417). -/
  | asyConfig (ch : Chan) (tag : BitVec 6)
  /-- SLEEP_REQUEST (R500). -/
  | sleepRequest (ch : Chan) (tag : BitVec 6)
  /-- DOMAIN_POWER (R498). -/
  | domainPower (ch : Chan) (tag : BitVec 6)
  /-- DEBUG_UNLOCK (R114). -/
  | debugUnlock (token : List Byte)
  /-- PUSH_OFFER (R131). -/
  | pushOffer (origin : Byte) (length : DWord)
  /-- PUSH_DATA (R131). -/
  | pushData (words : List Word)
  /-- PUSH_END (R131). -/
  | pushEnd
  /-- STAGED (R147). -/
  | staged (origin : Byte) (length : DWord)
  /-- GET_VERSION (R239). -/
  | getVersion (ch : Chan) (tag : BitVec 6) (car : Carriage)
  /-- GET_CAPABILITIES (R240). -/
  | getCapabilities (ch : Chan) (tag : BitVec 6) (car : Carriage)
  /-- NEGOTIATE_ALGORITHMS (R240). -/
  | negotiateAlgorithms (ch : Chan) (tag : BitVec 6) (car : Carriage) (offered : AlgOffer)
  /-- GET_DIGESTS (R241). -/
  | getDigests (ch : Chan) (tag : BitVec 6) (car : Carriage)
  /-- GET_CERTIFICATE (R241). -/
  | getCertificate (ch : Chan) (tag : BitVec 6) (car : Carriage) (slot : BitVec 4)
  /-- CHALLENGE (R239). -/
  | challenge (ch : Chan) (tag : BitVec 6) (car : Carriage) (slot : BitVec 4) (hash : BitVec 384)
  /-- GET_MEASUREMENTS (R241). -/
  | getMeasurements (ch : Chan) (tag : BitVec 6) (car : Carriage) (param : SlotIndex) (hash : BitVec 384)
  /-- KEY_EXCHANGE (R243). -/
  | keyExchange (ch : Chan) (tag : BitVec 6) (car : Carriage) (param : SlotSession) (point : List Byte) (th : BitVec 384)
  /-- FINISH (R243). -/
  | finish (ch : Chan) (tag : BitVec 6) (car : Carriage) (th : BitVec 384) (verify : BitVec 384)
  /-- HEARTBEAT (R246). -/
  | heartbeat (ch : Chan) (tag : BitVec 6) (car : Carriage)
  /-- KEY_UPDATE (R244). -/
  | keyUpdate (ch : Chan) (tag : BitVec 6) (car : Carriage)
  /-- END_SESSION (R246). -/
  | endSession (ch : Chan) (tag : BitVec 6) (car : Carriage)
  /-- CHUNK_SEND (R239). -/
  | chunkSend (ch : Chan) (tag : BitVec 6) (car : Carriage) (last : Bool) (bytes : List Byte)
  /-- CHUNK_GET (R239). -/
  | chunkGet (ch : Chan) (tag : BitVec 6) (car : Carriage)
  /-- GET_TDISP_VERSION (R249). -/
  | getTdispVersion (ch : Chan) (tag : BitVec 6) (car : Carriage)
  /-- GET_TDISP_CAPABILITIES (R249). -/
  | getTdispCapabilities (ch : Chan) (tag : BitVec 6) (car : Carriage)
  /-- LOCK_INTERFACE_REQUEST (R250). -/
  | lockInterfaceRequest (ch : Chan) (tag : BitVec 6) (car : Carriage) (vf : BitVec 6)
  /-- GET_DEVICE_INTERFACE_REPORT (R250). -/
  | getDeviceInterfaceReport (ch : Chan) (tag : BitVec 6) (car : Carriage) (vf : BitVec 6)
  /-- GET_DEVICE_INTERFACE_STATE (R250). -/
  | getDeviceInterfaceState (ch : Chan) (tag : BitVec 6) (car : Carriage) (vf : BitVec 6)
  /-- START_INTERFACE_REQUEST (R250). -/
  | startInterfaceRequest (ch : Chan) (tag : BitVec 6) (car : Carriage) (vf : BitVec 6)
  /-- STOP_INTERFACE_REQUEST (R250). -/
  | stopInterfaceRequest (ch : Chan) (tag : BitVec 6) (car : Carriage) (vf : BitVec 6)
  /-- QUERY (R251). -/
  | query (ch : Chan) (tag : BitVec 6) (car : Carriage)
  /-- K_SET_GO (R251). -/
  | kSetGo (ch : Chan) (tag : BitVec 6) (car : Carriage) (stream : Byte) (keySet : Bool)
  /-- K_SET_STOP (R251). -/
  | kSetStop (ch : Chan) (tag : BitVec 6) (car : Carriage) (stream : Byte) (keySet : Bool)
  /-- KEY_PROG (R251). -/
  | keyProg (ch : Chan) (tag : BitVec 6) (car : Carriage)
  /-- TIMING_BAND_CHANGE (R514). -/
  | timingBandChange (band : BitVec 2) (tj : Byte)
  /-- TAMPER_CONDITION_END (R470). -/
  | tamperConditionEnd (src : BitVec 5)
  /-- ENTROPY_RESTART_DONE (R216). -/
  | entropyRestartDone
  /-- SBOX_COMMAND_DONE (R175). -/
  | sboxCommandDone (w : Who)
  /-- DRAIN_ACK_LIMIT (R264). -/
  | drainAckLimit
  /-- FLASH_READ_DONE (R139). -/
  | flashReadDone (ok : Bool) (bytes : List Byte)
  /-- ARRAY_BIST_DONE (R480). -/
  | arrayBistDone (array : BitVec 4) (pass : Bool)
  /-- SVN_COUNTER_ADVANCE (R138). -/
  | svnCounterAdvance (counter : BitVec 5) (window : BitVec 2)
deriving DecidableEq, Repr

end Sys2Proof
end

