-- ==== Sys2Proof/Config.lean ====
section
/-! DEFINITION. What an implementation of KX3 fixes and the spec leaves open: each is a constant with no body, so a
statement about it holds whatever it is. -/
namespace Sys2Proof

/-- The n-th value that the spec leaves free: a DRBG or weight draw, a marginal cell, an unstated result (log entry 3). -/
opaque Config.freeBits : Nat → BitVec 512

/-- The order in which the columns of the Hsiao (72,64) code's check matrix stand (R101): the spec names the code and not its
matrix (log entry 4). -/
opaque Config.hsiaoOrder : Nat → Nat

/-- The fixed key of the entropy source's conditioning component (R214), whose value the spec does not give (log entry 81). -/
opaque Config.conditionKey : BitVec 256

/-- TOP_VERSION.PATCH, "as shipped" (Table 19-3). -/
opaque Config.patch : Byte

/-- The result of a modular operation on operands outside its domain, which R198 leaves unspecified: the operation's
OP code, its operand length in words, and its operands. -/
opaque Config.anvilOpen : Nat → Nat → List Nat → Nat

/-- Curve results that R198 leaves unspecified (a peer point off the curve): the scalar and the 97 bytes given. -/
opaque Config.ecdhOpen : Nat → List Byte → BitVec 384

/-- ML-DSA-87 and ML-KEM-1024 (FIPS 204, FIPS 203), which the spec cites and does not define (log entry 5). -/
opaque Config.mldsaPk : List Byte → Nat → Byte
opaque Config.mldsaSign : List Byte → List Byte → List Byte → BitVec 256 → Nat → Byte
/-- Verification of public key, context string, message and signature. -/
opaque Config.mldsaVerify : List Byte → List Byte → List Byte → List Byte → Bool
opaque Config.mldsaIters : List Byte → List Byte → List Byte → BitVec 256 → Nat
opaque Config.mlkemPk : List Byte → Nat → Byte
opaque Config.mlkemKeyOk : List Byte → Bool
opaque Config.mlkemCipher : List Byte → BitVec 256 → Nat → Byte
opaque Config.mlkemSecret : List Byte → BitVec 256 → BitVec 256
opaque Config.mlkemDecaps : List Byte → List Byte → BitVec 256

/-- The public test keys in ROM (R136): the bytes of the ECDSA point and of the ML-DSA-87 key, in the order of PK_OFF. -/
opaque Config.testKeys : Nat → Byte

/-- The public test root in ROM (Table 6-4), whose value the spec does not give (log entry 61). -/
opaque Config.testRoot : BitVec 512

/-- The bytes of an SPDM message or secured record, whose encoding DSP0274 and DSP0277 give (log entry 51). -/
opaque Config.spdmBytes : Nat → List Byte

/-- What R229 says a certificate holds: version and algorithm, subject and issuer by name and public key, serial number, end of
validity, and in the alias certificates the TcbInfo extension (vendor, model, SVN, fwid). -/
structure CertBody where
  version   : Nat
  algorithm : String
  subject   : String
  key       : List Byte
  issuer    : String
  issuerKey : List Byte
  serial    : List Byte
  notAfter  : String
  tcb       : Option (String × String × Nat × List Byte)
deriving DecidableEq, Repr
/-- The DER encoding of a certificate and its signature, from the draw that made it (log entry 89). -/
opaque Config.certDer : CertBody → Nat → List Byte

/-- The check of an unlock token (R114), whose encoding the spec does not give: the token, the challenge and the device serial
give the key set that signed it and the scope it asks for, or none when it does not verify (log entry 64). -/
opaque Config.unlockCheck : List Byte → List Byte → List Byte → Option (Nat × Nat)

/-- The IDE stream to which the endpoint ties a virtual function (R250): the host configures it. -/
opaque Config.streamOf : Nat → Nat
/-- The package index to which the link engine with this number leads: the pod's wiring, which the spec does not give (log
entry 88). -/
opaque Config.linkPeer : Nat → Nat

/-- What a source or a destination of the NoC is (Table 9-8): KX3's own ports, the PCIe endpoint and its functions, an ISC, a site, the
controllers of a tier and CXL port, a link engine, the staging region. -/
inductive NiEnd where
  | none
  | hcp
  | hip
  | endpoint
  | pf
  | vf (v : Nat)
  | isc
  | site (k : Nat)
  | tier (t port : Nat)
  | link (agent : Nat)
  | staging
deriving DecidableEq, Repr, Inhabited
/-- The hub's NoC, which the integrator fixes (log entry 92): the endpoint's NI; the number of sources of any other NI and what each
is; the number of destination NIs, and what each serves. -/
opaque Config.endpointNi : Nat
opaque Config.niSources : Nat → Nat
opaque Config.niSource : Nat → Nat → NiEnd
opaque Config.niDests : Nat
opaque Config.niDest : Nat → NiEnd

/-- How many versions fit into the Pattern Book beside the current one, by the current version's number (R277, log entry 91). -/
opaque Config.bookRoom : Nat → Nat

/-- HIP_REQ_SUB of a request by its use (R41), whose value the spec does not give (log entry 79). -/
opaque Config.hipSub : Nat → BitVec 9

/-- The bytes of a Ledger record that no longer matches its CRC (R492): the slot and the byte (log entry 75). -/
opaque Config.damagedRec : Nat → Nat → Byte

end Sys2Proof
end

