-- ==== Sys2Proof/Machine/State.lean ====
section
/-! DEFINITION. The state of the KX3 block, as plain data: every register, queue, buffer, counter, mode and pin the spec
gives it, and the queue of commands that wait. The defs named <type>.reset are the values at reset; a value the spec does
not give is a DESIGN CHOICE named in notes/assumptions. -/
namespace Sys2Proof.Machine

/-! ## Reasons to stop -/

/-- Why the block stops with a fault. -/
inductive Fault where
  /-- Raised by the commands that name a hub domain by a 6-bit number, for the numbers 40 to 63: the hub has 40 domains
  (Table 2-3), so the event has no subject. Safe: no such event exists at the ports. -/
  | noSuchDomain
  /-- Raised by the commands that name a tamper source by a 5-bit number, for source 31, which Table 17-1 reserves.
  Safe: no such event exists. -/
  | noSuchSource
deriving DecidableEq, Repr

/-- Why the model refuses a command. -/
inductive Refusal where
  /-- Raised by Machine/Dispatch.lean for a row that has no meaning yet. Safe. -/
  | notModelled (mnemonic : String)
deriving DecidableEq, Repr

/-! ## Block, pins, time (chapters 1, 2) -/

/-- TOP_STATE.STATE (Table 1-3). -/
inductive BState where
  | reset | sense | boot | run | degraded | safe | halted | sleep
deriving DecidableEq, Repr

/-- The level signals of Tables 2-2 and 2-3, inputs as KX3 last sampled them. -/
structure Pins where
  hubRstN     : BitVec 40
  pdStatus    : BitVec 40
  pwrReq      : Bool
  pwrDom      : BitVec 6
  pwrState    : BitVec 2
  siteHoldN   : BitVec 16
  siteReady   : BitVec 16
  sitePresent : BitVec 16
  integStrap  : BitVec 8
  tmpIn       : BitVec 16
  shutterN    : Bool
  halt        : BitVec 8
  lcs         : BitVec 6
  dbgEn       : Bool
  testEn      : Bool
  critValid   : Bool
  hubTrim     : BitVec 32
  xspiResetN  : Bool
  /-- the site each translation unit and site controller serves, wired by the integrator (agent, site) -/
  wiring      : List (Nat × Nat)
deriving DecidableEq, Repr

/-- What an access answered last: the response code, the data beats, and the echo of HCP_REQ_ID (0 on the fabric). -/
structure Response where
  code : Rsp
  data : List DWord
  id   : BitVec 6 := 0
deriving DecidableEq, Repr

/-- The header registers of a page (R75) that hold state of their own. -/
structure Hdr where
  ctrl    : Word
  event   : Word
  evmask  : Word
  errinfo : Word
  lock    : Bool
  /-- firmware pages: each event bit whose interrupt is raised, with one more than the number of the core it is raised toward (R76,
  R511) -/
  lines   : SMap Nat := []
deriving DecidableEq, Repr

/-! ## The Ledger (chapter 17) -/

/-- A Ledger record (Table 17-12). The CRC is a function of the other bytes and the slot; `damaged` says that the
stored bytes no longer match it. -/
structure LRec where
  time    : BitVec 48
  event   : BitVec 16
  pid     : Nat
  sev     : Nat
  seq     : Nat
  p0      : Word
  p1      : Word
  p2      : Word
  scope   : Nat
  damaged : Bool
deriving DecidableEq, Repr

/-- Where the Ledger writer stands (R493): writing over every slot, stopped by a freeze of this start, or confined to the
margin after a reset that found the Ledger frozen. -/
inductive LMode where
  | ring | stopped | margin
deriving DecidableEq, Repr

/-- The Ledger: 4,096 slots of retained SRAM and the writer's state (R488 to R495). -/
structure Ledger where
  slots      : SMap (Option LRec)
  nextSlot   : Nat
  nextSeq    : Nat
  mode       : LMode
  frozenSlot : Nat
  frozenSeq  : Nat
  discarded  : Nat
  floors     : SMap Nat
deriving DecidableEq, Repr

/-! ## The Checker Programming Bus (chapters 2, 20) -/

/-- On whose behalf a CPB frame was sent: which sequence its reply carries on. -/
inductive CpbUse where
  | cmd (core : Nat)
  | census
  | quench (pid step : Nat)
  | retire (pid : Nat)
  | quiesce
  | hold (pid : Nat)
  | epoch
  | rollback
  | restore
  | inval (pid : Nat)
  | fence (pid : Nat) (lift : Bool)
  | roots (pid : Nat)
  | domain (d step : Nat)
  | key (agent : Nat)
  | post
  | sleep
deriving DecidableEq, Repr

/-- A frame that KX3 has to send (Table 2-7, its SEQ not yet given). -/
structure Frame where
  agent   : Nat
  op      : Nat
  payload : BitVec 56
  use     : CpbUse
deriving DecidableEq, Repr

/-- A frame that awaits its reply (R49, R51). `released` marks one whose third resend has passed and that still waits
for DRAIN_ACK (R294, R544). -/
structure Flight where
  frame    : Frame
  seq      : Nat
  resends  : Nat
  released : Bool
deriving DecidableEq, Repr

/-- What KX3 knows of an agent (Table 20-22, R49, R52). -/
structure Agent where
  present    : Bool
  faulted    : Bool
  delivering : Bool
  kind       : Nat
  cause      : Nat
  words      : Nat
  version    : Word
  seq        : Nat
  kekValid   : Bool
deriving DecidableEq, Repr

/-- CPB_CMD and its operands for one initiator (Tables 20-20, 20-21); the operands are in the register file. -/
structure CpbPort where
  result : Nat
  busy   : Bool
  agent  : Nat
  op     : Nat
  reply  : BitVec 56
  replyOp : Nat
deriving DecidableEq, Repr

/-- The CPB controller. -/
structure Cpb where
  agents   : SMap Agent
  flights  : List Flight
  waiting  : List Frame
  retryCnt : Word
  ports    : SMap CpbPort
deriving DecidableEq, Repr

/-! ## HIP (chapter 2) -/

/-- The use of a HIP request (Table 1-5). -/
inductive HipUse where
  | load (num : Nat)
  | staging (num : Nat)
  | weight (pid obj : Nat)
  | batch (pid : Nat)
  | log (pid : Nat)
  | scrub (region : Nat) (readback : Bool)
  | post (pid vec : Nat)
  | lane (lane : Nat)
deriving DecidableEq, Repr

/-- An outstanding HIP request (R41). -/
structure HipReq where
  id    : Nat
  /-- HIP_REQ_SUB -/
  sub   : BitVec 9
  use   : HipUse
  addr  : Nat
  len   : Nat
  write : Bool
  data  : List Byte
deriving DecidableEq, Repr

/-- The HIP initiator: outstanding requests in order of issue, and those that wait (R41). -/
structure Hip where
  out     : List HipReq
  waiting : List HipReq
  /-- the PID served last in each class (R333) -/
  turn    : SMap Nat
deriving DecidableEq, Repr

/-! ## Partitions and epochs (chapters 9, 20) -/

/-- Partition state (Table 9-4). -/
inductive PState where
  | free | configured | running | quenching | quarantined | retiring
deriving DecidableEq, Repr

/-- One bank of the partition and region tables and the source owners: raw words, keyed by 16 * pid + w (Table 9-1),
4 * index + w (Table 9-2) and source (Table 11-1). -/
structure Bank where
  pw  : SMap Word
  rw  : SMap Word
  src : SMap Word
deriving DecidableEq, Repr

/-- The shared fields of a region (R530). -/
structure RShared where
  state  : Nat
  fenced : Bool
  rgen   : Nat
deriving DecidableEq, Repr

/-- The shared fields of a partition (R530), its lift messages (R263), its layout events and its start time data. -/
structure PShared where
  state     : PState
  gen       : Nat
  genHold   : Bool
  liftOper  : Bool
  liftPriv  : Bool
deriving DecidableEq, Repr

/-- A version kept in the Pattern Book: its number, parity, tables, and the STATE and GEN of each partition (R277). -/
structure Version where
  num    : Nat
  ep     : Bool
  bank   : Bank
  shared : SMap PShared
  /-- the shared fields of its regions when it was written -/
  regions : SMap RShared
deriving DecidableEq, Repr

/-- A range of the tier map (R260). -/
structure TierRange where
  base  : Nat
  size  : Nat
  tier  : Nat
  port  : Nat
  first : Nat
  count : Nat
deriving DecidableEq, Repr

/-- The changes that wait for a commit, and what their commit completes. -/
inductive Job where
  | bundle
  | boot
  | restoreBook (fast : Bool)
  | irqApply (pid : Nat) (entries : List (Nat × Word))
  | irqBind (ch tag cls : Nat) (entries : List Word)
  | ring (pid : Nat) (region : Nat)
  | ringRelease (pid : Nat) (region : Nat)
  | log (pid : Nat) (region : Nat)
  | logRelease (pid : Nat) (region : Nat)
  | grantRead (pid obj : Nat)
  | withdrawRead (pid : Nat) (regions : List Nat)
  /-- a ring's use of a region has ended without a release: its G0 write right goes (R15) -/
  | ringDrop (pid : Nat) (region : Nat)
  | domain (ds : List Nat)
  | keys (pid : Nat)
deriving DecidableEq, Repr

/-- EPOCH_STAT.PHASE (Table 20-9). -/
inductive EPhase where
  | idle | writing | preparing | prepared | committing | closing | rollingBack | done | prepareHalt
deriving DecidableEq, Repr

/-- One write list entry (Table 20-10). -/
structure WEntry where
  kind  : Nat
  sel   : Nat
  agent : Nat
  index : Nat
  data  : Word
deriving DecidableEq, Repr

/-- The epoch sequencer (R532 to R535). -/
structure Epoch where
  curValid   : Bool
  curEp      : Bool
  curVersion : Nat
  phase      : EPhase
  running    : Bool
  result     : Nat
  rolledBack : Bool
  prepFailed : Bool
  hmkWait    : Bool
  window     : Bool
  failOp     : Nat
  failReason : Nat
  firstFail  : Nat
  /-- the run was started by RUN: PREPARED is passed through -/
  runAll     : Bool
  list       : List WEntry
  agents     : List Nat
  acked      : List Nat
  committed  : List Nat
  kindStep   : Nat
  rbPhase    : Nat
  /-- a run has ended, and what SC1 does after it is still to come -/
  ended      : Bool
  resent     : Nat
  addressed  : Nat
  time       : Nat
  started    : Nat
deriving DecidableEq, Repr

/-- BOOK_STATUS.PHASE (Table 20-24). -/
inductive BPhase where
  | idle | loading | checking | consent | quiesce | committing | rollback | done
deriving DecidableEq, Repr

/-- O_BOOK and the bundle in progress (R265 to R270, R547). -/
structure Book where
  phase      : BPhase
  result     : Nat
  cmdres     : Nat
  version    : Nat
  buf        : List Byte
  readback   : List Byte
  rbReady    : Bool
  /-- the checked bundle's tables -/
  cand       : Bank
  scrubTally : Nat
  digest     : List Byte
  needed     : List Nat
  given      : List Nat
  /-- per PID: the GEN and the version its latest notice announced -/
  notices    : List (Nat × Nat × Nat)
  startTime  : Nat
  /-- removals and quiesced resources of this bundle, to restore after a rollback -/
  removing   : List Nat
  fencedR    : List Nat
  heldSites  : List Nat
  heldDoms   : List Nat
  /-- a DRAIN has gone out for what leaves (Table 9-9) -/
  drained    : Bool
  /-- the removed partitions with their states when the checks passed, and those whose generation step is still to come -/
  seen       : List (Nat × PState)
  genWait    : List Nat
deriving DecidableEq, Repr

/-- The scrub in progress (R279): the region, its first address and size, the bytes written and the granules read
back so far, and whether any response was not clean. -/
structure Scrub where
  region  : Nat
  base    : Nat
  size    : Nat
  issued  : Nat
  written : Nat
  readAt  : Nat
  readOk  : Nat
  bad     : Bool
deriving DecidableEq, Repr

/-- The partition manager. -/
structure Part where
  active  : Bank
  staged  : Bank
  pshared : SMap PShared
  rshared : SMap RShared
  partRes : Nat
  partWait : Nat
  /-- time at which TOP_STATE.STATE last left RESET (R322) -/
  start   : Nat
  /-- time of the last NI ACK that moved a PID away from a GEN value, key 64 * pid + gen (R322, R531) -/
  left    : SMap Nat
  /-- GEN_STEPs in hold: the PIDs and the value wanted -/
  holds   : List (Nat × Nat)
  versions : List Version
  /-- the SHA-384 digest and KMAC256 tag stored with the current version (R277) -/
  bookTag : Option (List Byte × List Byte)
  /-- the agents' table words as SC1 knows them, shadow and active copies, keyed by agent, selector and index (R53, R271) -/
  shadow  : SMap Word
  live    : SMap Word
  /-- agents in no reset domain whose whole shadow copy has been written since KX3's own reset -/
  tabled  : List Nat
  /-- the write list that SC1 last wrote for the composed job -/
  listed  : List WEntry
  /-- the whole shadow of agents that replied NAK reason 2 to PREPARE: 1 listed, 2 sent (R274) -/
  rewrote : Nat
  /-- agents whose resources are withheld from every partition (R148, R276) -/
  withheld : List Nat
  jobs    : List Job
  /-- the head of `jobs` has been composed into the staged bank -/
  composed : Bool
  tierMap : List TierRange
  /-- the domain map: (domain, agent) pairs (R319) -/
  domains : List (Nat × Nat)
  scrub   : Option Scrub
  /-- time of the last failure of a region's scrub (R279) -/
  failed  : SMap Nat
  /-- per version still being scrubbed: its SCRUB_TALLY and the regions it made DIRTY (R280) -/
  scrubFor : List (Nat × List Nat)
deriving DecidableEq, Repr

/-! ## Translation (chapter 10) -/

/-- A queued request of P_XLAT (R292). -/
structure XReq where
  seq     : Nat
  desc    : BitVec 48
  tally   : Option Nat
  cls     : Nat
  reuseLo : Nat
  reuseCnt : Nat
deriving DecidableEq, Repr

/-- A fault record (Table 10-4), complete, and whether it was admitted to Master. -/
structure FRec where
  bytes : List Byte
  master : Bool
deriving DecidableEq, Repr

/-- A closed batch (R297). -/
structure Batch where
  reason : Nat
  closed : Nat
  recs   : List FRec
deriving DecidableEq, Repr

/-- The fence of Table 10-5a in progress: its step, its regions, the unit that did not answer. -/
structure XFence where
  step    : Nat
  regions : List Nat
  unit    : Nat
  /-- Quench, FREE or RETIRING came meanwhile: step 5 signals nothing (R303) -/
  silent  : Bool
deriving DecidableEq, Repr

/-- The translation state of one partition (chapter 10). -/
structure Xlat where
  roots    : SMap Nat
  classes  : SMap Nat
  queue    : List XReq
  /-- the request at the head has been sent to its units -/
  sent     : Bool
  fence    : Option XFence
  openB    : List FRec
  /-- a reason to close the open batch that waits for room among the closed ones -/
  due      : Nat
  closed   : List Batch
  ringOn   : Bool
  /-- a registration or release is in progress -/
  ringBusy : Bool
  ringBase : Nat
  ringSlots : Nat
  ringTally : Nat
  ringRegion : Nat
  prod     : Word
  /-- a batch write is outstanding -/
  writing  : Bool
  fqLost   : Bool
  timeouts : Nat
  result   : Nat
  seq      : Nat
deriving DecidableEq, Repr

/-- The device-wide counts of the XLAT page (Table 20-12). -/
structure XCounts where
  sent     : Word
  timeouts : Word
  records  : Word
deriving DecidableEq, Repr

/-! ## Interrupts (chapter 11) -/

/-- A pending bit of KX3's own events (R313): its class, whether its post is on HIP, whether a refusal of it has been
recorded (R42). -/
structure Pend where
  cls      : Nat
  inFlight : Bool
  refused  : Bool
deriving DecidableEq, Repr

/-- The interrupt service. -/
structure Irq where
  /-- the ISCs of the census in ascending order: agent, sources (R306) -/
  iscs     : List (Nat × Nat)
  postAddr : Nat
  pend     : SMap (Option Pend)
  dropped  : SMap Nat
  droppedAll : Word
  /-- staged bindings (IRQ_STAGE) by global source, in the layout of Table 11-4 -/
  stage    : SMap (Option Word)
  running  : SMap Bool
  result   : SMap Nat
  /-- interrupt lines to the cores raised by Tally CORE actions (Table 13-3) -/
  coreInt  : BitVec 4
deriving DecidableEq, Repr

/-! ## Quench (chapter 11) -/

/-- Who asked for a Quench (QUENCH_START, Table 17-13). -/
inductive QReq where
  | oper (ch : Nat) | tenant | escalation | firmware
deriving DecidableEq, Repr

/-- A Quench in progress (Table 11-8). Outcome 0 restart, 1 hold, 2 quarantine. -/
structure Quench where
  pid       : Nat
  outcome   : Nat
  wasRun    : Bool
  requester : QReq
  /-- an L2 or L3 fault has been accepted or merged into it (R481) -/
  esc       : Bool
  step      : Nat
  /-- the place it holds from step 3 on (R329) -/
  place     : Option Nat
  /-- step 1's generation step waits for R322, or step 2 has ended and a place is awaited (R329) -/
  blocked   : Bool
  /-- steps 5 to 8 that have ended -/
  flushed   : Bool
  domsDone  : Bool
  keysDone  : Bool
  drained   : Bool
  lastAck   : Nat
  held      : BitVec 16
deriving DecidableEq, Repr

/-- The Quench sequencer (R329, R332). -/
structure QnState where
  active  : List Quench
  doneCnt : Word
  genHold : Word
  result  : Nat
deriving DecidableEq, Repr

/-! ## Service classes (chapter 12) -/

/-- The Master token bucket and counts of one PID (R336, Table 12-8). -/
structure Bucket where
  tokens   : Nat
  out      : Nat
  overrun  : Nat
  demoted  : Nat
  /-- P_QOS_RATE as the partition reads it (R354) -/
  rate     : Nat
deriving DecidableEq, Repr

/-- A whole frame on its way to RX. `answers`: it belongs to the reply to the outstanding request with its TAG (R379). -/
structure RxFrame where
  words   : List Word
  answers : Bool
deriving DecidableEq, Repr

/-- What a sealed partition waits for (R346, R347). -/
inductive Sealed where
  | hcp (rsp : Rsp) (data : List DWord) (id : BitVec 6)
  | doorbell (db : Nat) (arg : Word)
  | post (vec cls : Nat)
  | word (w : Word)
  | reply (frame : RxFrame)
  | signal (tally : Nat) (page bits : Nat)
deriving DecidableEq, Repr

/-- A response that waits for its release: its PID, its effect, and whether its release ends an admitted Master request. -/
structure Held where
  pid    : Nat
  eff    : Sealed
  master : Bool
deriving DecidableEq, Repr

/-- The service-class state. -/
structure Qos where
  buckets  : SMap Bucket
  operRate : Nat
  overrun  : Word
  scale    : Nat
  capacity : Nat
  /-- responses that wait for their release: PID and effect -/
  held     : List Held
deriving DecidableEq, Repr

/-! ## Tallies and mailboxes (chapter 13) -/

/-- A wait entry (R360). State 0 IDLE, 1 ARMED, 2 FIRED, 3 CANCELLED. -/
structure WaitE where
  thr    : DWord
  action : Word
  arg    : Word
  state  : Nat
  seq    : Nat
deriving DecidableEq, Repr

/-- The result part of a TL_CMD and TL_STATE of one register set (Tables 13-4, 13-7). -/
structure TlPort where
  result : Nat
  seq    : Nat
  st     : Nat
  stSeq  : Nat
deriving DecidableEq, Repr

/-- The Tally array (chapter 13). Entries are keyed 2 * Tally + entry, doorbell words 32 * PID + word. -/
structure Tallies where
  value  : SMap DWord
  acl    : SMap (BitVec 7)
  entry  : SMap WaitE
  opSeq  : SMap Nat
  seq    : Nat
  db     : SMap Word
  /-- results per view: 0 to 4 the firmware initiators, 256 + PID a partition -/
  ports  : SMap TlPort
  fired  : Word
  noteLost : Word
deriving DecidableEq, Repr

/-- A request in assembly (R377). -/
structure Assembly where
  tag  : Nat
  code : Nat
  cls  : Nat
  body : List Word
  /-- the fragments up to LAST are being discarded -/
  bad  : Bool
deriving DecidableEq, Repr

/-- A request that awaits its reply (R379): TAG, CODE, class, admitted to Master. -/
structure Outst where
  tag    : Nat
  code   : Nat
  cls    : Nat
  master : Bool
deriving DecidableEq, Repr

/-- A mailbox channel (R368 to R380). -/
structure Channel where
  tx       : List Word
  rx       : List Word
  /-- one mark for each frame in RX: 0 ordinary, 1 of the reply to a Master request, 2 the last of such a reply, whose admission
  ends when the frame reaches the head (R372) -/
  marks    : List Nat
  notes    : List Word
  noteLost : Nat
  version  : Option (BitVec 8 × BitVec 8)
  asm      : List Assembly
  outst    : List Outst
  /-- complete requests taken and not yet acted on: tag, code, class, body -/
  inbox    : List (Nat × Nat × Nat × List Word)
  /-- whole frames that wait for room in RX (R382) -/
  replies  : List RxFrame
deriving DecidableEq, Repr

/-- MBF_CMD and the frame buffer of one core (R539). -/
structure MbPort where
  result : Nat
  words  : Nat
  frame  : List Word
deriving DecidableEq, Repr

/-- The mailbox array. -/
structure Mbox where
  chans : SMap Channel
  ports : SMap MbPort
deriving DecidableEq, Repr

/-! ## Cores, faults and tamper (chapters 1, 17) -/

/-- The cores and the block's degradation (Tables 17-4, 19-5). Bit n of each set is core n (0 BC to 3 SC3). -/
structure Cores where
  /-- TOP_CORE_RELEASE: released from reset -/
  released : BitVec 4
  /-- held by the fault controller until the next reset of the core island (R483) -/
  failed   : BitVec 4
  /-- work held by SC3: 0 none, 1 SC1, 2 SC2 -/
  work     : Nat
  standbyLost : Bool
  /-- time of the last heartbeat of each core (R483) -/
  beat     : SMap Nat
  /-- the Assay arrays in service (TOP_CONFIG.ARRAYS) -/
  arrays   : BitVec 16
  /-- 0 not in SAFE, 1 by fault, 2 by tamper -/
  safeCause : Nat
deriving DecidableEq, Repr

/-- The TMP page and the always-on tamper latches (Tables 17-4, 17-5). -/
structure Tamper where
  alarm       : Bool
  pend        : Bool
  sleepTamper : Bool
  shutter     : Bool
  count       : Nat
  raw         : BitVec 32
  first       : Option (Nat × Nat)
  alarms      : Nat
  trefBad     : Bool
  trefDev     : Nat
  escCount    : Nat
  escMax      : Nat
  /-- times of the L2 acceptances of each PID within the last 60 s (R482) -/
  l2          : SMap (List Nat)
  /-- time of the last SIGN_FAULT escalation (Table 17-7) -/
  signFault   : Option Nat
  /-- self-check disagreements per array, their times (Table 17-7) -/
  disagree    : SMap (List Nat)
  band        : Nat
  slowest     : Nat
  tj          : Byte
deriving DecidableEq, Repr

/-! ## Power (chapter 18) -/

/-- Why a domain sequence runs, which decides its steps and its end (R321, R498). -/
inductive DomWhy where
  | reset (ch tag cls : Nat)
  | quench (pid : Nat)
  | power (state : Nat) (ch tag cls : Nat)
  | powerFw (state : Nat)
  | recover
deriving DecidableEq, Repr

/-- A domain sequence (Table 11-7): its domain, step 1 to 5, or 6 while the power controller is asked. -/
structure DomSeq where
  dom  : Nat
  why  : DomWhy
  step : Nat
deriving DecidableEq, Repr

/-- A power request that waits for the handshake (R69). Domain 63 is KX3 itself. -/
structure PwrReq where
  dom   : Nat
  state : Nat
deriving DecidableEq, Repr

/-- The PWR page, the power handshake, and the sleep entry in progress. -/
structure Pwr where
  phase     : Nat
  grace     : Nat
  retain    : BitVec 40
  graceDone : Bool
  started   : Nat
  lastFast  : Bool
  lastCold  : Bool
  reason    : Nat
  domReq    : SMap Nat
  wakes     : Nat
  fastWakes : Nat
  wakeLatch : Bool
  /-- a core fault from step 3 on: step 6 is skipped (R508) -/
  noDigest  : Bool
  result    : Nat
  busy      : Bool
  /-- requests in order; the head is on the pins while `asked` -/
  queue     : List PwrReq
  asked     : Bool
  doms      : List DomSeq
  /-- the wake logic performs Table 18-6 -/
  waking    : Bool
  /-- the retain bitmap of PWR_DOMREQ0 to 2 as SC1 staged it (Table 18-9) -/
  staged    : BitVec 40
deriving DecidableEq, Repr

/-! ## Fuses (chapter 4) -/

/-- A FUSE operation in progress (R516): OP, the row, the 72-cell pattern or the cells of the group to program. -/
structure FuseOp where
  op      : Nat
  key     : Nat
  cells   : BitVec 72
deriving DecidableEq, Repr

/-- What the sense sequencer left (R112): every sensed value, fixed until the next reset of KX3. -/
structure Sensed where
  lcs        : Nat
  kx2        : Bool
  noTestUnlock : Bool
  podKeyed   : Bool
  noHostpush : Bool
  noPeer     : Bool
  noRecovery : Bool
  noDebugUnlock : Bool
  sealedOnly : Bool
  sensorTrim : Word
  counters   : SMap Nat
  /-- decoded ECC rows of IDENT, KEYHASH, OWNER, POD and UDS -/
  rows       : SMap DWord
  /-- those rows that were blank or could not be decoded -/
  blank      : List Nat
  bad        : List Nat
  revoked    : BitVec 4
  unlockActive : Bool
  mismatch   : Nat
  highSens   : Bool
  integFail  : Bool
  corrected  : Nat
  failArea   : Nat
  redirInvalid : Bool
  redirEntry : Nat
  redirUsed  : Nat
  /-- the valid entries with the data row that each names (R107, R108) -/
  spares     : List (Nat × Nat) := []
deriving DecidableEq, Repr

/-- An owner change in progress (R123): the slot that BC programs, the next of its 8 rows, and the groups by which counter 18
then still has to advance. -/
structure OwnerChange where
  slot : Nat
  row  : Nat
  adv  : Nat
deriving DecidableEq, Repr

/-- The anti-fuse array and the FUSE page (chapter 4). Cells are keyed by row: data rows at 0, spare rows at 0x1000,
redirection rows at 0x2000. `marginal` holds the cells whose pulse was cut (R117). -/
structure Fuse where
  cells    : SMap (BitVec 72)
  marginal : SMap (BitVec 72)
  result   : Nat
  busy     : Bool
  check    : Byte
  group    : Nat
  row      : Word
  data     : DWord
  window   : Nat
  op       : Option FuseOp
  stage    : Option (Nat × DWord)
  /-- a PROGRAM_SECRET on this row waits for bits of the DRBG (R217) -/
  await    : Option Nat := none
  owner    : Option OwnerChange := none
  /-- the challenge that the next unlock token has to cover (R114) -/
  challenge : Option (BitVec 256) := none
  unlockLatch : Bool
  interrupted : Nat
  sensed   : Sensed
deriving DecidableEq, Repr

/-! ## Boot (chapter 5) -/

/-- The fields of a KXI image that KX3 uses after its checks (Table 5-4), with its manifest and measurement. -/
structure Image where
  kind     : Nat
  keyset   : Nat
  svn      : Nat
  cls      : Nat
  flags    : Nat
  blocks   : Nat
  lastLen  : Nat
  entryBc  : Nat
  siteMask : BitVec 16
  loadOff  : Nat
  payloadOff : Nat
  dirOff   : Nat
  tbs      : List Byte
  manifest : List (List Byte)
  meas     : List Byte
deriving DecidableEq, Repr

/-- A site entry of the boot directory (Table 5-8). -/
structure SiteEnt where
  offset : Nat
  window : Nat
  size   : Nat
  cls    : Nat
  push   : Bool
  agent  : Nat
deriving DecidableEq, Repr

/-- What KX3 records of a site for the Hallmark (Table 5-9). -/
structure SiteInfo where
  released : Bool
  reason   : Nat
  cls      : Nat
  svn      : Nat
  meas     : List Byte
deriving DecidableEq, Repr

/-- A boot journal record (Table 5-11). -/
structure JRec where
  time    : BitVec 48
  boot    : Nat
  step    : Nat
  event   : Nat
  src     : Nat
  site    : Nat
  reason  : Nat
  attempt : Nat
  /-- bytes 16 to 27 -/
  detail  : BitVec 96
  /-- the stored bytes no longer match the record's CRC -/
  damaged : Bool := false
deriving DecidableEq, Repr

/-- Why sites are being loaded. -/
inductive LoadWhy where
  | boot | wake
  | partStart (pid ch tag cls : Nat)
  | quench (pid : Nat)
  | rollback
deriving DecidableEq, Repr

/-- Where the load of a group stands (Table 5-9): waiting for SITE_READY, for the first header of the other slot (Table
5-10), for the head of the image, for block i from flash or the staging region, for the HIP writes of block i with the
sites where one was refused, or for STAGED. -/
inductive LoadAt where
  | ready | probe | head | block (i : Nat) | write (i pending : Nat) (bad : List Nat) | staged
deriving DecidableEq, Repr

/-- The load of one group of sites. `alt` is 0 for the image of the group, 1 the other slot, 2 host push (Table 5-10). -/
structure Load where
  sites : List Nat
  why   : LoadWhy
  pos   : LoadAt
  alt   : Nat
  image : Option Image
  length : Nat
  /-- the bytes of the head or block read so far -/
  buf   : List Byte
  /-- the number by which its HIP requests name it -/
  num   : Nat
deriving DecidableEq, Repr

/-- Where a start stands between two commands. -/
inductive BootAt where
  | off
  /-- S1 with a tamper record to program first (R474) -/
  | tamperRec
  /-- S3: the head of the image from a flash slot -/
  | fetch (src : Nat)
  /-- S5: block i -/
  | block (src i : Nat)
  /-- S3 to S5 through O_MBOX0: an offer is awaited, or image bytes arrive -/
  | offer (src : Nat)
  | pushing (src len : Nat)
  /-- BLANK: the image comes through JTAG (R133) -/
  | jtag
  /-- the wake digest is awaited (R158) -/
  | wakeCheck
  /-- S7: the cores are to be released -/
  | release
  /-- S8: the boot layout commit, then the sites -/
  | layout | sites
  /-- S9: the census, the post address, the wrap keys -/
  | census | postAddr | wrapSet
  /-- S10: the generations that the restore needs await R322, their GEN_SETs are on the bus, the commit runs -/
  | gens (empty : Bool) | genSet (empty : Bool) | restore (empty : Bool)
  /-- recovery firmware awaits an image for the flash, or its bytes (R132) -/
  | recovery
  | reflash (len : Nat)
  | done
deriving DecidableEq, Repr

/-- A flash read in progress (R71, R130): its first flash byte and its length. -/
structure FlashReq where
  addr   : Nat
  length : Nat
deriving DecidableEq, Repr

/-- The boot complex. -/
structure Boot where
  pos      : BootAt
  step     : Nat
  site     : Nat
  reason   : Nat
  hostWait : Bool
  fast     : Bool
  deferred : Bool
  src      : Nat
  keyset   : Nat
  tried    : Nat
  attempts : Nat
  wdog     : Bool
  wakeStart : Bool
  wakeMatch : Bool
  armed    : Bool
  /-- BOOT_SLEEP_DIGEST and BOOT_WAKE_DIGEST, words 0 to 11 -/
  sleepDigest : SMap Word
  wakeDigest  : SMap Word
  bootNo   : Nat
  jnext    : Nat
  journal  : SMap (Option JRec)
  journalOk : Bool
  /-- the image cache, by 64 KiB block, and the image it belongs to -/
  cache    : SMap (List Byte)
  image    : Option Image
  wakeRec  : Option (Nat × Nat × Nat × Nat × Nat × Nat)
  protect  : Bool
  flash    : Option FlashReq
  /-- the flash has answered SFDP (R130): its density in bytes -/
  flashOk  : Bool
  density  : Nat := 0
  /-- the xSPI controller has changed from 1S-1S-1S to 8D-8D-8D (R71) -/
  octal    : Bool := false
  /-- the image in progress comes through JTAG (R132, R133) -/
  viaJtag  : Bool := false
  /-- the fuse operations of earlier boots whose FUSE_BEGIN has no FUSE_END, oldest first, as their records' DETAIL (R155) -/
  fuseOpen : List (BitVec 96) := []
  push     : List Byte
  stageBase : Nat
  stageSize : Nat
  siteEnts : SMap (Option SiteEnt)
  dirAgents : List (Nat × Nat)
  sites    : SMap SiteInfo
  loads    : List Load
  loading  : Bool
  loadNo   : Nat
  /-- what stopped the previous start and the one before it: step, site, source (R152, R153) -/
  stopped  : Option (Nat × Nat × Nat)
  stoppedBefore : Option (Nat × Nat × Nat)
  /-- this start follows KX_POR_N -/
  afterPor : Bool
  coreBist : BitVec 4
  /-- the START record of this start has been written -/
  startRec : Bool
deriving DecidableEq, Repr

/-! ## The Strongbox (chapter 6) -/

/-- A key slot (R163): the key material and the attribute word of Table 6-1. -/
structure Slot where
  key  : BitVec 512
  attr : Word
deriving DecidableEq, Repr

/-- The staging registers of one initiator (R174). -/
structure SboxPort where
  sel    : Nat
  attr   : Word
  derive : Word
  data   : BitVec 512
  mask   : BitVec 16
  result : Nat
  busy   : Bool
  /-- the result that the command in progress ends with, and whether it is an ERASE_PID or ERASE_STALE -/
  next   : Nat
  long   : Bool
  seq    : Nat
  /-- the hash lane that a DERIVE in progress has taken (R209) -/
  lane   : Option Nat := none
  /-- the slot and attributes of a DERIVE from the DRBG that waits for the entropy source (R217) -/
  await  : Option (Nat × Word) := none
deriving DecidableEq, Repr

/-- The Strongbox. -/
structure Sbox where
  slots     : SMap Slot
  root      : BitVec 512
  rootValid : Bool
  rootSubst : Bool
  podRoot   : BitVec 512
  podRootValid : Bool
  svn       : BitVec 16
  meas      : BitVec 384
  lockRoot  : Bool
  lockFixed : Bool
  shutterFired : Bool
  seq       : Nat
  ports     : SMap SboxPort
  /-- bootstrap counts of the agents (R183) -/
  bootCnt   : SMap Nat
deriving DecidableEq, Repr

/-! ## The engines (chapter 7) -/

/-- What a job leaves when it ends: bytes for main SRAM, words for the operand memory, and a Strongbox slot with its
attributes and its key. -/
structure Outs where
  mem  : List (Nat × List Byte)
  opnd : List (Nat × DWord)
  slot : Option (Nat × Word × List Byte)
deriving DecidableEq, Repr

/-- A job of the Anvil that has started: its descriptor's offset and bytes, its class, its sequence number, whether it was
started by a yield, its yields, the result it will end with, and what it will leave. -/
structure PJob where
  addr   : Nat
  desc   : List Byte
  cls    : Nat
  seq    : Nat
  byYield : Bool
  yields : Nat
  result : Nat
  iters  : Nat
  outs   : Outs
deriving DecidableEq, Repr

/-- The Anvil. Queues hold (class, descriptor offset, sequence number) in order of submission. -/
structure Anvil where
  mem     : SMap DWord
  words   : Nat
  latRes  : Bool
  queue   : List (Nat × Nat)
  run     : Option PJob
  susp    : Option PJob
  seq     : Nat
  yields  : Nat
  maxStretch : Nat
deriving DecidableEq, Repr

/-- A hash lane: its queued jobs, the open message (operation, key, customisation string, output bytes, data so far),
whether a message was abandoned, the job in progress with its result, and the HIP address and bytes still to come for it. -/
structure Lane where
  queue   : List Nat
  msg     : Option (Nat × List Byte × List Byte × Nat × List Byte)
  abandon : Bool
  run     : Option (Nat × List Byte × Nat)
  hubAddr : Nat
  hubLeft : Nat
  /-- a DERIVE has the lane; the open message stands in the shadow context (R209) -/
  shadow  : Bool := false
deriving DecidableEq, Repr

/-- The hash lanes. -/
structure Hash where
  lanes : SMap Lane
  err   : Word
deriving DecidableEq, Repr

/-- A job of the AES engine that has started. -/
structure AJob where
  addr   : Nat
  desc   : List Byte
  seq    : Nat
  result : Nat
  outs   : Outs
deriving DecidableEq, Repr

/-- The AES engine. The queue holds (class, descriptor offset) in order of submission. -/
structure Aes where
  queue : List (Nat × Nat)
  run   : Option AJob
  seq   : Nat
deriving DecidableEq, Repr

/-- The entropy source and the DRBG (R214 to R218). The DRBG's internal state is the MODEL's own number of the next
draw; the draws are free values. -/
structure Rng where
  es       : Nat
  intermittent : Nat
  failTimes : List Nat
  startFails : Nat
  genCount : Nat
  reseeds  : Word
  lastSeed : Nat
  /-- the entropy pool, oldest block first, at most 256 (R214) -/
  pool     : List (BitVec 128) := []
  /-- the time count when the pool was last brought up to date -/
  poolAt   : Nat := 0
  /-- the blocks that last seeded the DRBG (R217) -/
  seed     : List (BitVec 128) := []
  /-- the Shutter erased the DRBG's state (R181) -/
  dead     : Bool
deriving DecidableEq, Repr

/-- One check-value unit (Table 7-13). -/
structure Cvu where
  poly : Word
  width : Nat
  init : Word
  xorout : Word
  cfg  : Word
  running : Word
  fold : DWord
  src  : Word
  len  : Word
  foldStep : Word
  busy : Bool
  memErr : Bool
  /-- 0 none, else 1 + the initiator's number -/
  holder : Nat
deriving DecidableEq, Repr

/-! ## The HMK page (chapter 19) -/

/-- A Hallmark place (Table 19-28). -/
structure HmkPlace where
  held  : Bool
  assembling : Bool
  stale : Bool
  state : Nat
  gen   : Nat
  pid   : Nat
  ep    : Bool
  version : Nat
  time  : Nat
deriving DecidableEq, Repr

/-- The HMK page. HMK_SEL and HMK_CMD exist once. -/
structure Hmk where
  places : SMap HmkPlace
  sel    : Nat
  pid    : Nat
  result : Nat
  issued : Word
  staleCnt : Word
deriving DecidableEq, Repr
/-! ## Attestation (chapter 8) -/

/-- A weight object (R232 to R234). -/
structure WObj where
  base    : Nat
  len     : Nat
  status  : Nat
  /-- the grant's commit is awaited (0), the object is read (1), the measurement has ended (2) -/
  phase   : Nat
  /-- the regions whose G0 read right its grant added -/
  granted : List Nat
  leaves  : List (List Byte)
  leaf    : List Byte
  done    : Nat
  root    : List Byte
  start   : Nat
  stop    : Nat
  /-- the hash lane that reads the object (R207, R234) -/
  lane    : Option Nat := none
deriving DecidableEq, Repr

/-- An SPDM session, one per channel (R242 to R246). Slots are Strongbox slots. -/
structure Session where
  /-- between KEY_EXCHANGE and FINISH -/
  opening : Bool
  reqId   : Nat
  rspId   : Nat
  pid     : Nat
  gen     : Nat
  hsSlot  : Nat
  hsKeys  : List Nat
  master  : Nat
  reqKey  : Nat
  rspKey  : Nat
  update  : Nat
  delivery : Nat
  kem     : Bool
  kemHash : List Byte
  th      : List Byte
  lastRec : Nat
  /-- records received and sent under the keys in force (R244) -/
  recvSeq : Nat := 0
  sendSeq : Nat := 0
deriving DecidableEq, Repr

/-- A key delivered under R247 that is in force or on its way. -/
structure DKey where
  pid     : Nat
  keyId   : Nat
  purpose : Nat
  dir     : Nat
  target  : Nat
  slot    : Nat
  agent   : Nat
  index   : Nat
  /-- the channel and tag that await the reply, and their class -/
  asker   : Option (Nat × Nat × Nat)
  /-- 0 frames to the agent, 1 commit awaited, 2 in force, 3 removal commit awaited, 4 ERASE at the agent -/
  phase   : Nat
deriving DecidableEq, Repr

/-- A Hallmark in preparation: its place (255 while it awaits one), the channel and tag that await it, whether it goes out in
a session, its payload. -/
structure HPrep where
  place   : Nat
  ch      : Nat
  tag     : Nat
  cls     : Nat
  code    : Nat
  pid     : Nat
  nonce   : List Byte
  secured : Bool
  payload : List Byte
deriving DecidableEq, Repr

/-- The content of an SPDM, TDISP or IDE_KM answer; DSP0274 and the PCIe specifications give its bytes. -/
inductive SpdmRsp where
  | version (v : Nat)
  | capabilities (flags : List String) (dts max : Nat)
  | algorithms (chosen : List String)
  | digests (d : List (List Byte))
  | certificate (slot : Nat) (c : List Byte)
  | signed (what : List Byte) (r s : Nat)
  | measurements (blocks : List (Nat × String × List Byte)) (r s : Nat)
  | keyExchange (rspId heartbeat : Nat) (point : List Byte) (verify : List Byte) (r s : Nat)
  | ok
  | error (name : String)
  | tdispVersion
  | tdispCapabilities
  | locked (vf : Nat)
  | report (pid gen version : Nat) (ueid key : List Byte) (mmioBase mmioSize : Nat) (tee : Bool)
  | ifState (vf state : Nat)
  | ideOk
  | ideFail
  | wsp (body : List Word)
  | chunk (bytes : List Byte)
deriving DecidableEq, Repr

/-- The attestation services. -/
structure Att where
  weights  : SMap (Option WObj)
  sessions : SMap (Option Session)
  keys     : List DKey
  preps    : List HPrep
  /-- TDISP state by virtual function (Table 8-9), and the PID it is reported for -/
  vf       : SMap Nat
  /-- stream key sets that K_SET_GO has activated -/
  streams  : SMap Bool
  /-- the session of operator channel 3 holds the TSM role; a session has held it since the reset (R249) -/
  tsm      : Bool
  tsmTaken : Bool := false
  endorseEc : List Byte
  endorseMl : List Byte
  /-- answers given, latest first: channel, tag, content -/
  answers  : List (Nat × Nat × SpdmRsp)
  /-- answers that went out as records, latest first: channel, tag, and the IV of the record (R244) -/
  records  : List (Nat × Nat × List Byte) := []
  /-- the draw that made the device identity and alias certificates of this start (R229) -/
  certDraw : Nat := 0
  /-- a chunked transfer in progress per channel: the bytes so far, the bytes still to fetch -/
  chunks   : SMap (List Byte × List Byte)
  podToken : Bool
  /-- the sealed area: each item's number, the key that it is (none for the pod master), and its wrapped bytes (R178, R503) -/
  sealedArea : List (Nat × Option DKey × List Byte)
deriving DecidableEq, Repr

def Att.reset : Att :=
  { weights := [], sessions := [], keys := [], preps := [], vf := [], streams := [], tsm := false, endorseEc := [],
    endorseMl := [], answers := [], chunks := [], podToken := false, sealedArea := [] }

/-! ## The Assay (chapters 14 to 16) -/

/-- A block fed to an operation or waiting for a run: tensor or window, block number, port, HALF, data. -/
structure Fed where
  tensor : Nat
  block  : Nat
  port   : Nat
  half   : Nat
  data   : List Byte
deriving DecidableEq, Repr

/-- The context of a run (Table 16-1), and where its handler stands: 0 none, 1 INIT, 2 BLOCK, 3 CLOSE. -/
structure Ctx where
  v       : SMap Word
  s       : SMap DWord
  p       : SMap DWord
  t       : SMap Int
  floor   : SMap Int
  flags   : Nat
  stack   : List Nat
  lm      : SMap Byte
  lmSize  : Nat
  handler : Nat
  initDone : Bool
  pc      : Nat
  cur     : Option Fed
  presented : Nat
  fuel    : Nat
  used    : Nat
  hUsed   : Nat
  verdict : Option Nat
  words   : SMap (Option DWord)
  cause   : Nat
deriving DecidableEq, Repr

/-- An operation or run in a place (R415, R446). -/
structure AOp where
  opno    : Nat
  trig    : Nat
  tally   : Option Nat
  kind    : Nat
  desc    : List Byte
  bandsE  : Nat
  gen     : Nat
  cost    : Nat
  opened  : Nat
  closedAt : Nat
  /-- 0 open, 1 closed and counting, 2 counting ended -/
  stage   : Nat
  autoC   : Bool
  byAuto  : Bool
  byAct   : Bool
  sampled : Bool
  untapped : Bool
  tapFault : Bool
  noDraw  : Bool
  /-- the number of the first free value of its weights -/
  wbase   : Nat
  /-- 1 COUNTED, 2 LOST, by 2^46 * tensor + block -/
  blocks  : SMap Nat
  /-- gaps in order of occurrence: tensor, block, cause -/
  gaps    : List (Nat × Nat × Nat)
  fed     : List Fed
  /-- runs only: handle, class, blocks that wait for their BLOCK invocation, context -/
  handle  : Nat
  cls     : Nat
  queue   : List Fed
  ctx     : Option Ctx
deriving DecidableEq, Repr

/-- A place of a partition (Table 15-15). -/
structure APlace where
  op      : Option AOp
  verdict : Nat
  valid   : Bool
  bandsE  : Nat
  opno    : Nat
deriving DecidableEq, Repr

/-- A resident program (R462). -/
structure Prog where
  pid     : Nat
  handle  : Nat
  obj     : List Byte
  digest  : List Byte
deriving DecidableEq, Repr

/-- What the Assay holds for one partition (R440 to R442, R445, R469). -/
structure APart where
  quota   : Nat
  slots   : Nat
  opno    : Nat
  lastOp  : Nat
  result  : Nat
  ringOn  : Bool
  ringBusy : Bool
  base    : Nat
  size    : Nat
  tally   : Nat
  region  : Nat
  prod    : Word
  writing : Bool
  lost    : Nat
  lseq    : Nat
  chain   : List Byte
  backlog : List (List Byte)
  counts  : SMap Nat
  accepted : Nat
  blocks  : Nat
  lostB   : Nat
  faults  : Nat
  disagree : Nat
  loadBuf : List Byte
  prgRes  : Nat
  prgHandle : Nat
  badIndex : Nat
  info    : Nat
  infoDig : List Byte
deriving DecidableEq, Repr

/-- A tap port (R410, R411): the checker it mirrors, its PSEQ reference, the times of its faults. -/
structure Tap where
  checker : Option Nat
  disabled : Bool
  pseq    : Option Nat
  faults  : List Nat
deriving DecidableEq, Repr

/-- The Assay. Places are keyed 4 * PID + place. -/
structure Asy where
  places  : SMap APlace
  parts   : SMap APart
  taps    : SMap Tap
  progs   : List Prog
  /-- the slot frame in force: the PID of each of the 16 slots, 0 for the pool (R541) -/
  frame   : List Nat
  tapFaults : Word
  disagree : Word
deriving DecidableEq, Repr

def Asy.reset : Asy :=
  { places := [], parts := [], taps := [], progs := [], frame := List.replicate 16 0, tapFaults := 0, disagree := 0 }


/-! ## The whole block -/

/-- The state of KX3. `free` counts the free values drawn so far: it is the MODEL's own field, not the spec's. -/
structure State where
  block : BState
  time  : Nat
  free  : Nat
  pins  : Pins
  cores : Cores
  tmp   : Tamper
  pwr   : Pwr
  ledger : Ledger
  cpb   : Cpb
  hip   : Hip
  part  : Part
  epoch : Epoch
  book  : Book
  xlat  : SMap Xlat
  xcnt  : XCounts
  irq   : Irq
  qn    : QnState
  qos   : Qos
  tl    : Tallies
  mbox  : Mbox
  fuse  : Fuse
  boot  : Boot
  sbox  : Sbox
  anvil : Anvil
  hash  : Hash
  aes   : Aes
  rng   : Rng
  cvu   : SMap Cvu
  hmk   : Hmk
  att   : Att
  asy   : Asy
  /-- main SRAM, 4 MiB: an unlisted byte reads 0 -/
  sram  : List Host.Cell
  hdrs  : SMap Hdr
  /-- the plain registers (RW fields with no effect of their own), keyed by view and offset -/
  regs  : SMap Word
  /-- the read latch and the write staging register of each 64-bit pair (R89, R90) -/
  latch : SMap DWord
  wstage : SMap Word
  rsp   : Option Response
  pending : List Instr
deriving DecidableEq, Repr

/-! ## Reset values -/

def Pins.reset : Pins :=
  { hubRstN := 0, pdStatus := 0, pwrReq := false, pwrDom := 0, pwrState := 0, siteHoldN := 0, siteReady := 0,
    sitePresent := 0x0FFF, integStrap := 0, tmpIn := 0, shutterN := false, halt := 0, lcs := 0x3F, dbgEn := false,
    testEn := false, critValid := false, hubTrim := 0, xspiResetN := false,
    wiring := (List.range 48).map (fun i => (0x084 + i, i / 4)) }

def Cores.reset : Cores :=
  { released := 0, failed := 0, work := 0, standbyLost := false, beat := [], arrays := 0xFFFF, safeCause := 0 }

def Tamper.reset : Tamper :=
  { alarm := false, pend := false, sleepTamper := false, shutter := false, count := 0, raw := 0, first := none,
    alarms := 0, trefBad := false, trefDev := 0, escCount := 0, escMax := 0, l2 := [], signFault := none,
    disagree := [], band := 0, slowest := 0, tj := 0 }

def Pwr.reset : Pwr :=
  { phase := 0, grace := 0, retain := 0, graceDone := false, started := 0, lastFast := false, lastCold := false,
    reason := 0, domReq := [], wakes := 0, fastWakes := 0, wakeLatch := false, noDigest := false, result := 0,
    busy := false, queue := [], asked := false, doms := [], waking := false, staged := 0 }

def Ledger.reset : Ledger :=
  { slots := [], nextSlot := 0, nextSeq := 0, mode := .ring, frozenSlot := 0, frozenSeq := 0, discarded := 0,
    floors := [] }

def Cpb.reset : Cpb := { agents := [], flights := [], waiting := [], retryCnt := 0, ports := [] }

def Hip.reset : Hip := { out := [], waiting := [], turn := [] }

def Bank.empty : Bank := { pw := [], rw := [], src := [] }

def Part.reset : Part :=
  { active := Bank.empty, staged := Bank.empty, pshared := [], rshared := [], partRes := 0, partWait := 0, start := 0, left := [],
    holds := [], versions := [], bookTag := none, jobs := [], composed := false, tierMap := [], domains := [], scrub := none,
    failed := [], scrubFor := [], shadow := [], live := [], tabled := [],
    listed := [], rewrote := 0, withheld := [] }

def Epoch.reset : Epoch :=
  { curValid := false, curEp := false, curVersion := 0, phase := .idle, running := false, result := 0,
    rolledBack := false, prepFailed := false, hmkWait := false, window := false, failOp := 0, failReason := 0,
    firstFail := 0, runAll := false, list := [], agents := [], acked := [], committed := [], kindStep := 0,
    rbPhase := 0, ended := false, resent := 0, addressed := 0, time := 0, started := 0 }

def Book.reset : Book :=
  { phase := .idle, result := 0, cmdres := 0, version := 0, buf := [], readback := [], rbReady := false,
    cand := Bank.empty, scrubTally := 0xFFFF, digest := [], needed := [], given := [], notices := [], startTime := 0,
    removing := [], fencedR := [], heldSites := [], heldDoms := [], drained := false, seen := [], genWait := [] }

def Irq.reset : Irq :=
  { iscs := [], postAddr := 0, pend := [], dropped := [], droppedAll := 0, stage := [], running := [], result := [],
    coreInt := 0 }

def QnState.reset : QnState := { active := [], doneCnt := 0, genHold := 0, result := 0 }

def Qos.reset : Qos :=
  { buckets := [], operRate := 20000, overrun := 0, scale := 65536, capacity := 400000, held := [] }

def Tallies.reset : Tallies :=
  { value := [], acl := [], entry := [], opSeq := [], seq := 0, db := [], ports := [], fired := 0, noteLost := 0 }

def Mbox.reset : Mbox := { chans := [], ports := [] }

def Sensed.reset : Sensed :=
  { lcs := 6, kx2 := false, noTestUnlock := false, podKeyed := false, noHostpush := false, noPeer := false,
    noRecovery := false, noDebugUnlock := false, sealedOnly := false, sensorTrim := 0, counters := [], rows := [],
    blank := [], bad := [], revoked := 0, unlockActive := false, mismatch := 0, highSens := false, integFail := false,
    corrected := 0, failArea := 0, redirInvalid := false, redirEntry := 0, redirUsed := 0 }

def Fuse.reset : Fuse :=
  { cells := [], marginal := [], result := 0, busy := false, check := 0, group := 0, row := 0, data := 0, window := 0,
    op := none, stage := none, unlockLatch := false, interrupted := 0, sensed := Sensed.reset }

def Boot.reset : Boot :=
  { pos := .off, step := 0, site := 0xFF, reason := 0, hostWait := false, fast := false, deferred := false, src := 0xF,
    keyset := 0xFF, tried := 0, attempts := 0, wdog := false, wakeStart := false, wakeMatch := false, armed := false,
    sleepDigest := [], wakeDigest := [], bootNo := 0, jnext := 1, journal := [], journalOk := false, cache := [],
    image := none, wakeRec := none, protect := false, flash := none, flashOk := false, push := [],
    stageBase := 0, stageSize := 0, siteEnts := [], dirAgents := [], sites := [], loads := [], loading := false, loadNo := 0,
    stopped := none, stoppedBefore := none, afterPor := true, coreBist := 0, startRec := false }

def Sbox.reset : Sbox :=
  { slots := [], root := 0, rootValid := false, rootSubst := false, podRoot := 0, podRootValid := false, svn := 0,
    meas := 0, lockRoot := false, lockFixed := false, shutterFired := false, seq := 0, ports := [], bootCnt := [] }

def Anvil.reset : Anvil :=
  { mem := [], words := 6, latRes := false, queue := [], run := none, susp := none, seq := 0, yields := 0,
    maxStretch := 0 }

def Hash.reset : Hash := { lanes := [], err := 0 }

def Aes.reset : Aes := { queue := [], run := none, seq := 0 }

def Rng.reset : Rng :=
  { es := 1, intermittent := 0, failTimes := [], startFails := 0, genCount := 0, reseeds := 0, lastSeed := 0,
    dead := false }

def Hmk.reset : Hmk := { places := [], sel := 0, pid := 0, result := 0, issued := 0, staleCnt := 0 }

/-- The block right after reset, while KX_POR_N holds it: TOP_STATE.STATE is RESET (R67, Tables 2-1 to 2-3). -/
def State.reset : State :=
  { block := .reset, time := 0, free := 0, pins := Pins.reset, cores := Cores.reset, tmp := Tamper.reset,
    pwr := Pwr.reset, ledger := Ledger.reset, cpb := Cpb.reset, hip := Hip.reset, part := Part.reset,
    epoch := Epoch.reset, book := Book.reset, xlat := [], xcnt := { sent := 0, timeouts := 0, records := 0 }, irq := Irq.reset, qn := QnState.reset, qos := Qos.reset,
    tl := Tallies.reset, mbox := Mbox.reset, fuse := Fuse.reset, boot := Boot.reset, sbox := Sbox.reset,
    anvil := Anvil.reset, hash := Hash.reset, aes := Aes.reset, rng := Rng.reset, cvu := [], hmk := Hmk.reset,
    att := Att.reset, asy := Asy.reset, sram := [], hdrs := [], regs := [], latch := [], wstage := [], rsp := none,
    pending := [] }

end Sys2Proof.Machine
end

