-- ==== Sys2Proof/Machine/Ops.lean ====
section
/-! DEFINITION. The named operations that every family shares: sparse stores, main SRAM, bit fields, byte order, check
values, the free values, and the small updates of State. -/
namespace Sys2Proof.Machine

/-! ## Sparse stores -/

/-- Reads key `k`; `d` is what an unlisted key reads as. -/
def smGet {α : Type} (d : α) : SMap α → Nat → α
  | [], _ => d
  | (k', v) :: m, k => if k = k' then v else smGet d m k

/-- Puts an entry at key `k`, in its place. -/
def smPut {α : Type} : SMap α → Nat → α → SMap α
  | [], k, v => [(k, v)]
  | (k', v') :: m, k, v =>
    if k < k' then (k, v) :: (k', v') :: m else if k = k' then (k, v) :: m else (k', v') :: smPut m k v
/-- Writes key `k`, keeping the canonical form: writing the unlisted value removes the entry. -/
def smSet {α : Type} [DecidableEq α] (d : α) (m : SMap α) (k : Nat) (v : α) : SMap α :=
  if v = d then m.filter (fun c => decide (c.1 ≠ k)) else smPut m k v

/-- The canonical form: keys strictly rising above `lo`, no entry equal to `d`. -/
def smWfFrom {α : Type} [DecidableEq α] (d : α) : Nat → SMap α → Bool
  | _, [] => true
  | lo, (k, v) :: m => decide (lo ≤ k) && decide (v ≠ d) && smWfFrom d (k + 1) m

/-- The canonical form of a sparse store. -/
def smWf {α : Type} [DecidableEq α] (d : α) (m : SMap α) : Bool := smWfFrom d 0 m

/-- Writes `v` at `n` consecutive keys from `k`. -/
def smFill {α : Type} [DecidableEq α] (d : α) (v : α) : Nat → SMap α → Nat → SMap α
  | 0, m, _ => m
  | n + 1, m, k => smFill d v n (smSet d m k v) (k + 1)

/-- Every entry mapped; entries that become the unlisted value are dropped. -/
def smMap {α : Type} [DecidableEq α] (d : α) (f : α → α) (m : SMap α) : SMap α :=
  (m.map (fun c => (c.1, f c.2))).filter (fun c => decide (c.2 ≠ d))

/-! ## Numbers, fields, bytes -/

/-- Field [hi:lo] of a 32-bit word, as a number. -/
def fld (w : Word) (hi lo : Nat) : Nat := (w.toNat / 2 ^ lo) % 2 ^ (hi + 1 - lo)
/-- Bit `i` of a word. -/
def bitOf (w : Word) (i : Nat) : Bool := w.getLsbD i
/-- Field [hi:lo] of a number. -/
def nfld (n hi lo : Nat) : Nat := (n / 2 ^ lo) % 2 ^ (hi + 1 - lo)
/-- A number in a 32-bit word. -/
def w32 (n : Nat) : Word := BitVec.ofNat 32 n
/-- `w` with field [hi:lo] replaced. -/
def putFld (w : Word) (hi lo v : Nat) : Word :=
  w32 (w.toNat - fld w hi lo * 2 ^ lo + (v % 2 ^ (hi + 1 - lo)) * 2 ^ lo)
/-- 1 for true. -/
def b2n (b : Bool) : Nat := if b then 1 else 0
/-- Adds with saturation at `m`. -/
def satAdd (m a b : Nat) : Nat := Nat.min m (a + b)
/-- A 32-bit count, saturating. -/
def satInc (w : Word) (n : Nat := 1) : Word := w32 (Nat.min 0xFFFFFFFF (w.toNat + n))
/-- Division rounded up. -/
def ceilDiv (a b : Nat) : Nat := if b = 0 then 0 else (a + b - 1) / b

/-- The little-endian value of bytes. -/
def leVal : List Byte → Nat
  | [] => 0
  | b :: bs => b.toNat + 256 * leVal bs
/-- The big-endian value of bytes. -/
def beVal (bs : List Byte) : Nat := leVal bs.reverse
/-- `n` bytes of a number, least significant first. -/
def leBytes : Nat → Nat → List Byte
  | 0, _ => []
  | n + 1, v => BitVec.ofNat 8 v :: leBytes n (v / 256)
/-- `n` bytes of a number, most significant first. -/
def beBytes (n v : Nat) : List Byte := (leBytes n v).reverse
/-- Bytes [off, off + n) of a list, missing bytes 0. -/
def slice (bs : List Byte) (off n : Nat) : List Byte :=
  let part := (bs.drop off).take n
  part ++ List.replicate (n - part.length) 0
/-- The little-endian number in bytes [off, off + n). -/
def le (bs : List Byte) (off n : Nat) : Nat := leVal (slice bs off n)
/-- Byte XOR of two lists, as long as the first. -/
def xorBytes : List Byte → List Byte → List Byte
  | [], _ => []
  | a :: as, [] => a :: as
  | a :: as, b :: bs => (a ^^^ b) :: xorBytes as bs
/-- Words of bytes, four per word, least significant first, the last padded with zeros (R378). -/
def bytesToWords (bs : List Byte) : List Word :=
  (List.range ((bs.length + 3) / 4)).map (fun i => w32 (le bs (4 * i) 4))
/-- Bytes of words, least significant first. -/
def wordsToBytes (ws : List Word) : List Byte := ws.flatMap (fun w => leBytes 4 w.toNat)
/-- Sum of a list. -/
def listSum (l : List Nat) : Nat := l.foldl (· + ·) 0
/-- The elements of a list without repeats, the first kept. -/
def dedup : List Nat → List Nat
  | [] => []
  | x :: xs => if xs.contains x then dedup xs else x :: dedup xs
/-- Whether a list repeats an element. -/
def hasDup : List Nat → Bool
  | [] => false
  | x :: xs => xs.contains x || hasDup xs

/-! ## Check values (R48, R151, R219 to R222) -/

/-- Reflects the low `w` bits of a number. -/
def reflect : Nat → Nat → Nat
  | 0, _ => 0
  | w + 1, v => (v % 2) * 2 ^ w + reflect w (v / 2)

/-- One bit enters the register at its top. -/
def crcBit (w poly r bit : Nat) : Nat :=
  let top := (r / 2 ^ (w - 1) % 2) ^^^ bit
  let s := (2 * r) % 2 ^ w
  if top = 1 then s ^^^ poly else s

/-- `n` bits of `v` enter, the most significant of the `n` first. -/
def crcBits (w poly v : Nat) : Nat → Nat → Nat
  | 0, r => r
  | n + 1, r => crcBits w poly v n (crcBit w poly r (v / 2 ^ n % 2))

/-- One byte enters a CRC register of width 3 to 32 (R220), after reflection when `refin`. -/
def crcByte (w poly : Nat) (refin : Bool) (r : Nat) (b : Byte) : Nat :=
  crcBits w poly (if refin then reflect 8 b.toNat else b.toNat) 8 r

/-- Bytes in order. -/
def crcFeed (w poly : Nat) (refin : Bool) (r : Nat) (bs : List Byte) : Nat :=
  bs.foldl (crcByte w poly refin) r

/-- CRC-32C with the parameters of R48, over bytes in order. -/
def crc32c (bs : List Byte) : Word :=
  w32 (reflect 32 (crcFeed 32 0x1EDC6F41 true 0xFFFFFFFF bs) ^^^ 0xFFFFFFFF)

/-- The 128 bits of a CPB frame without its CRC: AGENT, OP, SEQ, PAYLOAD in bits [127:32] (Table 2-7). -/
def frameHead (agent op seq : Nat) (payload : BitVec 56) : Nat :=
  (agent % 1024) * 2 ^ 86 + (op % 64) * 2 ^ 80 + (seq % 2 ^ 24) * 2 ^ 56 + payload.toNat

/-- The CRC of a CPB frame, folded with the receiver's agent identifier and expected SEQ (R48). -/
def frameCrc (agent seq head : Nat) : Word :=
  crc32c (leBytes 8 (agent * 2 ^ 24 + seq) ++ beBytes 12 head)

/-- The CRC of a Ledger record in slot `slot` (Table 17-12): the fold word, then bytes 0 to 27. -/
def ledgerBytes (r : LRec) : List Byte :=
  leBytes 6 r.time.toNat ++ leBytes 2 r.event.toNat ++ [BitVec.ofNat 8 r.pid, BitVec.ofNat 8 (r.sev * 16 + r.seq / 65536)] ++
  leBytes 2 r.seq ++ leBytes 4 r.p0.toNat ++ leBytes 4 r.p1.toNat ++ leBytes 4 r.p2.toNat ++
  [BitVec.ofNat 8 r.scope, 0, 0, 0]
/-- See `ledgerBytes`. -/
def ledgerCrc (slot : Nat) (r : LRec) : Word := crc32c (leBytes 8 slot ++ ledgerBytes r)

/-! ## Main SRAM (4 MiB; an unlisted byte reads 0) -/

/-- The size of main SRAM in bytes (Table 0-6). -/
def sramSize : Nat := 0x400000
/-- Whether [a, a + n) lies in main SRAM. -/
def sramIn (a n : Nat) : Bool := decide (a + n ≤ sramSize)
/-- One byte. -/
def sramByte (s : State) (a : Nat) : Byte := smGet 0 s.sram a
/-- `n` bytes from `a`. -/
def sramRead (s : State) (a : Nat) : Nat → List Byte
  | 0 => []
  | n + 1 => sramByte s a :: sramRead s (a + 1) n
/-- Bytes stored from `a`. -/
def sramPut (m : List Host.Cell) (a : Nat) : List Byte → List Host.Cell
  | [] => m
  | b :: bs => sramPut (smSet 0 m a b) (a + 1) bs
/-- Bytes stored from `a`. -/
def sramWrite (s : State) (a : Nat) (bs : List Byte) : State := { s with sram := sramPut s.sram a bs }
/-- The little-endian word at `a`. -/
def sramWord (s : State) (a : Nat) : Word := w32 (leVal (sramRead s a 4))

/-! ## Free values (log entry 3) -/

/-- The next free value. -/
def freeNow (s : State) : BitVec 512 := Config.freeBits s.free
/-- The state after one free value has been drawn. -/
def drew (s : State) (n : Nat := 1) : State := { s with free := s.free + n }

/-! ## Answers -/

/-- The answer to an access. -/
def answer (s : State) (r : Rsp) (data : List DWord := []) (id : BitVec 6 := 0) : State :=
  { s with rsp := some { code := r, data := data, id := id } }

end Sys2Proof.Machine
end

