-- ==== Sys2Proof/Machine/Crypto.lean ====
section
/-! DEFINITION. The primitives that the spec cites: SHA-384 (FIPS 180-4), SHA3-384 and KMAC256 (FIPS 202, SP 800-185), AES-256
(FIPS 197) with GCM, CTR, XTS and KW, and P-384 (FIPS 186-5). PRESUMED: their definitions are the cited standards', not the
spec's (log entry 5). -/
namespace Sys2Proof.Machine

/-! ## Integer roots and primes, from which SHA-2 takes its constants -/

/-- The largest r built from the low `n` bits with r^k at most x. -/
def rootBits (k x : Nat) : Nat → Nat → Nat
  | 0, r => r
  | n + 1, r => if (r + 2 ^ n) ^ k ≤ x then rootBits k x n (r + 2 ^ n) else rootBits k x n r
/-- The first 64 bits of the fractional part of the k-th root of p. -/
def rootFrac (k p : Nat) : Nat := rootBits k (p * 2 ^ (64 * k)) 72 0 % 2 ^ 64
/-- No divisor of n from 2 up to d. -/
def noDivisor (n : Nat) : Nat → Bool
  | 0 => true
  | 1 => true
  | d + 2 => decide (n % (d + 2) ≠ 0) && noDivisor n (d + 1)
/-- The first 80 primes. -/
def primes80 : List Nat := ((List.range 410).filter (fun n => decide (2 ≤ n) && noDivisor n (n - 1))).take 80

/-! ## SHA-384 -/

def rotr64 (x n : Nat) : Nat := (x / 2 ^ n) ||| ((x * 2 ^ (64 - n)) % 2 ^ 64)
def not64 (x : Nat) : Nat := 2 ^ 64 - 1 - x
/-- One round on the eight working variables. -/
def shaRound (v : List Nat) (kw : Nat) : List Nat :=
  let g := fun i => v.getD i 0
  let e := g 4
  let a := g 0
  let t1 := g 7 + (rotr64 e 14 ^^^ rotr64 e 18 ^^^ rotr64 e 41) + ((e &&& g 5) ^^^ (not64 e &&& g 6)) + kw
  let t2 := (rotr64 a 28 ^^^ rotr64 a 34 ^^^ rotr64 a 39) + ((a &&& g 1) ^^^ (a &&& g 2) ^^^ (g 1 &&& g 2))
  [(t1 + t2) % 2 ^ 64, a, g 1, g 2, (g 3 + t1) % 2 ^ 64, e, g 5, g 6]
/-- The message schedule, the last sixteen words newest first. -/
def shaSched : Nat → List Nat → List Nat
  | 0, ws => ws
  | n + 1, ws =>
    let g := fun i => ws.getD i 0
    let s0 := rotr64 (g 14) 1 ^^^ rotr64 (g 14) 8 ^^^ (g 14 / 128)
    let s1 := rotr64 (g 1) 19 ^^^ rotr64 (g 1) 61 ^^^ (g 1 / 64)
    shaSched n ((s1 + g 6 + s0 + g 15) % 2 ^ 64 :: ws)
/-- One 128-byte block. -/
def shaBlock (ks h : List Nat) (b : List Byte) : List Nat :=
  let w0 := (List.range 16).map (fun i => beVal (slice b (8 * i) 8))
  let w := (shaSched 64 w0.reverse).reverse
  let v := (ks.zip w).foldl (fun v c => shaRound v ((c.1 + c.2) % 2 ^ 64)) h
  (h.zip v).map (fun c => (c.1 + c.2) % 2 ^ 64)
/-- Blocks in order. -/
def shaBlocks (ks : List Nat) : Nat → List Nat → List Byte → List Nat
  | 0, h, _ => h
  | n + 1, h, bs => shaBlocks ks n (shaBlock ks h (bs.take 128)) (bs.drop 128)
/-- SHA-384 of a byte string. -/
def sha384 (m : List Byte) : List Byte :=
  let padLen := (239 - m.length % 128) % 128
  let bs := m ++ [0x80] ++ List.replicate padLen 0 ++ beBytes 16 (8 * m.length)
  let ks := primes80.map (rootFrac 3)
  let h0 := ((primes80.drop 8).take 8).map (rootFrac 2)
  ((shaBlocks ks (bs.length / 128) h0 bs).take 6).flatMap (fun w => beBytes 8 w)

/-! ## Keccak -/

/-- The bit that the round-constant LFSR of FIPS 202 gives after `n` steps. -/
def keccakLfsr : Nat → Nat → Nat
  | 0, r => r
  | n + 1, r => keccakLfsr n (if r / 128 % 2 = 1 then ((2 * r) % 256) ^^^ 0x71 else 2 * r)
/-- The round constant of round `i`. -/
def keccakRc (i : Nat) : Nat :=
  (List.range 7).foldl (fun acc j => if keccakLfsr (7 * i + j) 1 % 2 = 1 then acc + 2 ^ (2 ^ j - 1) else acc) 0
def rotl64 (x n : Nat) : Nat := if n % 64 = 0 then x else rotr64 x (64 - n % 64)
/-- rho and pi: lane (x, y) for step t of the walk of FIPS 202, 3.2.2. -/
def keccakWalk : Nat → Nat → Nat → Nat → List Nat → List Nat → List Nat
  | 0, _, _, _, _, b => b
  | n + 1, t, x, y, a, b =>
    let b1 := b.set (y + 5 * ((2 * x + 3 * y) % 5)) (rotl64 (a.getD (x + 5 * y) 0) ((t + 1) * (t + 2) / 2))
    keccakWalk n (t + 1) y ((2 * x + 3 * y) % 5) a b1
/-- One round of Keccak-f[1600] on 25 lanes, lane (x, y) at x + 5 y. -/
def keccakRound (a : List Nat) (i : Nat) : List Nat :=
  let g := fun k => a.getD k 0
  let c := (List.range 5).map (fun x => g x ^^^ g (x + 5) ^^^ g (x + 10) ^^^ g (x + 15) ^^^ g (x + 20))
  let d := (List.range 5).map (fun x => c.getD ((x + 4) % 5) 0 ^^^ rotl64 (c.getD ((x + 1) % 5) 0) 1)
  let t := (List.range 25).map (fun k => g k ^^^ d.getD (k % 5) 0)
  let b := keccakWalk 24 0 1 0 t (t.set 0 (t.getD 0 0))
  (List.range 25).map (fun k =>
    let x := k % 5
    let y := k / 5
    let v := b.getD k 0 ^^^ (not64 (b.getD ((x + 1) % 5 + 5 * y) 0) &&& b.getD ((x + 2) % 5 + 5 * y) 0)
    if k = 0 then v ^^^ keccakRc i else v)
def keccakF (a : List Nat) : List Nat := (List.range 24).foldl keccakRound a
/-- Absorbs `n` blocks of `rate` bytes. -/
def keccakAbsorb (rate : Nat) : Nat → List Nat → List Byte → List Nat
  | 0, a, _ => a
  | n + 1, a, bs =>
    let blk := slice bs 0 rate
    let a1 := (List.range 25).map (fun k => if 8 * k < rate then a.getD k 0 ^^^ le blk (8 * k) 8 else a.getD k 0)
    keccakAbsorb rate n (keccakF a1) (bs.drop rate)
/-- The sponge with one output block: `suffix` holds the domain bits and the first padding bit. -/
def keccakHash (rate : Nat) (suffix : Byte) (m : List Byte) (outLen : Nat) : List Byte :=
  let q := rate - m.length % rate
  let pad := if q = 1 then [suffix ||| 0x80] else suffix :: List.replicate (q - 2) 0 ++ [0x80]
  let bs := m ++ pad
  ((keccakAbsorb rate (bs.length / rate) (List.replicate 25 0) bs).flatMap (fun w => leBytes 8 w)).take outLen
/-- SHA3-384. -/
def sha3_384 (m : List Byte) : List Byte := keccakHash 104 0x06 m 48
/-- The bytes that a number needs, at least one. -/
def byteCount : Nat → Nat → Nat
  | 0, _ => 1
  | n + 1, v => if v < 256 then 1 else 1 + byteCount n (v / 256)
def leftEncode (v : Nat) : List Byte := BitVec.ofNat 8 (byteCount 16 v) :: beBytes (byteCount 16 v) v
def rightEncode (v : Nat) : List Byte := beBytes (byteCount 16 v) v ++ [BitVec.ofNat 8 (byteCount 16 v)]
def encodeString (m : List Byte) : List Byte := leftEncode (8 * m.length) ++ m
def bytepad (w : Nat) (m : List Byte) : List Byte :=
  let x := leftEncode w ++ m
  x ++ List.replicate ((w - x.length % w) % w) 0
/-- KMAC256 with an output of `l` bits, at most one block. -/
def kmac256 (key m : List Byte) (l : Nat) (cust : List Byte) : List Byte :=
  let name : List Byte := [0x4B, 0x4D, 0x41, 0x43]
  keccakHash 136 0x04 (bytepad 136 (encodeString name ++ encodeString cust) ++ bytepad 136 (encodeString key) ++ m ++
    rightEncode l) (l / 8)

/-! ## AES-256 -/

/-- Multiplication in GF(2^8) with the AES polynomial. -/
def gmul : Nat → Nat → Nat → Nat
  | 0, _, _ => 0
  | n + 1, a, b =>
    let r := gmul n (if a / 128 % 2 = 1 then ((2 * a) % 256) ^^^ 0x1B else 2 * a) (b / 2)
    if b % 2 = 1 then r ^^^ a else r
def gm (a b : Nat) : Nat := gmul 8 a b
/-- a^254, the inverse with 0 for 0. -/
def ginv (a : Nat) : Nat :=
  let a2 := gm a a
  let a4 := gm a2 a2
  let a8 := gm a4 a4
  let a16 := gm a8 a8
  let a32 := gm a16 a16
  let a64 := gm a32 a32
  gm (gm (gm a2 a4) (gm a8 a16)) (gm (gm a32 a64) (gm a64 a64))
def rotl8 (x n : Nat) : Nat := ((x * 2 ^ n) % 256) ||| (x / 2 ^ (8 - n))
def sboxCalc (a : Nat) : Nat :=
  let b := ginv a
  b ^^^ rotl8 b 1 ^^^ rotl8 b 2 ^^^ rotl8 b 3 ^^^ rotl8 b 4 ^^^ 0x63
/-- The values of `sboxCalc` at 0 to 255, as bytes from the lowest on, and those of its inverse. -/
def sboxTable : Nat :=
  ((0x16BB54B00F2D99416842E6BF0D89A18CDF2855CEE9871E9B948ED9691198F8E19E1DC186B95735610EF6034866B53E708A8BBD4B1F74DDE8C6B4A61C2E2578BA * 2 ^ 512 +
    0x08AE7A65EAF4566CA94ED58D6D37C8E779E4959162ACD3C25C2406490A3A32E0DB0B5EDE14B8EE4688902A22DC4F816073195D643D7EA7C41744975FEC130CCD) * 2 ^ 512 +
    0xD2F3FF1021DAB6BCF5389D928F40A351A89F3C507F02F94585334D43FBAAEFD0CF584C4A39BECB6A5BB1FC20ED00D153842FE329B3D63B52A05A6E1B1A2C8309) * 2 ^ 512 +
    0x75B227EBE28012079A059618C323C7041531D871F1E5A534CCF73F362693FDB7C072A49CAFA2D4ADF04759FA7DC982CA76ABD7FE2B670130C56F6BF27B777C63
def invTable : Nat :=
  ((0x7D0C2155631469E126D677BA7E042B17619953833CBBEBC8B0F52AAE4D3BE0A0EF9CC9939F7AE52D0D4AB519A97F51605FEC8027591012B131C7078833A8DD1F * 2 ^ 512 +
    0xF45ACD78FEC0DB9A2079D2C64B3E56FC1BBE18AA0E62B76F89C5291D711AF1476EDF751CE837F9E28535ADE72274AC9673E6B4F0CECFF297EADC674F4111913A) * 2 ^ 512 +
    0x6B8A130103BDAFC1020F3FCA8F1E2CD00645B3B80558E4F70AD3BC8C00ABD890849D8DA75746155EDAB9EDFD5048706C92B6655DCC5CA4D41698688664F6F872) * 2 ^ 512 +
    0x25D18B6D49A25B76B224D92866A12E084EC3FA420B954CEE3D23C2A632947B54CBE9DEC444438E3487FF2F9B8239E37CFBD7F3819EA340BF38A53630D56A0952
def sub (t a : Nat) : Nat := t / 2 ^ (8 * a) % 256
/-- The round keys, newest word first, as lists of four bytes. -/
def aesExpand (t : Nat) : Nat → Nat → Nat → List (List Nat) → List (List Nat)
  | 0, _, _, ws => ws
  | n + 1, i, rc, ws =>
    let w := ws.getD 0 []
    let old := ws.getD 7 []
    let x := if i % 8 = 0 then
        let r := (w.drop 1 ++ w.take 1).map (sub t)
        (r.getD 0 0 ^^^ rc) :: r.drop 1
      else if i % 8 = 4 then w.map (sub t) else w
    let new := (List.range 4).map (fun k => old.getD k 0 ^^^ x.getD k 0)
    aesExpand t n (i + 1) (if i % 8 = 0 then gm rc 2 else rc) (new :: ws)
/-- 15 round keys of 16 bytes from a 32-byte key. -/
def aesKeys (key : List Byte) : List (List Nat) :=
  let w0 := ((List.range 8).map (fun i => (slice key (4 * i) 4).map (fun b => b.toNat))).reverse
  let ws := (aesExpand sboxTable 52 8 1 w0).reverse
  (List.range 15).map (fun r => ((ws.drop (4 * r)).take 4).flatten)
def addKey (s k : List Nat) : List Nat := (List.range 16).map (fun i => s.getD i 0 ^^^ k.getD i 0)
def mixCol (c : Nat → Nat) (m : List Nat) (i : Nat) : Nat :=
  let times (j k : Nat) : Nat := gmul 4 (c j) (m.getD (k % 4) 0)
  times 0 (4 - i) ^^^ times 1 (5 - i) ^^^ times 2 (6 - i) ^^^ times 3 (7 - i)
def mixColumns (m s : List Nat) : List Nat :=
  (List.range 16).map (fun k => mixCol (fun j => s.getD (4 * (k / 4) + j) 0) m (k % 4))
def shiftRows (s : List Nat) : List Nat := (List.range 16).map (fun k => s.getD ((k + 4 * (k % 4)) % 16) 0)
def unshiftRows (s : List Nat) : List Nat := (List.range 16).map (fun k => s.getD ((k + 16 - 4 * (k % 4)) % 16) 0)
def aesRounds : List (List Nat) → List Nat → List Nat
  | [], s => s
  | [k], s => addKey (shiftRows (s.map (sub sboxTable))) k
  | k :: ks, s => aesRounds ks (addKey (mixColumns [2, 3, 1, 1] (shiftRows (s.map (sub sboxTable)))) k)
def aesInvRounds : List (List Nat) → List Nat → List Nat
  | [], s => s
  | [k], s => addKey (unshiftRows s |>.map (sub invTable)) k
  | k :: ks, s => aesInvRounds ks (mixColumns [14, 11, 13, 9] (addKey ((unshiftRows s).map (sub invTable)) k))
def toNats (bs : List Byte) : List Nat := (slice bs 0 16).map (fun b => b.toNat)
def toBytes (ns : List Nat) : List Byte := ns.map (BitVec.ofNat 8)
/-- One block under expanded keys. -/
def aesEnc (ks : List (List Nat)) (b : List Byte) : List Byte :=
  toBytes (aesRounds (ks.drop 1) (addKey (toNats b) (ks.getD 0 [])))
def aesDec (ks : List (List Nat)) (b : List Byte) : List Byte :=
  toBytes (aesInvRounds (ks.reverse.drop 1) (addKey (toNats b) (ks.getD 14 [])))

/-! ## Modes -/

/-- Adds 1 to the low 32 bits of a counter block. -/
def inc32 (b : List Byte) : List Byte := b.take 12 ++ beBytes 4 ((beVal (slice b 12 4) + 1) % 2 ^ 32)
/-- Adds 1 to a whole counter block. -/
def inc128 (b : List Byte) : List Byte := beBytes 16 ((beVal b + 1) % 2 ^ 128)
/-- `n` blocks of a counter stream over data. -/
def ctrGo (ks : List (List Nat)) (inc : List Byte → List Byte) : Nat → List Byte → List Byte → List Byte
  | 0, _, _ => []
  | n + 1, c, d => xorBytes (d.take 16) (aesEnc ks c) ++ ctrGo ks inc n (inc c) (d.drop 16)
def ctrMode (ks : List (List Nat)) (inc : List Byte → List Byte) (c d : List Byte) : List Byte :=
  ctrGo ks inc ((d.length + 15) / 16) c d
/-- Multiplication in GF(2^128) of GCM; bit 127 of a Nat is the first bit of the block. -/
def ghashMul : Nat → Nat → Nat → Nat → Nat
  | 0, _, _, z => z
  | n + 1, x, v, z =>
    ghashMul n x (if v % 2 = 1 then (v / 2) ^^^ (0xE1 * 2 ^ 120) else v / 2) (if x / 2 ^ n % 2 = 1 then z ^^^ v else z)
def ghashGo (h : Nat) : Nat → Nat → List Byte → Nat
  | 0, y, _ => y
  | n + 1, y, bs => ghashGo h n (ghashMul 128 (y ^^^ beVal (slice bs 0 16)) h 0) (bs.drop 16)
def pad16 (bs : List Byte) : List Byte := bs ++ List.replicate ((16 - bs.length % 16) % 16) 0
/-- The GCM tag over AAD and ciphertext. -/
def gcmTag (ks : List (List Nat)) (iv aad c : List Byte) : List Byte :=
  let h := beVal (aesEnc ks (List.replicate 16 0))
  let x := pad16 aad ++ pad16 c ++ beBytes 8 (8 * aad.length) ++ beBytes 8 (8 * c.length)
  xorBytes (aesEnc ks (slice iv 0 12 ++ [0, 0, 0, 1])) (beBytes 16 (ghashGo h (x.length / 16) 0 x))
/-- GCM's data path, the same in both directions. -/
def gcmCrypt (ks : List (List Nat)) (iv d : List Byte) : List Byte := ctrMode ks inc32 (slice iv 0 12 ++ [0, 0, 0, 2]) d
/-- The XTS tweak times x. -/
def xtsNext (t : Nat) : Nat := if t / 2 ^ 127 % 2 = 1 then ((2 * t) % 2 ^ 128) ^^^ 0x87 else 2 * t
def xtsBlock (ks : List (List Nat)) (enc : Bool) (t : Nat) (b : List Byte) : List Byte :=
  let tb := leBytes 16 t
  xorBytes (if enc then aesEnc ks (xorBytes b tb) else aesDec ks (xorBytes b tb)) tb
/-- XTS over data of at least 16 bytes, with ciphertext stealing for a last partial block. -/
def xtsGo (ks : List (List Nat)) (enc : Bool) : Nat → Nat → List Byte → List Byte
  | 0, _, _ => []
  | n + 1, t, d =>
    if d.length < 16 then []
    else if d.length = 16 ∨ 32 ≤ d.length then xtsBlock ks enc t (d.take 16) ++ xtsGo ks enc n (xtsNext t) (d.drop 16)
    else
      let tail := d.drop 16
      let (t1, t2) := if enc then (t, xtsNext t) else (xtsNext t, t)
      let cc := xtsBlock ks enc t1 (d.take 16)
      xtsBlock ks enc t2 (tail ++ cc.drop tail.length) ++ cc.take tail.length
/-- XTS with key halves `k1`, `k2` and the 128-bit tweak. -/
def xtsMode (k1 k2 : List Byte) (enc : Bool) (tweak d : List Byte) : List Byte :=
  xtsGo (aesKeys k1) enc (d.length / 16 + 1) (leVal (aesEnc (aesKeys k2) tweak)) d
/-- One pass of SP 800-38F KW over the semiblocks. -/
def kwPass (ks : List (List Nat)) : Nat → Nat → List Byte → List (List Byte) → List Byte × List (List Byte)
  | 0, _, a, r => (a, r)
  | n + 1, t, a, r =>
    let b := aesEnc ks (a ++ r.getD 0 [])
    kwPass ks n (t + 1) (beBytes 8 (beVal (b.take 8) ^^^ t)) (r.drop 1 ++ [b.drop 8])
def semis (d : List Byte) : List (List Byte) := (List.range (d.length / 8)).map (fun i => slice d (8 * i) 8)
/-- KW wrap of at least two semiblocks. -/
def kwWrap (key d : List Byte) : List Byte :=
  let (a, r) := kwPass (aesKeys key) (6 * (d.length / 8)) 1 (List.replicate 8 0xA6) (semis d)
  a ++ r.flatten
def kwUnpass (ks : List (List Nat)) : Nat → List Byte → List (List Byte) → List Byte × List (List Byte)
  | 0, a, r => (a, r)
  | n + 1, a, r =>
    let b := aesDec ks (beBytes 8 (beVal a ^^^ (n + 1)) ++ r.getLast?.getD [])
    kwUnpass ks n (b.take 8) (b.drop 8 :: r.dropLast)
/-- KW unwrap: the plaintext, or none when the integrity value is wrong. -/
def kwUnwrap (key c : List Byte) : Option (List Byte) :=
  let (a, r) := kwUnpass (aesKeys key) (6 * (c.length / 8 - 1)) (c.take 8) (semis (c.drop 8))
  if 24 ≤ c.length ∧ c.length % 8 = 0 ∧ a = List.replicate 8 0xA6 then some r.flatten else none

/-! ## P-384 -/

def p384p : Nat := 2 ^ 384 - 2 ^ 128 - 2 ^ 96 + 2 ^ 32 - 1
def p384n : Nat := 0xFFFFFFFFFFFFFFFFFFFFFFFFFFFFFFFFFFFFFFFFFFFFFFFFC7634D81F4372DDF581A0DB248B0A77AECEC196ACCC52973
def p384b : Nat := 0xB3312FA7E23EE7E4988E056BE3F82D19181D9C6EFE8141120314088F5013875AC656398D8A2ED19D2A85C8EDD3EC2AEF
def p384gx : Nat := 0xAA87CA22BE8B05378EB1C71EF320AD746E1D3B628BA79B9859F741E082542A385502F25DBF55296C3A545E3872760AB7
def p384gy : Nat := 0x3617DE4A96262C6F5D9E98BF9292DC29F8F41DBD289A147CE9DA3113B5F0B8C00A60B1CE1D7E819D7A431D7C90EA0E5F
/-- b^e mod m over `n` bits of e. -/
def powModGo (m : Nat) : Nat → Nat → Nat → Nat → Nat
  | 0, _, _, acc => acc
  | n + 1, b, e, acc => powModGo m n (b * b % m) (e / 2) (if e % 2 = 1 then acc * b % m else acc)
def powMod (b e m bits : Nat) : Nat := powModGo m bits (b % m) e (1 % m)
/-- Jacobian point doubling and addition; z = 0 is the point at infinity. -/
def ecDouble (q : Nat × Nat × Nat) : Nat × Nat × Nat :=
  let (x, y, z) := q
  if z = 0 ∨ y = 0 then (1, 1, 0)
  else
    let p := p384p
    let z2 := z * z % p
    let a := 3 * ((x + p - z2) * (x + z2) % p) % p
    let y2 := y * y % p
    let b := 4 * (x * y2) % p
    let x3 := (a * a + 2 * (p - b)) % p
    (x3, (a * (b + p - x3) + 8 * (p - y2 * y2 % p)) % p, 2 * y * z % p)
def ecAdd (q r : Nat × Nat × Nat) : Nat × Nat × Nat :=
  let (x1, y1, z1) := q
  let (x2, y2, z2) := r
  if z1 = 0 then r else if z2 = 0 then q
  else
    let p := p384p
    let a := z1 * z1 % p
    let b := z2 * z2 % p
    let u1 := x1 * b % p
    let u2 := x2 * a % p
    let s1 := y1 * (z2 * b % p) % p
    let s2 := y2 * (z1 * a % p) % p
    if u1 = u2 then (if s1 = s2 then ecDouble q else (1, 1, 0))
    else
      let h := (u2 + p - u1) % p
      let w := (s2 + p - s1) % p
      let h2 := h * h % p
      let h3 := h * h2 % p
      let v := u1 * h2 % p
      let x3 := (w * w + (p - h3) + 2 * (p - v)) % p
      (x3, (w * (v + p - x3) + (p - s1 * h3 % p)) % p, h * (z1 * z2 % p) % p)
def ecMulGo : Nat → Nat → Nat × Nat × Nat → Nat × Nat × Nat → Nat × Nat × Nat
  | 0, _, _, acc => acc
  | n + 1, k, q, acc => ecMulGo n k q (let d := ecDouble acc; if k / 2 ^ n % 2 = 1 then ecAdd d q else d)
/-- k times a point, in affine coordinates; none for the point at infinity. -/
def ecAffine (q : Nat × Nat × Nat) : Option (Nat × Nat) :=
  let (x, y, z) := q
  if z = 0 then none
  else
    let zi := powMod z (p384p - 2) p384p 384
    let z2 := zi * zi % p384p
    some (x * z2 % p384p, y * (z2 * zi % p384p) % p384p)
def ecMul (k : Nat) (q : Nat × Nat) : Option (Nat × Nat) := ecAffine (ecMulGo 400 k (q.1, q.2, 1) (1, 1, 0))
def ecBase (k : Nat) : Option (Nat × Nat) := ecMul k (p384gx, p384gy)
/-- Whether coordinates are below p and satisfy the curve equation. -/
def ecOn (q : Nat × Nat) : Bool :=
  decide (q.1 < p384p ∧ q.2 < p384p ∧ q.2 * q.2 % p384p = (q.1 * q.1 * q.1 + (p384p - 3) * q.1 + p384b) % p384p)
/-- The coordinates in an uncompressed SEC1 point of 97 bytes. -/
def ecPoint (bs : List Byte) : Option (Nat × Nat) :=
  if bs.length = 97 ∧ bs.getD 0 0 = 4 then some (beVal (slice bs 1 48), beVal (slice bs 49 48)) else none
def ecBytes (q : Option (Nat × Nat)) : List Byte :=
  match q with
  | some (x, y) => 4 :: (beBytes 48 x ++ beBytes 48 y)
  | none => List.replicate 97 0
/-- ECDSA verification of (r, s) over a 384-bit digest. -/
def ecdsaOk (q : Nat × Nat) (e r s : Nat) : Bool :=
  let n := p384n
  if ecOn q && decide (0 < r ∧ r < n ∧ 0 < s ∧ s < n) then
    let w := powMod s (n - 2) n 384
    let a := ecMulGo 400 (e * w % n) (p384gx, p384gy, 1) (1, 1, 0)
    let b := ecMulGo 400 (r * w % n) (q.1, q.2, 1) (1, 1, 0)
    match ecAffine (ecAdd a b) with
    | some (x, _) => x % n = r
    | none => false
  else false
/-- An ECDSA signature with the nonce `k`. -/
def ecdsaSign (d e k : Nat) : Nat × Nat :=
  match ecBase k with
  | some (x, _) =>
    let r := x % p384n
    (r, powMod k (p384n - 2) p384n 384 * ((e + r * d) % p384n) % p384n)
  | none => (0, 0)
/-- A nonce from free value `b`. -/
def nonceAt (b : Nat) : Nat := (Config.freeBits b).toNat % (p384n - 1) + 1
/-- Signing draws a new nonce while r or s is 0 (FIPS 186-5): the signature, and how many free values from `b` on were drawn. -/
def ecdsaDraw (d e b : Nat) : Nat → (Nat × Nat) × Nat
  | 0 => (ecdsaSign d e (nonceAt b), 1)
  | n + 1 =>
    let g := ecdsaSign d e (nonceAt b)
    if g.1 = 0 ∨ g.2 = 0 then
      let x := ecdsaDraw d e (b + 1) n
      (x.1, x.2 + 1)
    else (g, 1)
/-- The private scalar of a slot: its first 448 bits reduced by FIPS 186-5, A.2.1 (R166). -/
def ecScalar (key : BitVec 512) : Nat := beVal (slice (leBytes 64 key.toNat) 0 56) % (p384n - 1) + 1

/-! ## The KDF of the Strongbox (R170) -/

/-- An ASCII string as bytes. -/
def ascii (s : String) : List Byte := s.toList.map (fun c => BitVec.ofNat 8 c.toNat)
/-- SP 800-108 in counter mode with KMAC256, one iteration. -/
def kdf (key : List Byte) (label : String) (ctx : List Byte) (l : Nat) : List Byte :=
  kmac256 key ([0, 0, 0, 1] ++ ascii label ++ [0] ++ ctx ++ beBytes 4 l) l (ascii "KX3-KDF")

end Sys2Proof.Machine
end

