-- ==== Sys2Proof/Machine/Operands.lean ====
section
/-! DEFINITION. Operand forms: where an address lies in the aperture (Table 3-1), which registers hold staged operands, the
fields of the partition and region tables, and the checks an access passes before it is performed (R79 to R83). -/
namespace Sys2Proof.Machine

/-! ## The aperture -/

/-- Where an aperture offset lies (Tables 3-1, 3-8): a firmware page, a slot of the firmware Tally window, an operator
page, a partition page, a Tally slot of a partition window, or nothing. -/
inductive Loc where
  | fw (page off : Nat)
  | fwTally (t off : Nat)
  | oper (page off : Nat)
  | win (pid page off : Nat)
  | slot (pid slot off : Nat)
  | hole
deriving DecidableEq, Repr

/-- R73, R74, R257. -/
def locate (a : Nat) : Loc :=
  if a < 0x40000 then .fw (a / 0x1000) (a % 0x1000)
  else if a < 0x80000 then .fwTally ((a - 0x40000) / 16) (a % 16)
  else if a < 0x90000 then .oper ((a - 0x80000) / 0x1000) (a % 0x1000)
  else if a < 0x400000 then .hole
  else if a < 0x800000 then
    let o := a - 0x400000
    let pid := o / 0x10000 + 2
    let w := o % 0x10000
    if w < 0x8000 then .win pid (w / 0x1000) (w % 0x1000) else .slot pid ((w - 0x8000) / 16) (w % 16)
  else .hole

/-- The base of a partition window (R74). -/
def winBase (pid : Nat) : Nat := 0x400000 + (pid - 2) * 0x10000

/-- The number of a page's header in `State.hdrs`. -/
def pageKey : Loc → Option Nat
  | .fw p _ => if p ≤ 0x15 then some p else none
  | .oper p _ => if p ≤ 7 then some (0x40 + p) else none
  | .win pid p _ => if p ≤ 6 then some (0x100 + 16 * pid + p) else none
  | _ => none

/-- Header numbers of the pages that events name. -/
def pgFw (n : Nat) : Nat := n
def pgOp (n : Nat) : Nat := 0x40 + n
def pgWin (pid n : Nat) : Nat := 0x100 + 16 * pid + n

/-- A header at reset: PG_CTRL.OWNER of the PKE, MEAS, SYM and CVU pages is 1 (R511). -/
def hdrReset (page : Nat) : Hdr :=
  { ctrl := if 4 ≤ page ∧ page ≤ 7 then 1 else 0, event := 0, evmask := 0, errinfo := 0, lock := false }
def hdr (s : State) (page : Nat) : Hdr := smGet (hdrReset page) s.hdrs page
def setHdr (s : State) (page : Nat) (h : Hdr) : State := { s with hdrs := smSet (hdrReset page) s.hdrs page h }

/-! ## The plain registers -/

/-- The reset value of a plain register, by its key: the register's address, plus 2^24 times one more than the
initiator's number where each initiator has its own (R174, R538, R539, R542, R543). -/
def regReset (key : Nat) : Word :=
  let a := key % 2 ^ 24
  if a = 0x0F044 then 0x10 else if a = 0x0F05C then 0x2F else if a = 0x0E04C then 0x000C0301
  else match locate a with
    | .win _ 2 0x044 => 0x10
    | .win _ 2 0x05C => 0x2F
    | .win _ 4 0x054 => 0x8000
    | .win _ 4 o => if 0x060 ≤ o ∧ o ≤ 0x078 then 0x10000 else 0
    | _ => 0
def reg (s : State) (key : Nat) : Word := smGet (regReset key) s.regs key
def setReg (s : State) (key : Nat) (v : Word) : State := { s with regs := smSet (regReset key) s.regs key v }
/-- The key of a register that each firmware initiator has for itself. -/
def whoKey (w : Who) (a : Nat) : Nat := (1 + w.num) * 2 ^ 24 + a
/-- A register of partition `pid`'s window. -/
def pReg (s : State) (pid off : Nat) : Word := reg s (winBase pid + off)
/-- A register pair of a window. -/
def pReg64 (s : State) (pid off : Nat) : Nat := (pReg s pid off).toNat + 2 ^ 32 * (pReg s pid (off + 4)).toNat

/-! ## Partitions and regions (Tables 9-1, 9-2) -/

def pshareReset : PShared := { state := .free, gen := 0, genHold := false, liftOper := false, liftPriv := false }
def pshared (s : State) (pid : Nat) : PShared := smGet pshareReset s.part.pshared pid
def setPshared (s : State) (pid : Nat) (v : PShared) : State :=
  { s with part := { s.part with pshared := smSet pshareReset s.part.pshared pid v } }
/-- The state of a tenant partition. -/
def pstate (s : State) (pid : Nat) : PState := (pshared s pid).state
/-- The number of a partition state (Table 9-4). -/
def PState.num : PState → Nat
  | .free => 0 | .configured => 1 | .running => 2 | .quenching => 3 | .quarantined => 4 | .retiring => 5
/-- Whether a PID is a tenant partition (R4). -/
def tenant (pid : Nat) : Bool := decide (2 ≤ pid ∧ pid ≤ 65)
/-- The current generation of a PID: 0 for PIDs 0 and 1 (R253). -/
def genOf (s : State) (pid : Nat) : Nat := if tenant pid then (pshared s pid).gen else 0

/-- Word `w` of a partition entry in a bank. -/
def Bank.pword (b : Bank) (pid w : Nat) : Word := smGet 0 b.pw (16 * pid + w)
/-- Word `w` of a region entry in a bank. -/
def Bank.rword (b : Bank) (i w : Nat) : Word := smGet 0 b.rw (4 * i + w)
/-- The remap entry of a source (Table 11-1). -/
def Bank.srcWord (b : Bank) (n : Nat) : Word := smGet 0 b.src n
def Bank.setP (b : Bank) (pid w : Nat) (v : Word) : Bank := { b with pw := smSet 0 b.pw (16 * pid + w) v }
def Bank.setR (b : Bank) (i w : Nat) (v : Word) : Bank := { b with rw := smSet 0 b.rw (4 * i + w) v }
def Bank.setS (b : Bank) (n : Nat) (v : Word) : Bank := { b with src := smSet 0 b.src n v }

def Bank.pValid (b : Bank) (pid : Nat) : Bool := bitOf (b.pword pid 0) 31
def Bank.pSealed (b : Bank) (pid : Nat) : Bool := bitOf (b.pword pid 0) 30
def Bank.pRsv (b : Bank) (pid : Nat) : Bool := bitOf (b.pword pid 0) 29
def Bank.pRate (b : Bank) (pid : Nat) : Nat := fld (b.pword pid 1) 15 0
def Bank.pTallyBase (b : Bank) (pid : Nat) : Nat := fld (b.pword pid 2) 25 12
def Bank.pTallyCount (b : Bank) (pid : Nat) : Nat := fld (b.pword pid 2) 11 0
def Bank.pVf (b : Bank) (pid : Nat) : Nat := fld (b.pword pid 3) 31 24
def Bank.pVectors (b : Bank) (pid : Nat) : Nat := fld (b.pword pid 3) 8 0
def Bank.pSites (b : Bank) (pid : Nat) : Nat := fld (b.pword pid 4) 15 0
def Bank.pTaps (b : Bank) (pid : Nat) : Nat := fld (b.pword pid 4) 31 16
def Bank.pResets (b : Bank) (pid : Nat) : Nat := (b.pword pid 5).toNat + 2 ^ 32 * fld (b.pword pid 6) 7 0
def Bank.pPeers (b : Bank) (pid : Nat) : Nat :=
  (b.pword pid 7).toNat + 2 ^ 32 * (b.pword pid 8).toNat + 2 ^ 64 * (b.pword pid 9).toNat + 2 ^ 96 * (b.pword pid 10).toNat
def Bank.rValid (b : Bank) (i : Nat) : Bool := bitOf (b.rword i 0) 31
def Bank.rBase (b : Bank) (i : Nat) : Nat := fld (b.rword i 0) 30 0 * 2 ^ 21
def Bank.rOwner (b : Bank) (i : Nat) : Nat := fld (b.rword i 1) 31 24
def Bank.rTier (b : Bank) (i : Nat) : Nat := fld (b.rword i 1) 23 22
def Bank.rSize (b : Bank) (i : Nat) : Nat := (fld (b.rword i 1) 21 0 + 1) * 2 ^ 21
def Bank.rG0 (b : Bank) (i : Nat) : Nat := fld (b.rword i 2) 21 20
def Bank.rG1 (b : Bank) (i : Nat) : Nat := fld (b.rword i 2) 23 22
def Bank.rGt (b : Bank) (i : Nat) : Nat := fld (b.rword i 2) 25 24
def Bank.rPort (b : Bank) (i : Nat) : Nat := fld (b.rword i 3) 3 0
/-- The indices of the regions a bank holds. -/
def Bank.regions (b : Bank) : List Nat := (b.rw.filter (fun c => c.1 % 4 = 0 ∧ bitOf c.2 31)).map (fun c => c.1 / 4)
/-- The PIDs of the partitions a bank holds. -/
def Bank.pids (b : Bank) : List Nat := (b.pw.filter (fun c => c.1 % 16 = 0 ∧ bitOf c.2 31)).map (fun c => c.1 / 16)
/-- The sources of a PID in ascending order (R306): the list index is the local index. -/
def Bank.sources (b : Bank) (pid : Nat) : List Nat :=
  (b.src.filter (fun c => fld c.2 31 24 = pid)).map (fun c => c.1)
/-- Every tenant PID. -/
def tenants : List Nat := (List.range 64).map (· + 2)

def rshareReset : RShared := { state := 0, fenced := false, rgen := 0 }
def rshared (s : State) (i : Nat) : RShared := smGet rshareReset s.part.rshared i
def setRshared (s : State) (i : Nat) (v : RShared) : State :=
  { s with part := { s.part with rshared := smSet rshareReset s.part.rshared i v } }

def sealed (s : State) (pid : Nat) : Bool := tenant pid && s.part.active.pSealed pid
/-- Host vectors of a PID: PID 1 has 256 (R314). -/
def vectors (s : State) (pid : Nat) : Nat := if pid = 1 then 256 else s.part.active.pVectors pid
/-- The bits of a mask, as indices below `n`. -/
def bitsOf (n m : Nat) : List Nat := (List.range n).filter (fun i => m / 2 ^ i % 2 = 1)
/-- The sites of a partition. -/
def sitesOf (s : State) (pid : Nat) : List Nat := bitsOf 16 (s.part.active.pSites pid)
/-- The owner of a Tally (Table 13-1). -/
def tallyOwner (s : State) (t : Nat) : Option Nat :=
  if 16320 ≤ t then some 1 else if 16256 ≤ t then some 0
  else s.part.active.pids.find? (fun p =>
    decide (s.part.active.pTallyBase p ≤ t ∧ t < s.part.active.pTallyBase p + s.part.active.pTallyCount p))
/-- The Tally that slot `k` of a window names, if assigned (R257). -/
def tallyOfSlot (s : State) (pid k : Nat) : Option Nat :=
  if k < s.part.active.pTallyCount pid then some (s.part.active.pTallyBase pid + k) else none
/-- Whether an address lies in region `i` of the active bank. -/
def inRegion (s : State) (i a n : Nat) : Bool :=
  decide (s.part.active.rBase i ≤ a ∧ a + n ≤ s.part.active.rBase i + s.part.active.rSize i)
/-- The region that PID `pid` owns and that holds all of [a, a + n). -/
def ownedRegion (s : State) (pid a n : Nat) : Option Nat :=
  s.part.active.regions.find? (fun i => decide (s.part.active.rOwner i = pid) && inRegion s i a n)

/-! ## Access resolution (R79 to R83, R507) -/

/-- RUN or DEGRADED. -/
def serving (s : State) : Bool := s.block = .run || s.block = .degraded
/-- From step 3 of a sleep entry on, windows and O_MBOX, O_BOOK are out of service (R507). -/
def sleepShut (s : State) : Bool := decide (2 ≤ s.pwr.phase) && serving s

def tagPid (tag : BitVec 24) : Nat := nfld tag.toNat 23 16
def tagGen (tag : BitVec 24) : Nat := nfld tag.toNat 15 10
/-- A tag, composed (Table 1-7). -/
def mkTag (pid gen : Nat) : BitVec 24 := BitVec.ofNat 24 (pid * 65536 + gen * 1024)

/-- Step 2 of Table 3-9 for one page or slot (R80, R82, R83). -/
def reaches (s : State) (tag : BitVec 24) : Loc → Bool
  | .oper _ _ => tagPid tag = 1 && tagGen tag = genOf s 1
  | .win p _ _ => serving s && tagPid tag = p && tagGen tag = genOf s p && pstate s p ≠ .free && pstate s p ≠ .retiring
  | .slot p k _ => serving s && tagPid tag = p && tagGen tag = genOf s p && pstate s p ≠ .free && pstate s p ≠ .retiring &&
      (tallyOfSlot s p k).isSome
  | _ => false

/-- Step 3 of Table 3-9 (Tables 3-10, 3-11). Table 3-11 does not name the reserved page slot 0x7000: the model answers EDOWN there for a
partition that is CONFIGURED or QUARANTINED, and lets it be read in RUNNING (DESIGN CHOICE, log entry 80). -/
def inService (s : State) (write : Bool) : Loc → Bool
  | .oper k _ =>
    match s.block with
    | .sense | .boot => (k = 0 && !write) || k = 1
    | .run | .degraded => !(sleepShut s && (decide (1 ≤ k ∧ k ≤ 4) || k = 7))
    | .safe => (k = 0 || k = 5) && !write
    | .halted => k = 0 && !write
    | _ => false
  | .win p k _ =>
    !sleepShut s &&
    match pstate s p with
    | .running => true
    | .configured | .quarantined => k = 0 || k = 1 || k = 6
    | .quenching => k = 0 && !write
    | _ => false
  | .slot p _ _ => !sleepShut s && pstate s p = .running
  | _ => true

/-- The first of steps 2 and 3 that fails for an HCP access to one place. -/
def hcpCheck (s : State) (tag : BitVec 24) (write : Bool) (l : Loc) : Option Rsp :=
  if s.block = .reset || s.block = .sleep then some .edown
  else if !reaches s tag l then some (if write then .eaccess else .epoison)
  else if !inService s write l then some .edown
  else none

/-- Step 1 of Table 3-9. -/
def shapeOk (a beats : Nat) : Bool := decide (1 ≤ beats ∧ beats ≤ 512 ∧ a % 8 = 0 ∧ a + 8 * beats ≤ 0x800000)

end Sys2Proof.Machine
end

