-- ==== Sys2Proof/Machine/Flags.lean ====
section
/-! DEFINITION. What events leave behind: HIP requests, admission to Master, KX3's own posts, page events, Ledger records,
and the outcome of an access that is refused. -/
namespace Sys2Proof.Machine

/-! ## HIP (R41) -/

/-- The lowest identifier that no outstanding request uses. -/
def hipFreeId (h : Hip) : Nat := ((List.range 64).find? (fun i => !(h.out.any (fun r => r.id = i)))).getD 0

/-- The number of a HIP use in the order of Table 1-5, from 1 (R490). -/
def HipUse.num : HipUse → Nat
  | .load _ => 1 | .staging _ => 2 | .weight _ _ => 3 | .lane _ => 3 | .batch _ => 4 | .log _ => 5 | .scrub _ _ => 6
  | .post _ _ => 7
/-- Puts a request on HIP, or in wait when 64 are outstanding. -/
def hipIssue (s : State) (use : HipUse) (addr len : Nat) (write : Bool) (data : List Byte) : State :=
  let r : HipReq := { id := hipFreeId s.hip, sub := Config.hipSub use.num, use := use, addr := addr, len := len, write := write, data := data }
  if s.hip.out.length < 64 then { s with hip := { s.hip with out := s.hip.out ++ [r] } }
  else { s with hip := { s.hip with waiting := s.hip.waiting ++ [r] } }

/-! ## Admission to Master (R336) -/

def bucketReset : Bucket := { tokens := 0, out := 0, overrun := 0, demoted := 0, rate := 0 }
def bucket (s : State) (pid : Nat) : Bucket := smGet bucketReset s.qos.buckets pid
def setBucket (s : State) (pid : Nat) (b : Bucket) : State :=
  { s with qos := { s.qos with buckets := smSet bucketReset s.qos.buckets pid b } }

/-- A class-0 request served as Journeyman is counted. -/
def demote (s : State) (pid : Nat) : State :=
  setBucket s pid { bucket s pid with demoted := satAdd 65535 (bucket s pid).demoted 1 }
/-- Offers a class-0 request of `pid` to admission: true and a token taken, or false and the demotion counted. -/
def grantMaster (s : State) (pid : Nat) : Bool × State :=
  let b := bucket s pid
  if 1 ≤ b.tokens ∧ b.out < 8 then (true, setBucket s pid { b with tokens := b.tokens - 1, out := b.out + 1 })
  else (false, demote s pid)

/-- The end of an admitted Master request (R337). -/
def masterEnd (s : State) (pid : Nat) : State :=
  let b := bucket s pid
  setBucket s pid { b with out := b.out - 1 }

/-! ## Page events without posts -/

/-- The core that receives the interrupt of a firmware page (R76, R510, R528, Tables 19-1, 20-1): the engine pages by
PG_CTRL.OWNER (R511), FUSE BC, ASY SC2, LDG the core that holds the Ledger role, BOOT none, every other page SC1. -/
def pageOwner (s : State) (page : Nat) (ctrl : Word) : Option Nat :=
  if page = 1 then some 0
  else if page = 2 then none
  else if 4 ≤ page ∧ page ≤ 7 then some (fld ctrl 1 0)
  else if page = 0x11 then some 2
  else if page = 0x13 then some (if s.cores.standbyLost then 1 else 3)
  else some 1
/-- The interrupt lines of a header after a change of its latches or its mask: an event bit is raised while its latch and its mask
are both 1, toward the core that owned the page when it was raised (R76, R511). -/
def relines (owner : Option Nat) (h : Hdr) : Hdr :=
  { h with lines := match owner with
      | none => []
      | some c => (bitsOf 32 (h.event &&& h.evmask).toNat).map (fun b => (b, match smGet 0 h.lines b with | 0 => c + 1 | n => n)) }
/-- Sets event bits of a firmware page and raises its interrupt where the mask enables them (R76). -/
def fwEvent (s : State) (page : Nat) (bits : Nat) : State :=
  let h := hdr s page
  setHdr s page (relines (pageOwner s page h.ctrl) { h with event := h.event ||| w32 bits })

/-! ## KX3's own posts (R311, R313) -/

def pendOf (s : State) (pid vec : Nat) : Option Pend := smGet none s.irq.pend (256 * pid + vec)
def setPend (s : State) (pid vec : Nat) (p : Option Pend) : State :=
  { s with irq := { s.irq with pend := smSet none s.irq.pend (256 * pid + vec) p } }

/-- The 8 bytes of a post (R311). -/
def postData (pid vec : Nat) : List Byte := [BitVec.ofNat 8 vec, BitVec.ofNat 8 pid, 0, 0, 0, 0, 0, 0]

/-- Issues the post of a set pending bit on HIP. -/
def issuePost (s : State) (pid vec : Nat) (p : Pend) : State :=
  hipIssue (setPend s pid vec (some { p with inFlight := true })) (.post pid vec) s.irq.postAddr 8 true (postData pid vec)

/-- An event of `pid` on vector `vec` in class `cls` (R313): dropped and counted when the vector is not the partition's or
not enabled; nothing while the partition is QUENCHING; otherwise its bit is set and posted once. -/
def postEvent (s : State) (pid vec cls : Nat) (enabled : Bool) : State :=
  if tenant pid && pstate s pid = .quenching then s
  else if !enabled || decide (vectors s pid ≤ vec) then
    fwEvent { s with irq := { s.irq with
      dropped := smSet 0 s.irq.dropped pid (satAdd 65535 (smGet 0 s.irq.dropped pid) 1),
      droppedAll := satInc s.irq.droppedAll } } (pgFw 0xC) 1
  else match pendOf s pid vec with
    | some p => if p.inFlight then s else setPend s pid vec (some { p with cls := Nat.min p.cls cls })
    | none => issuePost s pid vec { cls := cls, inFlight := false, refused := false }

/-- A post that a sealed partition gets only at its release time (R346); any other partition gets it at once. `master`: the
post is an admitted Master request, which ends when it is issued (R337). -/
def notifyPost (s : State) (pid vec cls : Nat) (enabled : Bool) (master : Bool := false) : State :=
  if sealed s pid && enabled && decide (vec < vectors s pid) && pstate s pid ≠ .quenching then
    { s with qos := { s.qos with held := s.qos.held ++ [{ pid := pid, eff := .post vec cls, master := master }] } }
  else
    let s1 := postEvent s pid vec cls enabled
    if master then masterEnd s1 pid else s1

/-- The vector register of page `k` of a window (Table 11-6). -/
def pageVec (s : State) (pid k : Nat) : Word := pReg s pid (0x4060 + 4 * k)

/-- Sets event bits of a page of partition `pid`'s window and raises its interrupt when enabled (R76). -/
def winEvent (s : State) (pid k bits : Nat) : State :=
  let h := hdr s (pgWin pid k)
  let s1 := setHdr s (pgWin pid k) { h with event := h.event ||| w32 bits }
  if (h.evmask &&& w32 bits) = 0 then s1
  else
    let v := pageVec s pid k
    if fld v 17 16 = 0 && bitOf v 8 then
      let (ok, s2) := grantMaster s1 pid
      if ok then notifyPost s2 pid (fld v 7 0) 0 true true
      else notifyPost s2 pid (fld v 7 0) 1 true
    else notifyPost s1 pid (fld v 7 0) (fld v 17 16) (bitOf v 8)

/-- The vector of an operator page (R314). -/
def operVec (k : Nat) : Nat := k

/-- Sets event bits of operator page `k` and raises its interrupt when enabled (R76, R314). -/
def operEvent (s : State) (k bits : Nat) (cls : Nat := 1) : State :=
  let h := hdr s (pgOp k)
  let s1 := setHdr s (pgOp k) { h with event := h.event ||| w32 bits }
  if (h.evmask &&& w32 bits) = 0 then s1 else postEvent s1 1 (operVec k) cls true

/-! ## The Ledger (R488 to R495) -/

/-- Events that set NEW of every view that shows the record (R494, R495). -/
def ledgerNew (s : State) (pid scope : Nat) : State :=
  let s1 := operEvent (fwEvent s (pgFw 0x13) 1) 5 1
  if scope = 2 then tenants.foldl (fun t p => if pstate t p = .free then t else winEvent t p 6 1) s1
  else if scope = 1 && tenant pid then winEvent s1 pid 6 1
  else s1

/-- The slot after `n` for the writer (R493). -/
def ledgerNext (l : Ledger) (n : Nat) : Nat :=
  match l.mode with
  | .margin => if n = (l.frozenSlot + 512) % 4096 then (l.frozenSlot + 1) % 4096 else (n + 1) % 4096
  | _ => (n + 1) % 4096

/-- The record that a request becomes when the writer orders it (R489). -/
def ledgerRec (s : State) (event pid sev scope p0 p1 p2 : Nat) : LRec :=
  { time := BitVec.ofNat 48 s.time, event := BitVec.ofNat 16 event, pid := pid, sev := sev, seq := s.ledger.nextSeq,
    p0 := w32 p0, p1 := w32 p1, p2 := w32 p2, scope := scope, damaged := false }

/-- Puts a record in the next slot. -/
def ledgerPut (s : State) (r : LRec) : State :=
  let l := s.ledger
  { s with ledger := { l with
      slots := smSet none l.slots l.nextSlot (some r)
      nextSlot := ledgerNext l l.nextSlot
      nextSeq := (l.nextSeq + 1) % 2 ^ 20 } }

/-- A record request (R489, R493). -/
def record (s : State) (event pid sev scope : Nat) (p0 p1 p2 : Nat := 0) : State :=
  match s.ledger.mode with
  | .stopped => { s with ledger := { s.ledger with discarded := satAdd 65535 s.ledger.discarded 1 } }
  | _ => ledgerNew (ledgerPut s (ledgerRec s event pid sev scope p0 p1 p2)) pid scope

/-- The freeze of R493: FROZEN is the last record until the next reset. -/
def ledgerFreeze (s : State) : State :=
  match s.ledger.mode with
  | .stopped => s
  | _ =>
    let l := s.ledger
    let s1 := record s 0x0006 0 0 2 ((l.nextSeq + 2 ^ 20 - 1) % 2 ^ 20)
    fwEvent { s1 with ledger := { s1.ledger with mode := .stopped, frozenSlot := l.nextSlot, frozenSeq := l.nextSeq } }
      (pgFw 0x13) 2

/-- After a reset a frozen Ledger writes into the margin only (R493). -/
def ledgerAfterReset (l : Ledger) : Ledger :=
  match l.mode with
  | .ring => { l with discarded := 0 }
  | .stopped => { l with mode := .margin, nextSlot := (l.frozenSlot + 1) % 4096, discarded := 0 }
  | .margin => { l with discarded := 0 }

/-- Whether `a` is later than `b` in the order of SEQ, which wraps at 2^20. -/
def seqLater (a b : Nat) : Bool := decide (0 < (a + 2 ^ 20 - b) % 2 ^ 20 ∧ (a + 2 ^ 20 - b) % 2 ^ 20 < 2 ^ 19)

/-- The newest valid record and its slot (R489, R492). -/
def ledgerNewest (l : Ledger) : Option (Nat × LRec) :=
  l.slots.foldl (fun acc c => match c.2 with
    | some r => if r.damaged then acc else match acc with
      | none => some (c.1, r)
      | some (_, r') => if seqLater r.seq r'.seq then some (c.1, r) else acc
    | none => acc) none

/-- The newest FROZEN record that no later RELEASED record follows. -/
def ledgerFrozenAt (l : Ledger) : Option (Nat × LRec) :=
  let pick (ev : BitVec 16) := l.slots.foldl (fun acc c => match c.2 with
    | some r => if r.damaged || r.event ≠ ev then acc else match acc with
      | none => some (c.1, r)
      | some (_, r') => if seqLater r.seq r'.seq then some (c.1, r) else acc
    | none => acc) none
  match pick 0x0006, pick 0x0007 with
  | some (k, f), some (_, r) => if seqLater r.seq f.seq then none else some (k, f)
  | some (k, f), none => some (k, f)
  | none, _ => none

/-- The scan after KX_POR_N (R489, R493): every view floor becomes the newest SEQ found (R494). -/
def ledgerScan (l : Ledger) : Ledger :=
  match ledgerNewest l with
  | none => { l with nextSlot := 0, nextSeq := 0, mode := .ring, discarded := 0, floors := [] }
  | some (k, r) =>
    let l1 := { l with nextSeq := (r.seq + 1) % 2 ^ 20, discarded := 0,
                       floors := tenants.foldl (fun m p => smSet 0 m p r.seq) [] }
    match ledgerFrozenAt l with
    | none => { l1 with mode := .ring, nextSlot := (k + 1) % 4096 }
    | some (fk, f) =>
      let l2 := { l1 with mode := .margin, frozenSlot := fk, frozenSeq := f.seq }
      { l2 with nextSlot := if k = fk then (fk + 1) % 4096 else ledgerNext l2 k }

/-- Whether a record is shown in the view of partition `pid` (Table 17-14). -/
def ledgerVisible (l : Ledger) (pid : Nat) (r : LRec) : Bool :=
  r.scope = 2 || (r.scope = 1 && r.pid = pid && seqLater r.seq (smGet 0 l.floors pid))

/-- Sets a partition's view floor to the newest SEQ (R494). -/
def setFloor (s : State) (pid : Nat) : State :=
  { s with ledger := { s.ledger with
      floors := smSet 0 s.ledger.floors pid ((s.ledger.nextSeq + 2 ^ 20 - 1) % 2 ^ 20) } }

/-! ## Accesses (R39, R79, R85) -/

/-- Records an access that passed steps 2 and 3 and failed with EDECODE or ELOCK (R85, Table 3-6). -/
def accErr (s : State) (l : Loc) (pid : Nat) (r : Rsp) (off : Nat) : State :=
  match pageKey l with
  | none => s
  | some k =>
    let h := hdr s k
    let info := if bitOf h.event 31 then h.errinfo ||| w32 (2 ^ 28)
      else w32 (r.num * 2 ^ 29 + pid * 2 ^ 20 + off / 4 * 4)
    let bits := 2 ^ 31
    match l with
    | .win p n _ => winEvent (setHdr s k { h with errinfo := info }) p n bits
    | .oper n _ => operEvent (setHdr s k { h with errinfo := info }) n bits
    | _ => fwEvent (setHdr s k { h with errinfo := info }) k bits

/-- The offset within the page. -/
def Loc.off : Loc → Nat
  | .fw _ o => o | .fwTally _ o => o | .oper _ o => o | .win _ _ o => o | .slot _ _ o => o | .hole => 0

/-- The PID to which an access is attributed: the tag's, or 0 on the fabric. -/
def srcPid : Src → Nat
  | .hcp tag _ => tagPid tag
  | .fab _ => 0
/-- The identifier that the answer echoes (R37): HCP_REQ_ID, or 0 on the fabric. -/
def srcId : Src → BitVec 6
  | .hcp _ id => id
  | .fab _ => 0

/-- The answer to an access. To an HCP access of a sealed partition it waits for its 2 us grid point (R347). -/
def respond (s : State) (src : Src) (r : Rsp) (data : List DWord := []) : State :=
  if sealed s (srcPid src) then
    { s with qos := { s.qos with held := s.qos.held ++ [{ pid := srcPid src, eff := .hcp r data (srcId src), master := false }] } }
  else answer s r data (srcId src)

/-- The answer of a refused access, with what R85 records: a refusal at step 2 in the Ledger under the tag's PID, an EDECODE
or ELOCK in the page. -/
def refuse (s : State) (src : Src) (l : Loc) (addr : Nat) (r : Rsp) (beats : Nat := 0) : State :=
  let s1 := respond s src r (List.replicate beats 0)
  match r with
  | .eaccess | .epoison =>
    match src with
    | .hcp _ _ => record s1 0x0040 (srcPid src) 1 1 addr r.num
    | .fab _ => s1
  | .edecode | .elock =>
    match src, l with
    | .fab _, .oper _ _ | .fab _, .win _ _ _ => s1
    | _, _ => accErr s1 l (srcPid src) r l.off
  | _ => s1

/-- HCP requests that are outstanding: the model answers at once but for a sealed partition, whose answers wait (R37, R347). -/
def hcpOutstanding (s : State) : Nat :=
  (s.qos.held.filter (fun h => match h.eff with | .hcp _ _ _ => true | _ => false)).length
/-- Whether the HCP adapter takes a request: it is not in RESET, where HCP_REQ_READY is 0 (Table 3-10), and fewer than 32 requests
are outstanding (R37). -/
def hcpTakes (s : State) : Bool := s.block ≠ .reset && decide (hcpOutstanding s < 32)
/-- An HCP request arrives. One that is not taken waits at the port and changes nothing. In SLEEP the hub answers every request with
EDOWN and zero data (R40). On the fabric the initiator must be able to act. -/
def arrive (s : State) (src : Src) (k : State → State) (beats : Nat := 0) : State :=
  match src with
  | .hcp _ _ =>
    if !hcpTakes s then s
    else if s.block = .sleep then respond s src .edown (List.replicate beats 0)
    else k s
  | .fab _ => k s
/-- The refusal of a request whose tag names no page that it could reach (Table 3-9, step 2). -/
def refuseForeign (s : State) (src : Src) (addr : Nat) : State :=
  arrive s src (fun s => refuse s src .hole addr .eaccess)

/-- Whether an initiator of the fabric can act now: the core runs, or the life-cycle state and unlock grant JTAG (R72,
R81, R483, Table 4-4). -/
def fabOk (s : State) (w : Who) : Bool :=
  match w with
  | .bc => (s.block = .boot || serving s) && !s.cores.failed.getLsbD 0
  | .sc1 => (s.block = .boot || serving s) && s.cores.released.getLsbD 1 && !s.cores.failed.getLsbD 1
  | .sc2 => (s.block = .boot || serving s) && s.cores.released.getLsbD 2 && !s.cores.failed.getLsbD 2
  | .sc3 => (s.block = .boot || serving s) && s.cores.released.getLsbD 3 && !s.cores.failed.getLsbD 3
  | .jtag => s.pins.critValid && (decide (s.fuse.sensed.lcs ≤ 1) ||
      (s.fuse.sensed.unlockActive && (s.fuse.sensed.lcs = 2 || s.fuse.sensed.lcs = 5)))

/-- Performs `k` when the access passes: for HCP steps 2 and 3 of Table 3-9, for the fabric an initiator that can act. In
RESET no request is accepted. -/
def access (s : State) (src : Src) (l : Loc) (addr : Nat) (write : Bool) (k : State → State) (beats : Nat := 0) : State :=
  match src with
  | .hcp tag _ =>
    arrive s src (fun s => match hcpCheck s tag write l with
      | some r => refuse s src l addr r beats
      | none => k s) beats
  | .fab w => if fabOk s w then k s else s

/-- Performs `k` for a firmware initiator that can act. Its write is answered OK unless `k` answers otherwise. -/
def byCore (s : State) (w : Who) (k : State → State) : State := if fabOk s w then k (answer s .ok) else s
/-- The same for a register that exists for BC and the service cores only. -/
def ownCore (s : State) (w : Who) (k : State → State) : State := if w = .jtag then s else byCore s w k

end Sys2Proof.Machine
end

