-- ==== Sys2Proof/Machine/Cpb.lean ====
section
/-! DEFINITION. The Checker Programming Bus: what KX3 knows of its agents, which agents a resource is served by, and the
frames it sends, resends and counts (R47 to R52, R273, R499, R551). -/
namespace Sys2Proof.Machine

/-! ## Agents -/

def agentReset : Agent :=
  { present := false, faulted := false, delivering := false, kind := 0, cause := 0, words := 0, version := 0, seq := 0,
    kekValid := false }
def agent (s : State) (a : Nat) : Agent := smGet agentReset s.cpb.agents a
def setAgent (s : State) (a : Nat) (v : Agent) : State :=
  { s with cpb := { s.cpb with agents := smSet agentReset s.cpb.agents a v } }

/-- The domains that agent `a` lies in (R319). -/
def domainsOf (s : State) (a : Nat) : List Nat := (s.part.domains.filter (fun c => c.2 = a)).map (fun c => c.1)
/-- The agents of domain `d`. -/
def domainAgents (s : State) (d : Nat) : List Nat := (s.part.domains.filter (fun c => c.1 = d)).map (fun c => c.2)
/-- PD_STATUS of one of the agent's domains reads 0 (R499). -/
def agentDown (s : State) (a : Nat) : Bool := (domainsOf s a).any (fun d => !s.pins.pdStatus.getLsbD d)
/-- One of the agent's domains is held in reset or powered down (R274). -/
def agentHeld (s : State) (a : Nat) : Bool :=
  (domainsOf s a).any (fun d => !s.pins.pdStatus.getLsbD d || !s.pins.hubRstN.getLsbD d)
/-- A domain sequence is reprogramming the agent: an agent marked faulted is addressed again by steps 4 and 5 of Table 11-7, and stays
marked until step 5 has completed (R543). -/
def recovering (s : State) (a : Nat) : Bool :=
  (domainsOf s a).any (fun d => s.pwr.doms.any (fun q => decide (q.dom = d ∧ (q.step = 4 ∨ q.step = 5))))
/-- An agent that frames are addressed to: present, not faulted, its domains powered and out of reset. -/
def addressable (s : State) (a : Nat) : Bool :=
  (agent s a).present && (!(agent s a).faulted || recovering s a) && !agentHeld s a
/-- The addressable agents of one kind, in ascending order. -/
def agentsOfKind (s : State) (k : Nat) : List Nat :=
  (s.cpb.agents.filter (fun c => decide (c.2.kind = k) && addressable s c.1)).map (fun c => c.1)
/-- The commit order of kinds, NIs last (R274). -/
def kindOrder : List Nat := [2, 4, 5, 3, 6, 7, 8, 1]
/-- Every addressable agent, in the kind order of R274. -/
def liveAgents (s : State) : List Nat := kindOrder.flatMap (agentsOfKind s)
/-- Agents marked faulted (TOP_CENSUS.FAULTED). -/
def faultedCount (s : State) : Nat := (s.cpb.agents.filter (fun c => c.2.faulted)).length
/-- Agents present (TOP_CENSUS.PRESENT). -/
def presentCount (s : State) : Nat := (s.cpb.agents.filter (fun c => c.2.present)).length

/-! ## Which agents serve a resource -/

/-- The checkers that govern a range of hub memory (R260). -/
def checkersOf (s : State) (tier port base size : Nat) : List Nat :=
  match s.part.tierMap.find? (fun r => decide (r.tier = tier) && decide (r.base ≤ base ∧ base + size ≤ r.base + r.size) &&
      (decide (tier ≠ 2) || decide (r.port = port))) with
  | some r => (List.range r.count).map (fun i => r.first + i)
  | none => []
/-- The checkers that govern region `i` of a bank. -/
def regionCheckers (s : State) (b : Bank) (i : Nat) : List Nat :=
  checkersOf s (b.rTier i) (b.rPort i) (b.rBase i) (b.rSize i)
/-- The regions that PID `p` owns in a bank. -/
def regionsOf (b : Bank) (p : Nat) : List Nat := b.regions.filter (fun i => decide (b.rOwner i = p))
/-- The translation units bound to a partition: those wired to its sites (R287). -/
def unitsOf (s : State) (b : Bank) (p : Nat) : List Nat :=
  ((s.pins.wiring.filter (fun c => b.pSites p / 2 ^ c.2 % 2 = 1)).map (fun c => c.1)).filter (fun a =>
    decide ((agent s a).kind = 3) && (agent s a).present)
/-- The site controller of a site: the agent the boot directory names (Table 5-8). -/
def siteCtrl (s : State) (site : Nat) : Option Nat := (smGet none s.boot.siteEnts site).map (fun e => e.agent)
/-- The ISC and entry of a global source (R306). -/
def sourceLoc (s : State) (n : Nat) : Option (Nat × Nat) :=
  let rec go : List (Nat × Nat) → Nat → Option (Nat × Nat)
    | [], _ => none
    | (a, c) :: rest, k => if k < c then some (a, k) else go rest (k - c)
  if n < 8192 then go s.irq.iscs n else none

/-! ## Table copies (R53, R55, R56, R271) -/

/-- The key of a table word. -/
def tblKey (a sel i : Nat) : Nat := a * 2 ^ 24 + sel * 2 ^ 20 + i
def shadowWord (s : State) (a sel i : Nat) : Word := smGet 0 s.part.shadow (tblKey a sel i)
def liveWord (s : State) (a sel i : Nat) : Word := smGet 0 s.part.live (tblKey a sel i)
def setShadow (s : State) (a sel i : Nat) (w : Word) : State :=
  { s with part := { s.part with shadow := smSet 0 s.part.shadow (tblKey a sel i) w } }
/-- An acknowledged FENCE has rewritten RGEN of a region in both copies (R56). -/
def fenceShadow (s : State) (a region rgen : Nat) : State :=
  let k := tblKey a 0 (4 * region + 2)
  { s with part := { s.part with
      shadow := smSet 0 s.part.shadow k (putFld (smGet 0 s.part.shadow k) 5 0 rgen)
      live := smSet 0 s.part.live k (putFld (smGet 0 s.part.live k) 5 0 rgen) } }
/-- An agent that acknowledged COMMIT has exchanged its copies (R55). -/
def exchangeTables (s : State) (a : Nat) : State :=
  let own (m : SMap Word) : SMap Word := m.filter (fun c => decide (c.1 / 2 ^ 24 = a))
  let put (m : SMap Word) (o : SMap Word) : SMap Word :=
    o.foldl (fun t c => smSet 0 t c.1 c.2) (m.filter (fun c => decide (c.1 / 2 ^ 24 ≠ a)))
  { s with part := { s.part with
      shadow := put s.part.shadow (own s.part.live), live := put s.part.live (own s.part.shadow) } }
/-- An agent's reset leaves both copies without a word (R53; DEDUCED, log entry 92). -/
def clearTables (s : State) (a : Nat) : State :=
  { s with part := { s.part with
      shadow := s.part.shadow.filter (fun c => decide (c.1 / 2 ^ 24 ≠ a))
      live := s.part.live.filter (fun c => decide (c.1 / 2 ^ 24 ≠ a)) } }
/-- Whether SC1 knows every word of an agent's shadow copy: it has been reset with KX3 (R319), or written in full since. -/
def shadowKnown (s : State) (a : Nat) : Bool := !(domainsOf s a).isEmpty || s.part.tabled.contains a
/-- What an acknowledged frame has done to its agent's copies. -/
def tableAck (s : State) (f : Frame) : State :=
  let p := f.payload.toNat
  match f.op with
  | 2 => setShadow s f.agent (nfld p 55 52) (nfld p 51 32) (w32 (nfld p 31 0))
  | 4 => if s.part.tabled.contains f.agent then s else { s with part := { s.part with tabled := s.part.tabled ++ [f.agent] } }
  | 8 => fenceShadow s f.agent (nfld p 55 43) (nfld p 37 32)
  | _ => s

/-! ## Frames -/

def payPid (pid rest : Nat) : BitVec 56 := BitVec.ofNat 56 (pid * 2 ^ 48 + rest)
/-- GEN_SET (Table 2-8). -/
def genSetPay (pid gen : Nat) : BitVec 56 := payPid pid (gen * 2 ^ 40)
/-- FENCE (Table 2-8). -/
def fencePay (region rgen : Nat) : BitVec 56 := BitVec.ofNat 56 (region * 2 ^ 43 + rgen * 2 ^ 32)
/-- PREPARE, COMMIT, CLOSE (Table 2-8). -/
def versionPay (v : Nat) (ep : Bool) (crc : Word) : BitVec 56 :=
  BitVec.ofNat 56 (v * 2 ^ 40 + b2n ep * 2 ^ 32 + crc.toNat)
/-- TBL_WRITE (Table 2-8). -/
def tblPay (sel index : Nat) (data : Word) : BitVec 56 := BitVec.ofNat 56 (sel * 2 ^ 52 + index * 2 ^ 32 + data.toNat)

/-- A frame that waits until a commit window ends: GEN_SET and FENCE, except those of a rollback (R273). -/
def frameBarred (s : State) (f : Frame) : Bool :=
  s.epoch.window && (f.op = 7 || f.op = 8) && f.use ≠ .rollback && f.use ≠ .epoch

/-- Puts the frame on the bus with the agent's next SEQ (R49). -/
def launch (s : State) (f : Frame) : State :=
  let a := agent s f.agent
  let s1 := setAgent s f.agent { a with seq := (a.seq + 1) % 2 ^ 24 }
  { s1 with cpb := { s1.cpb with
      flights := s1.cpb.flights ++ [{ frame := f, seq := a.seq, resends := 0, released := false }] } }

/-- Sends a frame, or lets it wait while its agent has one unacknowledged (R49) or a commit window bars it (R273). -/
def cpbSend (s : State) (f : Frame) : State :=
  if s.cpb.flights.any (fun x => x.frame.agent = f.agent) || frameBarred s f then
    { s with cpb := { s.cpb with waiting := s.cpb.waiting ++ [f] } }
  else launch s f

/-- Sends one frame to each agent of a list. -/
def cpbSendAll (s : State) (as : List Nat) (op : Nat) (pay : BitVec 56) (use : CpbUse) : State :=
  as.foldl (fun t a => cpbSend t { agent := a, op := op, payload := pay, use := use }) s

/-- Gives every waiting frame its turn, in order. -/
def cpbPump (s : State) : State :=
  s.cpb.waiting.foldl cpbSend { s with cpb := { s.cpb with waiting := [] } }

/-- No frame of this use is on the bus or waits. -/
def cpbIdle (s : State) (use : CpbUse) : Bool :=
  !s.cpb.flights.any (fun x => x.frame.use = use) && !s.cpb.waiting.any (fun x => x.use = use)

/-- Drops every frame of a use: a later reply finds nothing to match. -/
def cpbDropUse (s : State) (use : CpbUse) : State :=
  { s with cpb := { s.cpb with flights := s.cpb.flights.filter (fun x => x.frame.use ≠ use),
                               waiting := s.cpb.waiting.filter (fun x => x.use ≠ use) } }

/-- Drops every frame to an agent. -/
def cpbDropAgent (s : State) (a : Nat) : State :=
  { s with cpb := { s.cpb with flights := s.cpb.flights.filter (fun x => x.frame.agent ≠ a),
                               waiting := s.cpb.waiting.filter (fun x => x.agent ≠ a) } }

/-- KX3's SEQ count for an agent returns to 0 (R551), and no frame to it is outstanding. -/
def cpbResetSeq (s : State) (a : Nat) : State :=
  let s1 := cpbDropAgent s a
  setAgent s1 a { agent s1 a with seq := 0, delivering := false }

/-- SHUTTER_N driven to 0: every SEQ count returns to 0 (R551), and region checkers deny everything in both copies (R60). -/
def cpbShutter (s0 : State) : State :=
  let s := (s0.cpb.agents.filter (fun c => decide (c.2.kind = 2))).foldl (fun t c => clearTables t c.1) s0
  { s with cpb := { s.cpb with
      agents := smMap agentReset (fun a => { a with seq := 0, delivering := false }) s.cpb.agents
      flights := [], waiting := [] } }

/-- A DRAIN, or an INVAL of kinds 0 to 3: its agent may take long to answer and is not marked faulted for it (R294,
R544; DEDUCED for the DRAINs of a sequence, which have limits of their own). -/
def drainFrame (f : Frame) : Bool := f.op = 0x0B || (f.op = 9 && decide (nfld f.payload.toNat 47 45 ≤ 3))

/-! ## The page's per-initiator registers (R543, R544) -/

def cpbPortReset : CpbPort := { result := 0, busy := false, agent := 0, op := 0, reply := 0, replyOp := 0 }
def cpbPort (s : State) (w : Nat) : CpbPort := smGet cpbPortReset s.cpb.ports w
def setCpbPort (s : State) (w : Nat) (p : CpbPort) : State :=
  { s with cpb := { s.cpb with ports := smSet cpbPortReset s.cpb.ports w p } }
/-- BUSY clears with a result, and the initiator's DONE event is set (R529). -/
def cpbPortDone (s : State) (w : Nat) (result : Nat) (replyOp : Nat := 0) (reply : BitVec 56 := 0) : State :=
  fwEvent (setCpbPort s w { cpbPort s w with result := result, busy := false, replyOp := replyOp, reply := reply })
    (pgFw 0x15) (2 ^ (1 + w))

end Sys2Proof.Machine
end

