-- ==== Sys2Proof/Machine/AsyBase.lean ====
section
/-! DEFINITION. The Assay's places and per-partition records, and the close of an operation or run (R415, R423). -/
namespace Sys2Proof.Machine

def placeReset : APlace := { op := none, verdict := 0, valid := false, bandsE := 0, opno := 0 }
def place (s : State) (pid k : Nat) : APlace := smGet placeReset s.asy.places (4 * pid + k)
def setPlace (s : State) (pid k : Nat) (p : APlace) : State :=
  { s with asy := { s.asy with places := smSet placeReset s.asy.places (4 * pid + k) p } }

def chainReset : List Byte := List.replicate 48 0
def apartReset : APart :=
  { quota := 0, slots := 0, opno := 0, lastOp := 0, result := 0, ringOn := false, ringBusy := false, base := 0,
    size := 0, tally := 0, region := 0, prod := 0, writing := false, lost := 0, lseq := 0, chain := chainReset,
    backlog := [], counts := [], accepted := 0, blocks := 0, lostB := 0, faults := 0, disagree := 0, loadBuf := [],
    prgRes := 0, prgHandle := 0, badIndex := 0, info := 0, infoDig := [] }
def apart (s : State) (pid : Nat) : APart := smGet apartReset s.asy.parts pid
def setApart (s : State) (pid : Nat) (p : APart) : State :=
  { s with asy := { s.asy with parts := smSet apartReset s.asy.parts pid p } }

/-- The operation that holds place `k` of `pid`, if any. -/
def opAt (s : State) (pid k : Nat) : Option AOp := (place s pid k).op
/-- Stores the operation of a place. -/
def setOp (s : State) (pid k : Nat) (o : AOp) : State := setPlace s pid k { place s pid k with op := some o }

/-- Closes the operation of one place when it is open with this TRIG (R423). -/
def closeAt (trig : Nat) (act : Bool) (pid : Nat) (s : State) (k : Nat) : State :=
  match opAt s pid k with
  | some o => if o.stage = 0 && decide (o.trig = trig) then
      setOp s pid k { o with stage := 1, closedAt := s.time, byAct := act } else s
  | none => s
/-- Closes every open operation of `pid` with this TRIG (R423). -/
def closeTrig (s : State) (pid trig : Nat) (act : Bool) : State := [0, 1, 2, 3].foldl (closeAt trig act pid) s
/-- Whether an open operation of `pid` has this TRIG. -/
def hasTrig (s : State) (pid trig : Nat) : Bool :=
  [0, 1, 2, 3].any (fun k => match opAt s pid k with | some o => o.stage = 0 && decide (o.trig = trig) | none => false)

end Sys2Proof.Machine
end

