-- ==== Sys2Proof/Machine/Mbox.lean ====
section
/-! DEFINITION. Mailbox channels: their queues and windows, WSP framing, replies, unasked messages and notification words
(R368 to R384, R539). -/
namespace Sys2Proof.Machine

/-! ## Channels -/

def channelReset : Channel :=
  { tx := [], rx := [], marks := [], notes := [], noteLost := 0, version := none, asm := [], outst := [], inbox := [], replies := [] }
def channel (s : State) (c : Nat) : Channel := smGet channelReset s.mbox.chans c
def setChannel (s : State) (c : Nat) (v : Channel) : State :=
  { s with mbox := { s.mbox with chans := smSet channelReset s.mbox.chans c v } }
/-- Whether channel `c` is an operator channel (R539). -/
def operChan (c : Nat) : Bool := decide (64 ≤ c)
/-- Words of TX and of RX (Table 13-9). -/
def queueSize (c : Nat) : Nat := if operChan c then 64 else 16
/-- Words of the notification queue. -/
def noteSize (c : Nat) : Nat := if operChan c then 64 else 32
/-- The PID a channel belongs to: 1 for an operator channel. -/
def chanPid (c : Nat) : Nat := if operChan c then 1 else c + 2
/-- Frames that may be outstanding on a channel (R379). -/
def outstMax (c : Nat) : Nat := if operChan c then 16 else 4
/-- The page of a channel, for `winEvent` and `operEvent`. -/
def chanEvent (s : State) (c bits : Nat) : State :=
  if operChan c then operEvent s (c - 64 + 1) bits else winEvent s (c + 2) 1 bits
/-- The place of a mailbox page in the aperture. -/
def chanLoc (c off : Nat) : Loc := if operChan c then .oper (c - 64 + 1) off else .win (c + 2) 1 off
def chanAddr (c off : Nat) : Nat := if operChan c then 0x80000 + (c - 64 + 1) * 0x1000 + off else winBase (c + 2) + 0x1000 + off
/-- PG_CTRL.RESET of an operator channel's page (R369). -/
def resetReq (s : State) (c : Nat) : Bool := operChan c && bitOf (hdr s (pgOp (c - 64 + 1))).ctrl 0

/-! ## Frames (Table 13-13) -/

def hCode (w : Word) : Nat := fld w 31 16
def hClass (w : Word) : Nat := fld w 15 14
def hFrag (w : Word) : Nat := fld w 13 12
def hLen (w : Word) : Nat := fld w 11 6
def hTag (w : Word) : Nat := fld w 5 0
def mkHeader (code cls frag len tag : Nat) : Word :=
  w32 (code * 65536 + (cls % 4) * 16384 + (frag % 4) * 4096 + (len % 64) * 64 + tag % 64)

/-- Body words of a push message (Table 5-3). -/
def pushLen (h : Word) : Nat :=
  match fld h 31 24 with
  | 0x01 | 0x04 | 0x84 => 2
  | 0x02 => fld h 5 0
  | _ => 0
/-- Body words that follow a header in TX: in SENSE and BOOT O_MBOX0 carries push messages (R375). -/
def txLen (s : State) (c : Nat) (h : Word) : Nat := if c = 64 && (s.block = .sense || s.block = .boot) then pushLen h else hLen h
/-- Body words that follow a header in RX: KX3's push messages have header bytes that no WSP code has (Table 13-15). -/
def rxLen (c : Nat) (h : Word) : Nat := if c = 64 && decide (0x80 ≤ fld h 31 24) then pushLen h else hLen h
/-- Whether the words form one or more whole frames, none longer than `size` words (R370). -/
def wholeFrames (len : Word → Nat) (size : Nat) : Nat → List Word → Bool
  | 0, ws => ws.isEmpty
  | fuel + 1, ws => match ws with
    | [] => true
    | h :: rest => decide (len h + 1 ≤ size ∧ len h ≤ rest.length) && wholeFrames len size fuel (rest.drop (len h))
/-- The frame at the head of a queue. -/
def headFrame (len : Word → Nat) (q : List Word) : List Word := match q with
  | [] => []
  | h :: _ => q.take (len h + 1)
/-- The words of write beats in ascending order, or none when strobes are set in part or words lie apart (R370). -/
def strobedWords (beats : List (DWord × Byte)) : Option (List Word) :=
  let words := beats.flatMap (fun b => [(w32 b.1.toNat, fld (w32 b.2.toNat) 3 0), (w32 (b.1.toNat / 2 ^ 32), fld (w32 b.2.toNat) 7 4)])
  let body := (words.dropWhile (fun w => decide (w.2 = 0))).reverse.dropWhile (fun w => decide (w.2 = 0))
  if body.all (fun w => decide (w.2 = 15)) && words.all (fun w => decide (w.2 = 0 ∨ w.2 = 15)) then
    some (body.reverse.map (fun w => w.1)) else none

/-! ## RX -/

/-- The RX event (R372): in the class of the page's vector, or of R314; for the reply to an admitted Master request, in Master and
charged to that request. -/
def rxEvent (s : State) (c : Nat) (master : Bool) : State :=
  if operChan c then operEvent s (c - 64 + 1) 1 (if master then 0 else 1)
  else if master then
    let p := c + 2
    let h := hdr s (pgWin p 1)
    let s1 := setHdr s (pgWin p 1) { h with event := h.event ||| 1 }
    if (h.evmask &&& 1) = 0 then s1 else postEvent s1 p (fld (pageVec s p 1) 7 0) 0 (bitOf (pageVec s p 1) 8)
  else winEvent s (c + 2) 1 1

/-- A frame has become the head of RX: its event, and the end of the admission whose last reply frame it is (R369, R372, R337). -/
def rxHead (s : State) (c : Nat) : State :=
  let ch := channel s c
  match ch.marks with
  | [] => s
  | m :: rest =>
    let s1 := rxEvent (setChannel s c { ch with marks := Nat.min m 1 :: rest }) c (decide (m ≠ 0))
    if m = 2 then masterEnd s1 (chanPid c) else s1

/-- The request that a frame answers (R379). -/
def answered (ch : Channel) (f : RxFrame) : Option Outst := match f.words with
  | h :: _ => if f.answers && decide (hTag h ≠ 0) then ch.outst.find? (fun o => decide (o.tag = hTag h)) else none
  | [] => none
/-- Whether a frame ends its message: whole, or the last fragment. -/
def lastFrame (f : RxFrame) : Bool := match f.words with
  | h :: _ => decide (hFrag h = 0 ∨ hFrag h = 3)
  | [] => false

/-- Places one whole frame in RX. The last frame of a reply ends its request: it is outstanding no more (R379). -/
def rxPut (s : State) (c : Nat) (f : RxFrame) : State :=
  let ch := channel s c
  let mark := match answered ch f with
    | some o => if o.master then (if lastFrame f then 2 else 1) else 0
    | none => 0
  let outst := match answered ch f with
    | some o => if lastFrame f then ch.outst.filter (fun x => decide (x.tag ≠ o.tag)) else ch.outst
    | none => ch.outst
  let s1 := setChannel s c { ch with rx := ch.rx ++ f.words, marks := ch.marks ++ [mark], outst := outst }
  if ch.rx.isEmpty then rxHead s1 c else s1

/-- Moves waiting frames into RX in order, as far as there is room (R371, R382). -/
def rxPump : Nat → State → Nat → State
  | 0, s, _ => s
  | fuel + 1, s, c =>
    let ch := channel s c
    match ch.replies with
    | [] => s
    | f :: rest =>
      if ch.rx.length + f.words.length ≤ queueSize c && !resetReq s c then
        rxPump fuel (rxPut (setChannel s c { ch with replies := rest }) c f) c
      else s

/-- The fragments of a message (R377). -/
def fragments (c code cls tag : Nat) : Nat → Bool → List Word → List (List Word)
  | 0, _, _ => []
  | fuel + 1, first, body =>
    let m := queueSize c - 1
    if body.length ≤ m then
      [mkHeader code cls (if first then 0 else 3) body.length tag :: body]
    else (mkHeader code cls (if first then 1 else 2) m tag :: body.take m) :: fragments c code cls tag fuel false (body.drop m)

/-- Frames wait for room in RX. -/
def queueFrames (s : State) (c : Nat) (fs : List RxFrame) : State :=
  let ch := channel s c
  rxPump (fs.length + ch.replies.length) (setChannel s c { ch with replies := ch.replies ++ fs }) c

/-- Queues the frames of a message for RX; `answers`: they are the reply to the outstanding request with this TAG. For a sealed
partition they wait for their release (R346). -/
def queueMessage (s : State) (c code cls tag : Nat) (body : List Word) (answers : Bool := false) : State :=
  let fs := (fragments c code cls tag (body.length + 1) true body).map (fun ws => ({ words := ws, answers := answers } : RxFrame))
  if sealed s (chanPid c) && tag ≠ 0 then
    let add : List Held := fs.map (fun f => { pid := chanPid c, eff := .reply f, master := false })
    { s with qos := { s.qos with held := s.qos.held ++ add } }
  else queueFrames s c fs

/-- An unasked message (TAG 0, Journeyman). -/
def notice (s : State) (c code : Nat) (body : List Word) : State := queueMessage s c code 1 0 body
/-- ERROR (R380). -/
def wspError (s : State) (c cls tag status code : Nat) : State :=
  queueMessage s c 2 cls tag [w32 (status * 2 ^ 24 + code)]

/-! ## Notification words (R373) -/

def noteWord (s : State) (c : Nat) (w : Word) : State :=
  let ch := channel s c
  if ch.notes.length < noteSize c then chanEvent (setChannel s c { ch with notes := ch.notes ++ [w] }) c 4
  else
    let s1 := setChannel s c { ch with noteLost := satAdd 255 ch.noteLost 1 }
    let s2 := { s1 with tl := { s1.tl with noteLost := satInc s1.tl.noteLost } }
    chanEvent (fwEvent s2 (pgFw 0xF) 1) c 8

/-! ## Requests (R377 to R379, R96, R100) -/

/-- The requests KX3 knows, the channels they may use, and whether each needs a session (Tables 8-6, 13-15): 1 private,
2 operator, 3 both, 4 private or operator 3. -/
def wspTable : List (Nat × Nat) :=
  [(0x0001, 3), (0x0003, 3), (0x0102, 2), (0x0103, 2), (0x0201, 4), (0x0202, 3), (0x0203, 1), (0x0204, 1), (0x0205, 4),
   (0x0206, 4), (0x0207, 4), (0x0208, 2), (0x0302, 1), (0x0303, 2), (0x0304, 3), (0x0305, 3), (0x0307, 2), (0x0308, 3),
   (0x0401, 2), (0x0601, 2), (0x0603, 3)]
/-- Whether a message with this channel rule may use channel `c`. -/
def chanPermits (rule c : Nat) : Bool :=
  match rule with
  | 1 => !operChan c
  | 2 => operChan c
  | 3 => true
  | _ => !operChan c || c = 67

/-- Admits a complete request, or answers ERROR (R379, R380, R96). A second Master HALLMARK_GET is demoted (R342). -/
def takeRequest (s : State) (c tag code cls : Nat) (body : List Word) : State :=
  let ch := channel s c
  if tag = 0 || ch.outst.any (fun o => decide (o.tag = tag)) then wspError s c cls tag 2 code
  else if outstMax c ≤ ch.outst.length then wspError s c cls tag 4 code
  else if ch.version.isNone && code ≠ 1 then wspError s c cls tag 0 code
  else match wspTable.find? (fun r => r.1 = code) with
    | none => wspError s c cls tag 1 code
    | some (_, rule) =>
      if !chanPermits rule c then wspError s c cls tag 3 code
      else
        let second := code = 0x0202 && ch.outst.any (fun o => decide (o.code = code) && o.master)
        let (m, s1) := if cls = 0 && second then (false, demote s (chanPid c))
          else if cls = 0 then grantMaster s (chanPid c) else (false, s)
        let ch1 := channel s1 c
        setChannel s1 c { ch1 with
          outst := ch1.outst ++ [{ tag := tag, code := code, cls := cls, master := m }]
          inbox := ch1.inbox ++ [(tag, code, cls, body)] }

/-- Assembly limits of R377. -/
def asmMax (c : Nat) : Nat := if operChan c then 4 else 1

/-- One frame enters the channel's assembly (R376, R377). -/
def takeFrame (s : State) (c : Nat) (frame : List Word) : State :=
  match frame with
  | [] => s
  | h :: body =>
    let tag := hTag h
    let code := hCode h
    let cls := hClass h
    let ch := channel s c
    let cur := ch.asm.find? (fun a => decide (a.tag = tag))
    let others := ch.asm.filter (fun a => decide (a.tag ≠ tag))
    let put (t : State) (a : List Assembly) : State := setChannel t c { channel t c with asm := a }
    match hFrag h with
    | 0 => match cur with
      | some a => if a.bad then takeRequest s c tag code cls body
        else wspError (put s (others ++ [{ a with bad := true, body := [] }])) c cls tag 2 code
      | none => takeRequest s c tag code cls body
    | 1 => match cur with
      | some a => if a.bad then s else wspError (put s (others ++ [{ a with bad := true, body := [] }])) c cls tag 2 code
      | none =>
        let live := (ch.asm.filter (fun a => !a.bad)).length
        if live < asmMax c then put s (ch.asm ++ [{ tag := tag, code := code, cls := cls, body := body, bad := false }])
        else wspError (put s (ch.asm ++ [{ tag := tag, code := code, cls := cls, body := [], bad := true }])) c cls tag 2 code
    | 2 => match cur with
      | none => wspError (put s (ch.asm ++ [{ tag := tag, code := code, cls := cls, body := [], bad := true }])) c cls tag 2 code
      | some a =>
        if a.bad then s
        else if a.code ≠ code || a.cls ≠ cls then
          wspError (put s (others ++ [{ a with bad := true, body := [] }])) c cls tag 2 code
        else if 16400 < a.body.length + body.length then
          wspError (put s (others ++ [{ a with bad := true, body := [] }])) c cls tag 5 code
        else put s (others ++ [{ a with body := a.body ++ body }])
    | _ => match cur with
      | none => wspError s c cls tag 2 code
      | some a =>
        if a.bad then put s others
        else if a.code ≠ code || a.cls ≠ cls then wspError (put s others) c cls tag 2 code
        else if 16400 < a.body.length + body.length then wspError (put s others) c cls tag 5 code
        else takeRequest (put s others) c tag code cls (a.body ++ body)

/-- The request of a row: the oldest inbox entry with this tag and code. -/
def inboxFind (s : State) (c tag code : Nat) : Option (Nat × List Word) :=
  ((channel s c).inbox.find? (fun r => decide (r.1 = tag) && decide (r.2.1 = code))).map (fun r => (r.2.2.1, r.2.2.2))
/-- Takes it out of the inbox. -/
def inboxDrop (s : State) (c tag code : Nat) : State :=
  let ch := channel s c
  setChannel s c { ch with inbox := ch.inbox.filter (fun r => !(decide (r.1 = tag) && decide (r.2.1 = code))) }
/-- Acts on a request that waits, or does nothing when none does. -/
def withRequest (s : State) (ch : Chan) (tag : BitVec 6) (code : Nat) (k : State → Nat → List Word → State) : State :=
  match inboxFind s ch.num tag.toNat code with
  | none => s
  | some (cls, body) => k (inboxDrop s ch.num tag.toNat code) cls body

/-- A request's reply: the CODE, TAG and admitted class of the request (R379). -/
def reply (s : State) (c tag code : Nat) (body : List Word) : State :=
  match (channel s c).outst.find? (fun o => decide (o.tag = tag)) with
  | none => s
  | some o => queueMessage s c code o.cls tag body true
/-- A reply whose first body word holds only the result. -/
def replyCode (s : State) (c tag code result : Nat) : State := reply s c tag code [w32 (result * 2 ^ 24)]
/-- ERROR in answer to an admitted request (R375, R380). -/
def replyError (s : State) (c tag status code : Nat) : State :=
  match (channel s c).outst.find? (fun o => decide (o.tag = tag)) with
  | none => s
  | some o => queueMessage s c 2 o.cls tag [w32 (status * 2 ^ 24 + code)] true

/-! ## Commands -/

/-- The initiator that holds an operator or private channel page reaches it by HCP only; firmware uses MBF. -/
def hcpOnly (s : State) (src : Src) (k : State → State) : State := match src with
  | .hcp _ _ => k s
  | .fab _ => s

/-- Whole frames, or push messages in SENSE and BOOT (R375), enter TX together (R370). -/
def txWrite (s : State) (src : Src) (c : Nat) (beats : List (DWord × Byte)) : State :=
  let ch := channel s c
  match strobedWords beats with
  | none => refuse s src (chanLoc c 0x100) (chanAddr c 0x100) .edecode
  | some ws =>
    if !wholeFrames (txLen s c) (queueSize c) (ws.length + 1) ws then refuse s src (chanLoc c 0x100) (chanAddr c 0x100) .edecode
    else if queueSize c < ch.tx.length + ws.length then refuse s src (chanLoc c 0x100) (chanAddr c 0x100) .efull
    else
      let s1 := setChannel s c { ch with tx := ch.tx ++ ws }
      respond (if ws.isEmpty then s1 else fwEvent s1 (pgFw 0x10) 1) src .ok

/-- A write to MB_TX. -/
def execMbTxWrite (src : Src) (ch : Chan) (beats : List (DWord × Byte)) (s : State) : Host.Outcome State Fault Refusal :=
  .next (hcpOnly s src (fun s => access s src (chanLoc ch.num 0x100) (chanAddr ch.num 0x100) true
    (fun s => txWrite s src ch.num beats)))

/-- A read of MB_RX removes the head frame only when it asks for exactly its length (R371); the next frame, and any reply
that now fits, follow. -/
def rxRead (s : State) (src : Src) (c beats : Nat) : State :=
  let ch := channel s c
  let f := headFrame (rxLen c) ch.rx
  if f.isEmpty || (f.length + 1) / 2 ≠ beats then respond s src .ok (List.replicate beats 0)
  else
    let rest := ch.rx.drop f.length
    let s1 := setChannel s c { ch with rx := rest, marks := ch.marks.drop 1 }
    let s2 := rxHead s1 c
    let data := (List.range beats).map (fun i =>
      BitVec.ofNat 64 ((f.getD (2 * i) 0).toNat + 2 ^ 32 * (f.getD (2 * i + 1) 0).toNat))
    respond (rxPump (channel s2 c).replies.length s2 c) src .ok data

/-- The admissions whose last reply frame leaves RX unread end with it (R337). -/
def rxDropped (s : State) (c : Nat) : State :=
  (channel s c).marks.foldl (fun t m => if m = 2 then masterEnd t (chanPid c) else t) s

/-- What a channel's reset, flush or Quench discards (R374, R326): both queues, the notification queue, messages in
assembly, requests and replies still to come, and the version. -/
def channelClear (s : State) (c : Nat) : State :=
  let ch := channel s c
  let s1 := ch.outst.foldl (fun t o => if o.master then masterEnd t (chanPid c) else t) (rxDropped s c)
  setChannel s1 c channelReset

/-- A channel holds no negotiated version (R96). -/
def noVersion (s : State) (c : Nat) : State := setChannel s c { channel s c with version := none }
/-- PG_CTRL.RESET of operator channel `n` is set (R374); it stays 1 until RESET_DONE. -/
def operChanReset (s : State) (n : Nat) : State :=
  let s1 := channelClear s (64 + n)
  let h := hdr s1 (pgOp (n + 1))
  fwEvent (setHdr s1 (pgOp (n + 1)) { h with ctrl := h.ctrl ||| 1 }) (pgFw 0x10) 2
/-- A write of 1 to PG_CTRL.RESET of an operator channel page. -/
def execChannelReset (src : Src) (n : BitVec 2) (s : State) : Host.Outcome State Fault Refusal :=
  .next (hcpOnly s src (fun s => access s src (.oper (n.toNat + 1) 8) (0x80000 + (n.toNat + 1) * 0x1000 + 8) true (fun s =>
    respond (operChanReset s n.toNat) src .ok)))

/-! ## The MBOX page (R539) -/

def mbPortReset : MbPort := { result := 0, words := 0, frame := [] }
def mbPort (s : State) (w : Who) : MbPort := smGet mbPortReset s.mbox.ports w.num
def setMbPort (s : State) (w : Who) (p : MbPort) : State :=
  { s with mbox := { s.mbox with ports := smSet mbPortReset s.mbox.ports w.num p } }
/-- MBF_SEL of an initiator. -/
def mbfSel (s : State) (w : Who) : Nat := fld (reg s (whoKey w 0x10040)) 6 0
/-- JTAG has no MBF registers (R539). -/
def mbfOk (s : State) (w : Who) (k : State → State) : State := ownCore s w k

/-- FLUSH discards both queues, the notification queue and the negotiated version. -/
def execMbfFlush (w : Who) (s : State) : Host.Outcome State Fault Refusal :=
  .next (mbfOk s w (fun s =>
    let c := mbfSel s w
    if 68 ≤ c then answer (setMbPort s w { mbPort s w with result := 1 }) .ok
    else
      let ch := channel s c
      let s1 := setChannel (rxDropped s c) c { ch with tx := [], rx := [], marks := [], notes := [], version := none }
      answer (setMbPort (queueFrames s1 c []) w { mbPort s w with result := 0 }) .ok))

/-- RESET_DONE clears PG_CTRL.RESET of an operator channel page. -/
def execMbfResetDone (w : Who) (s : State) : Host.Outcome State Fault Refusal :=
  .next (mbfOk s w (fun s =>
    let c := mbfSel s w
    if 68 ≤ c then answer (setMbPort s w { mbPort s w with result := 1 }) .ok
    else
      let s1 := setMbPort s w { mbPort s w with result := 0 }
      if operChan c then
        let h := hdr s1 (pgOp (c - 64 + 1))
        let s2 := setHdr s1 (pgOp (c - 64 + 1)) { h with ctrl := putFld h.ctrl 0 0 0 }
        answer (rxPump (channel s2 c).replies.length s2 c) .ok
      else answer s1 .ok))

/-- TAKE moves the head frame of TX into the frame buffer; the frame enters the channel's assembly (R377). -/
def execMbfTake (w : Who) (s : State) : Host.Outcome State Fault Refusal :=
  .next (mbfOk s w (fun s =>
    let c := mbfSel s w
    if 68 ≤ c then answer (setMbPort s w { mbPort s w with result := 1 }) .ok
    else
      let ch := channel s c
      let f := headFrame (txLen s c) ch.tx
      if f.isEmpty then answer (setMbPort s w { mbPort s w with result := 2 }) .ok
      else
        let rest := ch.tx.drop f.length
        let s1 := setMbPort (setChannel s c { ch with tx := rest }) w { result := 0, words := f.length, frame := f }
        let s2 := if rest.isEmpty then chanEvent s1 c 2 else s1
        answer (if serving s2 then takeFrame s2 c f else s2) .ok))

/-- Whole frames appended to RX by firmware (R539). -/
def rxAppend (s : State) (c : Nat) (ws : List Word) : State :=
  let fs := (List.range ws.length).foldl (fun (acc : List (List Word) × List Word) _ => match acc.2 with
    | [] => acc
    | h :: _ => (acc.1 ++ [acc.2.take (rxLen c h + 1)], acc.2.drop (rxLen c h + 1))) ([], ws)
  fs.1.foldl (fun t f => rxPut t c { words := f, answers := true }) s

/-- A write to MBF_RX. -/
def execMbfRxAppend (w : Who) (words : List Word) (s : State) : Host.Outcome State Fault Refusal :=
  .next (mbfOk s w (fun s =>
    let c := mbfSel s w
    let ch := channel s c
    if 68 ≤ c || !wholeFrames (rxLen c) (queueSize c) (words.length + 1) words then
      refuse s (.fab w) (.fw 0x10 0x200) 0x10200 .edecode
    else if resetReq s c then answer s .edown
    else if queueSize c < ch.rx.length + words.length then answer s .efull
    else answer (rxAppend s c words) .ok))

/-- A write to MBF_VERSION (R539). -/
def execMbfVersionWrite (w : Who) (v : Word) (s : State) : Host.Outcome State Fault Refusal :=
  .next (mbfOk s w (fun s =>
    let c := mbfSel s w
    if 68 ≤ c then answer s .ok
    else answer (setChannel s c { channel s c with
      version := if bitOf v 16 then some (BitVec.ofNat 8 (fld v 15 8), BitVec.ofNat 8 (fld v 7 0)) else none }) .ok))

/-! ## VERSION and ECHO -/

/-- The versions firmware supports: (major, highest minor). DESIGN CHOICE: the spec fixes none (log entry 12). -/
def wspVersions : List (Nat × Nat) := [(1, 0)]

/-- The support words of a VERSION reply. -/
def supportWords : List Word := wspVersions.map (fun v => w32 (v.1 * 256 + v.2))

/-- The version R98 chooses: the highest common major with the lower of the minors. -/
def chooseVersion (offers : List Word) : Option (Nat × Nat) :=
  let common := wspVersions.filterMap (fun v =>
    (offers.find? (fun o => decide (fld o 15 8 = v.1))).map (fun o => (v.1, Nat.min v.2 (fld o 7 0))))
  common.foldl (fun acc v => match acc with | none => some v | some a => if a.1 < v.1 then some v else acc) none

/-- R98 for a channel. -/
def negotiate (s : State) (c tag : Nat) (offers : List Word) : State :=
  match chooseVersion offers with
  | none => reply (setChannel s c { channel s c with version := none }) c tag 1 (w32 (2 ^ 24) :: supportWords)
  | some (a, b) =>
    reply (setChannel s c { channel s c with version := some (BitVec.ofNat 8 a, BitVec.ofNat 8 b) }) c tag 1
      (w32 (a * 256 + b) :: supportWords)

/-- VERSION (R97 to R99). -/
def wspVersion (s : State) (c tag : Nat) (body : List Word) : State :=
  let n := fld (body.headD 0) 31 24
  if n = 0 || 4 < n || body.length ≠ n + 1 then replyError s c tag 2 1
  else
    let offers := body.drop 1
    match (channel s c).version with
    | none => negotiate s c tag offers
    | some (a, b) =>
      let held := w32 (2 * 2 ^ 24 + a.toNat * 256 + b.toNat)
      if operChan c then
        if offers.any (fun o => decide (fld o 15 8 = a.toNat ∧ b.toNat ≤ fld o 7 0)) then
          reply s c tag 1 (w32 (a.toNat * 256 + b.toNat) :: supportWords)
        else reply s c tag 1 (held :: supportWords)
      else if 1 < (channel s c).outst.length then reply s c tag 1 (held :: supportWords)
      else negotiate s c tag offers

/-- VERSION. -/
def execVersion (ch : Chan) (tag : BitVec 6) (s : State) : Host.Outcome State Fault Refusal :=
  .next (withRequest s ch tag 0x0001 (fun s _ body => wspVersion s ch.num tag.toNat body))

/-- ECHO returns its 0 to 7 body words after a zero result word (Table 13-15); a longer body is refused as BAD_FRAME. -/
def execEcho (ch : Chan) (tag : BitVec 6) (s : State) : Host.Outcome State Fault Refusal :=
  .next (withRequest s ch tag 0x0003 (fun s _ body =>
    if 7 < body.length then replyError s ch.num tag.toNat 2 3 else reply s ch.num tag.toNat 3 (0 :: body)))

end Sys2Proof.Machine
end

