-- ==== Sys2Proof/Machine/Tally.lean ====
section
/-! DEFINITION. Tallies: values, access lists, wait entries and their actions, doorbells, and the commands of P_TALLY and
the TALY page (R355 to R367, R383, R538). -/
namespace Sys2Proof.Machine

/-! ## Stores -/

def waitReset : WaitE := { thr := 0, action := 0x10, arg := 0, state := 0, seq := 0 }
def aclReset : BitVec 7 := 0x2F
def tallyValue (s : State) (t : Nat) : DWord := smGet 0 s.tl.value t
def setValue (s : State) (t : Nat) (v : DWord) : State := { s with tl := { s.tl with value := smSet 0 s.tl.value t v } }
def tallyAcl (s : State) (t : Nat) : BitVec 7 := smGet aclReset s.tl.acl t
def setAcl (s : State) (t : Nat) (a : BitVec 7) : State := { s with tl := { s.tl with acl := smSet aclReset s.tl.acl t a } }
def waitEntry (s : State) (t e : Nat) : WaitE := smGet waitReset s.tl.entry (2 * t + e)
def setEntry (s : State) (t e : Nat) (w : WaitE) : State :=
  { s with tl := { s.tl with entry := smSet waitReset s.tl.entry (2 * t + e) w } }
def doorbell (s : State) (pid n : Nat) : Word := smGet 0 s.tl.db (32 * pid + n)
def setDoorbell (s : State) (pid n : Nat) (w : Word) : State :=
  { s with tl := { s.tl with db := smSet 0 s.tl.db (32 * pid + n) w } }
/-- The sequence number that the Tally arbiter gives its next operation (R21, R356). -/
def nextSeq (s : State) : Nat := s.tl.seq
/-- The arbiter orders an operation on Tally `t`. -/
def orderOp (s : State) (t : Nat) : State :=
  { s with tl := { s.tl with seq := (s.tl.seq + 1) % 2 ^ 20, opSeq := smSet 0 s.tl.opSeq t s.tl.seq } }

/-- Table 13-2: ADD saturates at 2^64 - 1. -/
def satAdd64 (a b : Nat) : DWord := BitVec.ofNat 64 (Nat.min (2 ^ 64 - 1) (a + b))

/-! ## Actions (Table 13-3) -/

/-- The index a Tally has for its owner: window slot, or firmware or operator number (Table 13-1). -/
def ownIndex (s : State) (owner t : Nat) : Nat :=
  if owner = 1 then t - 16320 else if owner = 0 then t - 16256 else t - s.part.active.pTallyBase owner

/-- DOORBELL: ORs into the word; the page event is set when it leaves 0 (R364). -/
def ringDoorbell (s : State) (pid n : Nat) (arg : Word) : State :=
  let old := doorbell s pid n
  let s1 := setDoorbell s pid n (old ||| arg)
  if old = 0 && (old ||| arg) ≠ 0 then winEvent s1 pid 2 1 else s1

/-- The channel of a WORD action and its word (Table 13-12). -/
def noteOf (arg : Word) (e idx : Nat) : Word := w32 (2 ^ 31 + fld arg 18 0 * 4096 + e * 2048 + idx)
def noteChan (owner : Nat) (arg : Word) : Nat := if owner = 1 then 64 + fld arg 21 20 else owner - 2

/-- The effect of a firing whose owner is not sealed. -/
def actNow (s : State) (owner t e : Nat) (w : WaitE) (cls : Nat) : State :=
  match fld w.action 2 0 with
  | 1 => ringDoorbell s owner (fld w.action 12 8) w.arg
  | 2 => postEvent s owner (fld w.action 23 16) cls true
  | 3 => noteWord s (noteChan owner w.arg) (noteOf w.arg e (ownIndex s owner t))
  | 4 => closeTrig s owner (fld w.arg 15 0) true
  | 5 => { s with irq := { s.irq with coreInt := s.irq.coreInt ||| BitVec.ofNat 4 (2 ^ fld w.arg 1 0) } }
  | _ => s

/-- What a sealed owner observes of a firing waits for its release (R346). -/
def sealedEff (s : State) (owner t e : Nat) (w : WaitE) (cls : Nat) : Option Sealed :=
  match fld w.action 2 0 with
  | 1 => some (.doorbell (fld w.action 12 8) w.arg)
  | 2 => some (.post (fld w.action 23 16) cls)
  | 3 => some (.word (noteOf w.arg e (ownIndex s owner t)))
  | _ => none

/-- Dispatches a firing's action; `charge`: an admitted Master request ends when the action has taken place (R337). -/
def act (s : State) (owner t e : Nat) (w : WaitE) (cls : Nat) (charge : Bool) : State :=
  match if sealed s owner then sealedEff s owner t e w cls else none with
  | some eff => { s with qos := { s.qos with held := s.qos.held ++ [{ pid := owner, eff := eff, master := charge }] } }
  | none =>
    let s1 := actNow s owner t e w cls
    if charge then masterEnd s1 owner else s1

/-! ## Firing (R361, R336) -/

/-- How the operation that evaluates the entries stands at admission: an admitted Master operation, one demoted at
admission, or any other (another class, a service signal, a WAIT). -/
inductive OpClass where
  | admitted | demoted | other
deriving DecidableEq, Repr

/-- Entry `e` fires when it is ARMED and its threshold is at or below the value. The flag says that the operation's own
admission has still to end. -/
def evalEntry (owner t seq : Nat) (oc : OpClass) (acc : State × Bool) (e : Nat) : State × Bool :=
  let s := acc.1
  let w := waitEntry s t e
  if w.state ≠ 1 || (tallyValue s t).toNat < w.thr.toNat then acc
  else
    let s1 := setEntry s t e { w with state := 2, seq := seq }
    let s2 := { s1 with tl := { s1.tl with fired := satInc s1.tl.fired } }
    let cls := fld w.action 5 4
    if cls ≠ 0 || owner = 0 then (act s2 owner t e w cls false, acc.2)
    else match oc with
      | .admitted => (act s2 owner t e w 0 acc.2, false)
      | .demoted => (act s2 owner t e w 1 false, acc.2)
      | .other =>
        let (ok, s3) := grantMaster s2 owner
        (act s3 owner t e w (if ok then 0 else 1) ok, acc.2)

/-- The arbiter's decision after an operation: entry 0, then entry 1 (R361). -/
def evalTally (s : State) (t seq : Nat) (oc : OpClass) : State :=
  match tallyOwner s t with
  | none => ([0, 1].foldl (evalEntry 0 t seq .demoted) (s, false)).1
  | some owner =>
    let (s1, open') := [0, 1].foldl (evalEntry owner t seq oc) (s, decide (oc = .admitted))
    if open' then masterEnd s1 owner else s1

/-- An operation that sets the value to `f value`. -/
def tallyOp (s : State) (t : Nat) (f : DWord → DWord) (oc : OpClass) : State :=
  let seq := nextSeq s
  let s1 := orderOp s t
  evalTally (setValue s1 t (f (tallyValue s1 t))) t seq oc

def signalOp (s : State) (t : Nat) (oc : OpClass) : State := tallyOp s t (fun v => satAdd64 v.toNat 1) oc
def addOp (s : State) (t a : Nat) (oc : OpClass) : State := tallyOp s t (fun v => satAdd64 v.toNat a) oc
def setValueOp (s : State) (t : Nat) (x : DWord) (oc : OpClass) : State := tallyOp s t (fun _ => x) oc

/-- A service's SIGNAL on slot `k` of a partition (R356): discarded when the slot is not assigned. -/
def serviceSignal (s : State) (pid : Nat) (k : Nat) : State :=
  match tallyOfSlot s pid k with
  | some t => signalOp s t .other
  | none => s
/-- A service's SIGNAL on an operator Tally. -/
def operSignal (s : State) (k : Nat) : State := if k < 64 then signalOp s (16320 + k) .other else s
/-- A service's SIGNAL on a firmware Tally (R356). -/
def fwSignal (s : State) (k : Nat) : State := if k < 64 then signalOp s (16256 + k) .other else s

/-! ## Clearing (R367) -/

/-- Clears one Tally. -/
def clearTally (s : State) (t : Nat) : State :=
  setEntry (setEntry (setAcl (setValue s t 0) t aclReset) t 0 waitReset) t 1 waitReset
/-- Clears a range, as one decision of the arbiter. -/
def clearRange (s : State) (base : Nat) : Nat → State
  | 0 => s
  | n + 1 => clearRange (clearTally s base) (base + 1) n
/-- Every doorbell word of a PID becomes 0. -/
def clearDoorbells (s : State) (pid : Nat) : State :=
  { s with tl := { s.tl with db := s.tl.db.filter (fun c => decide (c.1 / 32 ≠ pid)) } }
/-- Every Tally of a partition, and its doorbell words, at step 5 of a Quench (R326). -/
def clearPartTallies (s : State) (pid : Nat) : State :=
  clearDoorbells (clearRange s (s.part.active.pTallyBase pid) (s.part.active.pTallyCount pid)) pid

/-! ## Slot operations (R356 to R359) -/

/-- The Tally that a slot access names: `slot` is the window slot of the tag's PID on HCP, the Tally on the fabric. -/
def slotAccess (s : State) (src : Src) (slot off : Nat) (aclBit : Nat) (f : State → Nat → OpClass → State) : State :=
  match src with
  | .fab _ => access s src (.fwTally slot off) (0x40000 + 16 * slot + off) true (fun s =>
      respond (f s slot .other) src .ok)
  | .hcp tag _ =>
    let pid := tagPid tag
    let l : Loc := .slot pid (slot % 2048) off
    let a := winBase pid + 0x8000 + 16 * (slot % 2048) + off
    if !tenant pid then refuseForeign s src a
    else access s src l a true (fun s =>
      match tallyOfSlot s pid (slot % 2048) with
      | none => s
      | some t =>
        let acl := tallyAcl s t
        if !acl.getLsbD aclBit then refuse s src l a .elock
        else if fld (w32 acl.toNat) 6 5 = 0 then
          let (ok, s1) := grantMaster s pid
          respond (f s1 t (if ok then .admitted else .demoted)) src .ok
        else respond (f s t .other) src .ok)

/-- The keys of the staging registers of a Tally's TV pair: the five initiators' of the firmware window, and that of its owner's
window slot (R89, R90). -/
def tallyStages (s : State) (t : Nat) : List Nat :=
  [Who.bc, .sc1, .sc2, .sc3, .jtag].map (fun w => whoKey w (0x40000 + 16 * t)) ++
  (match tallyOwner s t with
   | some p => if tenant p then [winBase p + 0x8000 + 16 * (t - s.part.active.pTallyBase p)] else []
   | none => [])
/-- SET of a Tally by a write of TV_HI or of the whole pair: every staging register of the pair holds the low half written (R90). -/
def slotSetOp (s : State) (t : Nat) (value : DWord) (oc : OpClass) : State :=
  let s1 := setValueOp s t value oc
  { s1 with wstage := (tallyStages s1 t).foldl (fun m k => smSet 0 m k (w32 value.toNat)) s1.wstage }

/-- SIGNAL. -/
def execTallySignal (src : Src) (slot : BitVec 14) (s : State) : Host.Outcome State Fault Refusal :=
  .next (slotAccess s src slot.toNat 8 0 signalOp)
/-- ADD. -/
def execTallyAdd (src : Src) (slot : BitVec 14) (addend : Word) (s : State) : Host.Outcome State Fault Refusal :=
  .next (slotAccess s src slot.toNat 12 1 (fun s t oc => addOp s t addend.toNat oc))
/-- SET: one beat over TV_LO and TV_HI; the staging register holds the low half afterwards (R90, R91). -/
def execTallySet (src : Src) (slot : BitVec 14) (value : DWord) (s : State) : Host.Outcome State Fault Refusal :=
  .next (slotAccess s src slot.toNat 0 2 (fun s t oc => slotSetOp s t value oc))

/-! ## Commands (R363, R365, R538) -/

/-- The registers of one set: the TALY page for a firmware initiator, P_TALLY for a partition. -/
structure TlRegs where
  base : Nat
  view : Nat
  fw   : Bool

def tlPortReset : TlPort := { result := 0, seq := 0, st := 0, stSeq := 0 }
def tlPort (s : State) (v : Nat) : TlPort := smGet tlPortReset s.tl.ports v
def setTlPort (s : State) (v : Nat) (p : TlPort) : State :=
  { s with tl := { s.tl with ports := smSet tlPortReset s.tl.ports v p } }

def tlRegs (src : Src) : TlRegs :=
  match src with
  | .fab w => { base := whoKey w 0xF000, view := w.num, fw := true }
  | .hcp tag _ => { base := winBase (tagPid tag) + 0x2000, view := 256 + tagPid tag, fw := false }

/-- The Tally that TL_SEL names, if any. -/
def tlTally (s : State) (src : Src) : Option Nat :=
  let sel := reg s ((tlRegs src).base + 0x40)
  match src with
  | .fab _ => some (fld sel 13 0)
  | .hcp tag _ => tallyOfSlot s (tagPid tag) (fld sel 10 0)
def tlEntry (s : State) (src : Src) : Nat := fld (reg s ((tlRegs src).base + 0x40)) 16 16

/-- R363: whether a WAIT with these operands is refused with BAD_ARG. -/
def badWait (s : State) (owner : Option Nat) (action : Word) : Bool :=
  let a := fld action 2 0
  let v := fld action 23 16
  match owner with
  | none => a ≠ 0
  | some 0 => !(a = 0 || a = 5)
  | some 1 => !(a = 0 || a = 3 || (a = 2 && 8 ≤ v))
  | some p => !(a ≤ 4) || (a = 2 && vectors s p ≤ v)

/-- What a TL_CMD leaves in RESULT, SEQ and TL_STATE. -/
def tlDone (s : State) (view result seq : Nat) (w : WaitE) : State :=
  setTlPort s view { result := result, seq := seq, st := w.state, stSeq := w.seq }

/-- WAIT on entry `e` of Tally `t` with these operands: result, sequence number, state (R365). -/
def waitOp (s : State) (t e : Nat) (thr : DWord) (action arg : Word) (aclOk : Bool) : Nat × Nat × State :=
  let seq := nextSeq s
  let s1 := orderOp s t
  if !aclOk then (7, seq, s1)
  else if badWait s1 (tallyOwner s1 t) action then (6, seq, s1)
  else if (waitEntry s1 t e).state = 1 then (5, seq, s1)
  else
    let s2 := setEntry s1 t e { thr := thr, action := action, arg := arg, state := 1, seq := seq }
    let s3 := evalTally s2 t seq .other
    (if (waitEntry s3 t e).state = 2 then 1 else 0, seq, s3)

/-- CANCEL (R365). -/
def cancelOp (s : State) (t e : Nat) (aclOk : Bool) : Nat × Nat × State :=
  let seq := nextSeq s
  let s1 := orderOp s t
  let w := waitEntry s1 t e
  if !aclOk then (7, seq, s1)
  else match w.state with
    | 1 => (2, seq, setEntry s1 t e { w with state := 3, seq := seq })
    | 2 => (3, seq, s1)
    | _ => (4, seq, s1)

/-- An access to TL_CMD. -/
def tlAccess (s : State) (src : Src) (k : State → State) : State :=
  match src with
  | .fab _ => access s src (.fw 0xF 0x54) 0xF054 true (fun s => respond (k s) src .ok)
  | .hcp tag _ =>
    if !tenant (tagPid tag) then refuseForeign s src (winBase (tagPid tag) + 0x2054)
    else access s src (.win (tagPid tag) 2 0x54) (winBase (tagPid tag) + 0x2054) true (fun s => respond (k s) src .ok)

/-- Offers a class-0 CANCEL or READ to admission; it ends at once (R336, R337). -/
def tlClass (s : State) (src : Src) (t : Nat) : State :=
  match src with
  | .fab _ => s
  | .hcp tag _ =>
    if fld (w32 (tallyAcl s t).toNat) 6 5 = 0 then
      let (ok, s1) := grantMaster s (tagPid tag)
      if ok then masterEnd s1 (tagPid tag) else s1
    else s

/-- The ENTRY bit permits WAIT and CANCEL from a window; firmware is not subject to it (R538). -/
def entryOk (s : State) (src : Src) (t : Nat) : Bool :=
  match src with
  | .fab _ => true
  | .hcp _ _ => (tallyAcl s t).getLsbD 3

/-- WAIT. A slot at or above TALLY_COUNT gives BAD_ARG. -/
def execTlWait (src : Src) (s : State) : Host.Outcome State Fault Refusal :=
  .next (tlAccess s src (fun s =>
    let r := tlRegs src
    match tlTally s src with
    | none => setTlPort s r.view { tlPort s r.view with result := 6, seq := nextSeq s }
    | some t =>
      let e := tlEntry s src
      let thr := BitVec.ofNat 64 ((reg s (r.base + 0x48)).toNat + 2 ^ 32 * (reg s (r.base + 0x4C)).toNat)
      let (res, seq, s1) := waitOp s t e thr (reg s (r.base + 0x44)) (reg s (r.base + 0x50)) (entryOk s src t)
      tlDone s1 r.view res seq (waitEntry s1 t e)))

/-- CANCEL. -/
def execTlCancel (src : Src) (s : State) : Host.Outcome State Fault Refusal :=
  .next (tlAccess s src (fun s =>
    let r := tlRegs src
    match tlTally s src with
    | none => setTlPort s r.view { tlPort s r.view with result := 6, seq := nextSeq s }
    | some t =>
      let e := tlEntry s src
      let (res, seq, s1) := cancelOp (tlClass s src t) t e (entryOk s src t)
      tlDone s1 r.view res seq (waitEntry s1 t e)))

/-- READ loads TL_ACTION, TL_THR, TL_ARG, TL_STATE and TL_ACL and gives OK with the last operation's number. -/
def execTlRead (src : Src) (s : State) : Host.Outcome State Fault Refusal :=
  .next (tlAccess s src (fun s =>
    let r := tlRegs src
    match tlTally s src with
    | none => setTlPort s r.view { tlPort s r.view with result := 6, seq := nextSeq s }
    | some t =>
      let e := tlEntry s src
      let s := tlClass s src t
      let w := waitEntry s t e
      let lo := w32 w.thr.toNat
      let hi := w32 (w.thr.toNat / 2 ^ 32)
      let s1 := setReg (setReg (setReg (setReg s (r.base + 0x44) w.action) (r.base + 0x48) lo) (r.base + 0x4C) hi)
        (r.base + 0x50) w.arg
      let s2 := setReg s1 (r.base + 0x5C) (w32 (tallyAcl s t).toNat)
      let s3 := { s2 with wstage := smSet 0 s2.wstage (r.base + 0x48) lo }
      tlDone s3 r.view 8 (smGet 0 s.tl.opSeq t) w))

/-- SET_ACL; firmware ignores LOCK (R538). -/
def execTlSetAcl (src : Src) (s : State) : Host.Outcome State Fault Refusal :=
  .next (tlAccess s src (fun s =>
    let r := tlRegs src
    match tlTally s src with
    | none => setTlPort s r.view { tlPort s r.view with result := 6, seq := nextSeq s }
    | some t =>
      if !r.fw && (tallyAcl s t).getLsbD 4 then setTlPort s r.view { tlPort s r.view with result := 7 }
      else
        let s1 := setAcl s t (BitVec.ofNat 7 (reg s (r.base + 0x5C)).toNat)
        setTlPort s1 r.view { tlPort s1 r.view with result := 8 }))

/-- CLEAR (R538): the range in TL_CLR, and the doorbell words of the PID in TL_CLR_PID. -/
def execTlClear (w : Who) (s : State) : Host.Outcome State Fault Refusal :=
  .next (tlAccess s (.fab w) (fun s =>
    let base := fld (reg s (whoKey w 0xF060)) 13 0
    let count := fld (reg s (whoKey w 0xF060)) 27 16
    let pid := fld (reg s (whoKey w 0xF064)) 7 0
    if 16384 < base + count || count = 0 || !(pid = 0 || tenant pid) then
      setTlPort s w.num { tlPort s w.num with result := 6 }
    else
      let s1 := clearRange s base count
      let s2 := if pid = 0 then s1 else clearDoorbells s1 pid
      setTlPort s2 w.num { tlPort s2 w.num with result := 8 }))

/-- Counts for TL_ARMED and TL_FREE. -/
def armedCount (s : State) : Nat := (s.tl.entry.filter (fun c => decide (c.2.state = 1))).length
def freeTallies (s : State) : Nat :=
  16256 - listSum (s.part.active.pids.map (fun p => s.part.active.pTallyCount p))

/-! ## OPER_TALLY (R383) -/

/-- The reply of OPER_TALLY. -/
def operTallyReply (s : State) (c tag t e res seq : Nat) : State :=
  let v := (tallyValue s t).toNat
  reply s c tag 0x0103 [w32 (res * 2 ^ 24 + seq), w32 v, w32 (v / 2 ^ 32), w32 (waitEntry s t e).state]

/-- How an operation of an OPER_TALLY request stands at admission: the request itself was offered to it. -/
def reqClass (s : State) (c tag cls : Nat) : OpClass :=
  if cls ≠ 0 then .other
  else match (channel s c).outst.find? (fun o => decide (o.tag = tag)) with
    | some o => if o.master then .admitted else .demoted
    | none => .other

/-- An operation inside a request: the request's own admission ends with its reply, not with the operation. -/
def operEval (s : State) (t seq : Nat) (oc : OpClass) : State := ([0, 1].foldl (evalEntry 1 t seq oc) (s, false)).1

/-- OPER_TALLY: a body of five words. -/
def operTally (s : State) (c tag cls : Nat) (body : List Word) : State :=
  let w0 := body.getD 0 0
  let e := fld w0 8 8
  let t := 16320 + fld w0 5 0
  let v := BitVec.ofNat 64 ((body.getD 1 0).toNat + 2 ^ 32 * (body.getD 2 0).toNat)
  let oc := reqClass s c tag cls
  if body.length ≠ 5 then replyError s c tag 2 0x0103
  else match fld w0 31 28 with
    | 1 => operTallyReply s c tag t e 8 (smGet 0 s.tl.opSeq t)
    | 2 =>
      let seq := nextSeq s
      let s1 := orderOp s t
      let s2 := operEval (setValue s1 t (satAdd64 (tallyValue s1 t).toNat 1)) t seq oc
      operTallyReply s2 c tag t e 8 seq
    | 3 =>
      let seq := nextSeq s
      let s1 := operEval (setValue (orderOp s t) t v) t seq oc
      operTallyReply s1 c tag t e 8 seq
    | 4 =>
      let (res, seq, s1) := waitOp s t e v (body.getD 3 0) (body.getD 4 0) true
      operTallyReply s1 c tag t e res seq
    | 5 =>
      let (res, seq, s1) := cancelOp s t e true
      operTallyReply s1 c tag t e res seq
    | _ => reply s c tag 0x0103 [w32 (6 * 2 ^ 24), 0, 0, 0]

/-- OPER_TALLY. -/
def execOperTally (ch : Chan) (tag : BitVec 6) (s : State) : Host.Outcome State Fault Refusal :=
  .next (withRequest s ch tag 0x0103 (fun s cls body => operTally s ch.num tag.toNat cls body))

end Sys2Proof.Machine
end

