-- ==== Sys2Proof/Machine/Hmk.lean ====
section
/-! DEFINITION. The HMK page: four places that each track a Hallmark in preparation (R523 to R526). -/
namespace Sys2Proof.Machine

def hmkPlaceReset : HmkPlace :=
  { held := false, assembling := false, stale := false, state := 0, gen := 0, pid := 0, ep := false, version := 0, time := 0 }
def hmkPlace (s : State) (k : Nat) : HmkPlace := smGet hmkPlaceReset s.hmk.places k
def setHmkPlace (s : State) (k : Nat) (p : HmkPlace) : State :=
  { s with hmk := { s.hmk with places := smSet hmkPlaceReset s.hmk.places k p } }
def setHmkResult (s : State) (r : Nat) : State := { s with hmk := { s.hmk with result := r } }

/-- A held place becomes stale, with the STALE event (R525). -/
def hmkMakeStale (s : State) (k : Nat) : State :=
  let p := hmkPlace s k
  if p.held && !p.stale then fwEvent (setHmkPlace s k { p with stale := true }) (pgFw 0x8) 1 else s

/-- The GEN of `pid` changes, or the partition leaves CONFIGURED, RUNNING and QUARANTINED: its held places become stale. -/
def hmkStalePid (s : State) (pid : Nat) : State :=
  [0, 1, 2, 3].foldl (fun t k => if (hmkPlace t k).pid = pid then hmkMakeStale t k else t) s

/-- Whether any place is ASSEMBLING (R526). -/
def hmkAssembling (s : State) : Bool := [0, 1, 2, 3].any (fun k => (hmkPlace s k).assembling)

/-- Whether TAKE may name this PID (R524). -/
def hmkPidOk (s : State) (pid : Nat) : Bool :=
  pid = 1 || (tenant pid && (pstate s pid = .configured || pstate s pid = .running || pstate s pid = .quarantined))

/-- The place as TAKE records it: partition state (7 for PID 1), GEN, PID, epoch and time. -/
def hmkSnapshot (s : State) (pid : Nat) : HmkPlace :=
  { held := true, assembling := true, stale := false, state := if pid = 1 then 7 else (pstate s pid).num,
    gen := genOf s pid, pid := pid, ep := s.epoch.curEp, version := s.epoch.curVersion, time := s.time % 2 ^ 64 }

/-- TAKE on place `k`: its result, in the order WINDOW, HELD, BAD_PID. -/
def hmkTake (s : State) (k pid : Nat) : Nat × State :=
  if s.epoch.window then (1, s)
  else if (hmkPlace s k).held then (2, s)
  else if !hmkPidOk s pid then (3, s)
  else (0, setHmkPlace s k (hmkSnapshot s pid))

/-- RELEASE on place `k`: OK or STALE frees the place and counts. -/
def hmkRelease (s : State) (k : Nat) : Nat × State :=
  let p := hmkPlace s k
  if !p.held then (5, s)
  else
    let s1 := setHmkPlace s k hmkPlaceReset
    if p.stale then (4, { s1 with hmk := { s1.hmk with staleCnt := satInc s1.hmk.staleCnt } })
    else (0, { s1 with hmk := { s1.hmk with issued := satInc s1.hmk.issued } })

/-- TAKE. -/
def execHmkTake (w : Who) (pid : Byte) (s : State) : Host.Outcome State Fault Refusal :=
  .next (byCore s w (fun s =>
    let (r, s1) := hmkTake s s.hmk.sel pid.toNat
    { s1 with hmk := { s1.hmk with result := r, pid := pid.toNat } }))

/-- SEAL clears ASSEMBLING; DEDUCED from Table 19-30: a place whose limit has passed answers OK and nothing changes. -/
def hmkSeal (s : State) (k : Nat) : Nat × State :=
  let p := hmkPlace s k
  if !p.held then (5, s) else (0, setHmkPlace s k { p with assembling := false })

/-- SEAL, before what waits for it is given its turn. -/
def hmkSealCmd (w : Who) (s : State) : State :=
  byCore s w (fun s => let (r, s1) := hmkSeal s s.hmk.sel; setHmkResult s1 r)

/-- The 0.5 ms limit of ASSEMBLING: STALE is set and ASSEMBLING clears. -/
def hmkLimit (s : State) (k : Nat) : State :=
  let p := hmkPlace s k
  if p.held && p.assembling then
    let s1 := hmkMakeStale s k
    setHmkPlace s1 k { hmkPlace s1 k with assembling := false }
  else s

end Sys2Proof.Machine
end

