-- ==== Sys2Proof/Machine/Derive.lean ====
section
/-! DEFINITION. Strongbox slots, the key derivation over them (R163, R164, R170 to R172), and what the Pattern Book stores with its
current version (R277). -/
namespace Sys2Proof.Machine

/-! ## Strongbox slots (R163, R164) -/

def slotReset : Slot := { key := 0, attr := 0 }
def slotOf (s : State) (n : Nat) : Slot := smGet slotReset s.sbox.slots n
def setSlot (s : State) (n : Nat) (v : Slot) : State :=
  { s with sbox := { s.sbox with slots := smSet slotReset s.sbox.slots n v } }
/-- An erase returns the slot to EMPTY. -/
def eraseSlot (s : State) (n : Nat) : State := setSlot s n slotReset
/-- Erases every slot of a list. -/
def eraseSlots (s : State) (ns : List Nat) : State := ns.foldl eraseSlot s
def Slot.use (v : Slot) : Nat := fld v.attr 2 0
def Slot.engine (v : Slot) : Nat := fld v.attr 27 24
def Slot.pid (v : Slot) : Nat := fld v.attr 15 8
def Slot.gen (v : Slot) : Nat := fld v.attr 23 18
def Slot.len (v : Slot) : Nat := fld v.attr 29 28
/-- The attribute word of Table 6-1. -/
def mkAttr (origin len engine gen pid use : Nat) : Word :=
  w32 ((origin % 4) * 2 ^ 30 + (len % 4) * 2 ^ 28 + (engine % 16) * 2 ^ 24 + (gen % 64) * 2 ^ 18 + (pid % 256) * 2 ^ 8 + use % 8)
/-- ERASE_PID: every slot bound to the PID. -/
def erasePid (s : State) (pid : Nat) : State :=
  { s with sbox := { s.sbox with slots := s.sbox.slots.filter (fun c => decide (c.2.pid ≠ pid)) } }
/-- ERASE_STALE: every slot bound to the PID whose GEN is not the current generation. -/
def eraseStale (s : State) (pid : Nat) : State :=
  { s with sbox := { s.sbox with
      slots := s.sbox.slots.filter (fun c => decide (c.2.pid ≠ pid ∨ c.2.gen = genOf s pid)) } }
/-- Bytes of a key length code. -/
def lenBytes (l : Nat) : Nat := match l with | 0 => 32 | 1 => 48 | _ => 64
/-- The key material of a slot as bytes, byte i in bits [8i + 7:8i] (DEDUCED from R171). -/
def keyBytes (v : Slot) : List Byte := leBytes (lenBytes v.len) v.key.toNat
def slotEmpty (s : State) (n : Nat) : Bool := (slotOf s n).use = 0

/-! ## Derivation (Tables 6-5, 6-6) -/

/-- The string of a label code (Table 6-6). -/
def hexDigit (n : Nat) : Char := if n < 10 then Char.ofNat (48 + n) else Char.ofNat (55 + n)
def hexByte (n : Nat) : String := String.ofList [hexDigit (n / 16), hexDigit (n % 16)]
def labelName (c : Nat) : String :=
  match c with
  | 0x01 => "CDI-STAGE1" | 0x02 => "IDENTITY" | 0x03 => "POD-KEM-ML" | 0x04 => "POD-KEM-EC" | 0x05 => "POD-TOKEN"
  | 0x10 => "DEVID-EC" | 0x11 => "DEVID-ML" | 0x12 => "ALIAS-EC" | 0x13 => "ALIAS-ML" | 0x14 => "PART-EC"
  | 0x15 => "PART-ML" | 0x16 => "SEAL" | 0x20 => "POD-LINK" | 0x21 => "POD-TIERC"
  | c => if 0x40 ≤ c ∧ c < 0x50 then "SPDM-KS-" ++ hexByte (c - 0x40) else "EXT-" ++ hexByte c
/-- Which context fields a label zeroes: SVN, PID, GEN, CTX, MEAS. -/
def labelZero (c : Nat) : Bool × Bool × Bool × Bool × Bool :=
  match c with
  | 0x01 => (false, true, true, true, false)
  | 0x02 | 0x03 | 0x04 | 0x10 | 0x11 => (true, true, true, true, true)
  | 0x05 | 0x20 | 0x21 | 0x22 => (true, true, true, false, true)
  | 0x12 | 0x13 => (false, true, true, true, false)
  | 0x14 | 0x15 => (false, false, false, false, true)
  | 0x16 => (false, true, true, false, false)
  | 0x40 | 0x41 | 0x42 | 0x43 | 0x44 | 0x45 | 0x46 | 0x47 | 0x48 | 0x49 | 0x4A | 0x4B | 0x4C | 0x4D | 0x4E | 0x4F => (true, false, false, false, true)
  | _ => (false, false, false, false, false)
/-- The 64 context bytes (Table 6-5). -/
def kdfContext (s : State) (label pid ctx : Nat) : List Byte :=
  let (zs, zp, zg, zc, zm) := labelZero label
  [BitVec.ofNat 8 s.fuse.sensed.lcs, 3, 1, 0] ++ leBytes 2 (if zs then 0 else s.sbox.svn.toNat) ++
  leBytes 1 (if zp then 0 else pid) ++ leBytes 1 (if zg || pid = 0 then 0 else genOf s pid) ++
  leBytes 8 (if zc then 0 else ctx) ++ leBytes 48 (if zm then 0 else s.sbox.meas.toNat)
/-- K_OUT for a label. -/
def deriveKey (s : State) (kin : List Byte) (label pid ctx len : Nat) : List Byte :=
  kdf kin (labelName label) (kdfContext s label pid ctx) (8 * lenBytes len)
/-- The key of label SEAL for an item number. -/
def sealKey (s : State) (n : Nat) : List Byte := deriveKey s (keyBytes (slotOf s 0)) 0x16 0 n 0

/-! ## The Pattern Book's seal (R277, R547) -/

/-- The bundle of a version, with the fields marked KX3 filled in. -/
def bundleBytes (v : Version) (base : Nat) : List Byte :=
  let b := v.bank
  let part (p : Nat) : List Byte := (List.range 16).flatMap (fun w =>
    let x := b.pword p w
    leBytes 4 (if w = 0 then
      let sh := smGet pshareReset v.shared p
      putFld (putFld x 19 17 sh.state.num) 13 8 sh.gen else x).toNat)
  let regn (i : Nat) : List Byte := (List.range 4).flatMap (fun w =>
    let x := b.rword i w
    let r := smGet rshareReset v.regions i
    leBytes 4 (if w = 2 then putFld (putFld (putFld x 17 16 r.state) 6 6 (b2n r.fenced)) 5 0 r.rgen
      else if w = 3 then putFld x 28 16 i else x).toNat)
  let srcs := b.src.filter (fun c => decide (fld c.2 31 24 ≠ 0))
  let sect (ty n : Nat) (bs : List Byte) : List Byte := leBytes 2 ty ++ [0, 0] ++ leBytes 4 n ++ bs
  let body := sect 1 b.pids.length (b.pids.flatMap part) ++ sect 2 b.regions.length (b.regions.flatMap regn) ++
    sect 3 srcs.length (srcs.flatMap (fun c => leBytes 4 (fld c.2 31 24 * 2 ^ 16 + c.1)))
  let head := [0x4B, 0x58, 0x50, 0x42, 1, 0] ++ leBytes 2 base ++ leBytes 4 (68 + body.length) ++ leBytes 2 3 ++
    leBytes 2 0xFFFF ++ List.replicate 48 0
  head ++ body ++ leBytes 4 (crc32c (head ++ body)).toNat
/-- A full version as the Pattern Book holds it; the encoding is firmware's own (DESIGN CHOICE, log entry 91). -/
def bookBytes (v : Version) : List Byte :=
  bundleBytes v v.num ++ [BitVec.ofNat 8 (b2n v.ep)] ++ v.bank.src.flatMap (fun c => leBytes 4 c.2.toNat) ++
    v.bank.regions.flatMap (fun i => leBytes 4 (v.bank.rword i 2).toNat)
/-- The SHA-384 digest and the KMAC256 tag under the SEAL key of item 1; without slot 0 there is no tag. -/
def bookSealed (s : State) (v : Version) : Option (List Byte × List Byte) :=
  if slotEmpty s 0 then none else some (sha384 (bookBytes v), kmac256 (sealKey s 1) (bookBytes v) 256 [])

end Sys2Proof.Machine
end

