-- ==== Sys2Proof/Machine/Base.lean ====
section
/-! DEFINITION. The parts of other services that a change of a partition's generation or state discards: Strongbox slots,
sessions, weight results, translation state, Assay records of a partition (R164, R175, R246, R303, R326). -/
namespace Sys2Proof.Machine

/-! ## Sessions and weight results (R246, Table 8-3) -/

def session (s : State) (c : Nat) : Option Session := smGet none s.att.sessions c
def setSession (s : State) (c : Nat) (v : Option Session) : State :=
  { s with att := { s.att with sessions := smSet none s.att.sessions c v } }
/-- The slots that a session holds. -/
def Session.slots (v : Session) : List Nat :=
  if v.opening then v.hsSlot :: v.hsKeys else [v.master, v.reqKey, v.rspKey]
/-- A session ends: its slots are erased, and the TSM role it held is free (R246, R249). -/
def endSession (s : State) (c : Nat) : State :=
  match session s c with
  | none => s
  | some v =>
    let s1 := setSession (eraseSlots s v.slots) c none
    { s1 with att := { s1.att with tsm := s1.att.tsm && decide (c ≠ 67), tsmTaken := s1.att.tsmTaken || s1.att.tsm, chunks := smSet ([], []) s1.att.chunks c ([], []) } }

/-- Weight objects are keyed 32 * PID + object. -/
def weight (s : State) (pid obj : Nat) : Option WObj := smGet none s.att.weights (32 * pid + obj)
def setWeight (s : State) (pid obj : Nat) (v : Option WObj) : State :=
  { s with att := { s.att with weights := smSet none s.att.weights (32 * pid + obj) v } }
/-- The regions of an object's range. -/
def weightRegions (s : State) (pid : Nat) (o : WObj) : List Nat :=
  (regionsOf s.part.active pid).filter (fun i =>
    decide (s.part.active.rBase i < o.base + o.len ∧ o.base < s.part.active.rBase i + s.part.active.rSize i))
/-- Puts a job last in the partition manager's queue. -/
def pushJob (s : State) (j : Job) : State := { s with part := { s.part with jobs := s.part.jobs ++ [j] } }
/-- The read grants of a measurement that was being made are withdrawn by commits of their own (R234). -/
def withdrawGrants (s : State) (pid : Nat) (o : WObj) : State :=
  if o.phase = 1 ∧ o.granted ≠ [] then pushJob s (.withdrawRead pid o.granted) else s
/-- Discards every weight result of a PID, whatever its state. -/
def discardWeights (s : State) (pid : Nat) : State :=
  let s1 := s.att.weights.foldl (fun t c => match c.2 with
    | some o => if c.1 / 32 = pid then withdrawGrants t pid o else t
    | none => t) s
  { s1 with att := { s1.att with weights := s1.att.weights.filter (fun c => decide (c.1 / 32 ≠ pid)) } }
/-- Ends a measurement in progress of one object with a status and keeps the entry. -/
def endWeight (s : State) (pid obj status : Nat) : State :=
  match weight s pid obj with
  | some o => if o.status = 1 then
      setWeight (withdrawGrants s pid o) pid obj (some { o with status := status, phase := 2, stop := s.time, root := [] })
    else s
  | none => s
/-- A generation change ends the measurements in progress of the PID with STALE (R234). -/
def staleWeights (s : State) (pid : Nat) : State := (List.range 17).foldl (fun t k => endWeight t pid k 2) s
/-- The Hallmarks in preparation for a PID are discarded (R326). -/
def discardPreps (s : State) (pid : Nat) : State :=
  { s with att := { s.att with preps := s.att.preps.filter (fun p => decide (p.pid ≠ pid)) } }
/-- TDISP state of a virtual function (Table 8-9). -/
def tdisp (s : State) (vf : Nat) : Nat := smGet 0 s.att.vf vf
def setTdisp (s : State) (vf v : Nat) : State := { s with att := { s.att with vf := smSet 0 s.att.vf vf v } }
/-- The virtual function of a partition goes to ERROR (Table 8-9, R325). -/
def tdispError (s : State) (pid : Nat) : State :=
  let vf := s.part.active.pVf pid
  if vf < 64 then setTdisp s vf 3 else s

/-! ## Translation state (R303) -/

def xlatReset : Xlat :=
  { roots := [], classes := [], queue := [], sent := false, fence := none, openB := [], due := 0, closed := [],
    ringOn := false, ringBusy := false, ringBase := 0, ringSlots := 0, ringTally := 0, ringRegion := 0, prod := 0,
    writing := false, fqLost := false, timeouts := 0, result := 0, seq := 0 }
def xlat (s : State) (pid : Nat) : Xlat := smGet xlatReset s.xlat pid
def setXlat (s : State) (pid : Nat) (x : Xlat) : State := { s with xlat := smSet xlatReset s.xlat pid x }
/-- The admissions that fault records still hold end with them (R337). -/
def endRecs (s : State) (pid : Nat) (rs : List FRec) : State :=
  rs.foldl (fun t r => if r.master then masterEnd t pid else t) s
def endReqs (s : State) (pid : Nat) (qs : List XReq) : State :=
  qs.foldl (fun t q => if q.cls = 0 then masterEnd t pid else t) s
/-- A ring's use of its region ends here: KX3's write right is withdrawn by a commit of its own (R15). -/
def ringLeaves (s : State) (pid : Nat) : State :=
  if (xlat s pid).ringOn then pushJob s (.ringDrop pid (xlat s pid).ringRegion) else s
/-- Discards a partition's translation state: requests, roots, classes, batches and ring. A fence between its steps 2 and
4 completes and signals nothing. Frames already on the bus keep their agent until their reply (R294). -/
def xlDiscard (s : State) (pid : Nat) : State :=
  let x := xlat s pid
  let s := ringLeaves s pid
  let s1 := endReqs (endRecs s pid (x.openB ++ x.closed.flatMap (fun b => b.recs))) pid x.queue
  let s2 := { s1 with cpb := { s1.cpb with waiting := s1.cpb.waiting.filter (fun f => f.use ≠ .inval pid) } }
  setXlat s2 pid { xlatReset with
    fence := x.fence.map (fun f => { f with silent := true })
    timeouts := x.timeouts, result := x.result, seq := x.seq }

/-! ## Waiting at the arbiters -/

/-- A Quench discards what waits for a release, and with it ends every outstanding Master request (R326, R337, R352). -/
def dropHeld (s : State) (pid : Nat) : State :=
  let s1 := { s with qos := { s.qos with held := s.qos.held.filter (fun h => decide (h.pid ≠ pid)) } }
  setBucket s1 pid { bucket s1 pid with out := 0 }
/-- The pending bits of a PID's own posts are discarded (R326). A post already on HIP completes there. -/
def dropPend (s : State) (pid : Nat) : State :=
  { s with irq := { s.irq with pend := s.irq.pend.filter (fun c => decide (c.1 / 256 ≠ pid)) } }

/-! ## The Pattern Book follows the shared fields (R277) -/

/-- SC1 rewrites the current version whenever a STATE or GEN changes without a commit, once the book holds one. -/
def bookSync (s : State) : State :=
  match s.part.versions with
  | [] => s
  | v :: rest =>
    if v.num = s.epoch.curVersion && s.epoch.curValid then
      let v1 := { v with shared := s.part.pshared }
      { s with part := { s.part with versions := v1 :: rest, bookTag := bookSealed s v1 } }
    else s

end Sys2Proof.Machine
end

