-- ==== Sys2Proof/Machine/Part.lean ====
section
/-! DEFINITION. The partition manager's shared fields: states, generations and the rule that keeps a generation value from
coming back too soon (R253, R254, R261, R322, R327, R531). -/
namespace Sys2Proof.Machine

/-! ## Rates (R336, R338, R339) -/

/-- The sum of R338: MASTER_RATE of every VALID partition plus QOS_OPER_RATE. -/
def rateSum (s : State) : Nat := listSum (s.part.active.pids.map s.part.active.pRate) + s.qos.operRate
/-- The refill rate of a PID after scaling (R339). -/
def rateOf (s : State) (pid : Nat) : Nat :=
  (if pid = 1 then s.qos.operRate else s.part.active.pRate pid) * s.qos.scale / 65536

/-! ## Clearing a window (R327) -/

/-- Whether a register key lies in the window of `pid`. -/
def inWindow (pid key : Nat) : Bool := decide (winBase pid ≤ key ∧ key < winBase pid + 0x10000)
/-- Every register of a partition window returns to its reset value, the PG_LOCK bits included; the active bindings and the
quota, which are not the window's own, stay (log entry 20). -/
def windowReset (s : State) (pid : Nat) : State :=
  let b := s.part.active
  let s1 := { s with
    regs := s.regs.filter (fun c => !inWindow pid c.1)
    latch := s.latch.filter (fun c => !inWindow pid c.1)
    wstage := s.wstage.filter (fun c => !inWindow pid c.1)
    hdrs := s.hdrs.filter (fun c => decide (c.1 / 16 ≠ 16 + pid))
    tl := { s.tl with ports := s.tl.ports.filter (fun c => decide (c.1 ≠ 256 + pid)) }
    irq := { s.irq with
      dropped := smSet 0 s.irq.dropped pid 0
      stage := s.irq.stage.filter (fun c => !(b.sources pid).contains c.1)
      running := smSet false s.irq.running pid false
      result := smSet 0 s.irq.result pid 0 }
    xlat := smSet xlatReset s.xlat pid { xlatReset with fence := (xlat s pid).fence }
    qos := { s.qos with buckets := smSet bucketReset s.qos.buckets pid bucketReset }
    asy := { s.asy with places := s.asy.places.filter (fun c => decide (c.1 / 4 ≠ pid)) } }
  setApart s1 pid { apartReset with quota := (apart s pid).quota, slots := (apart s pid).slots }

/-! ## State changes (R261, R549) -/

/-- What entry into RUNNING starts afresh: a full bucket and its counts (R336, R354), and the verdict log's LSEQ, chain and
counts (R440 to R442). -/
def enterRunning (s : State) (pid : Nat) : State :=
  let s1 := setBucket s pid { bucket s pid with tokens := 2, overrun := 0, demoted := 0, rate := rateOf s pid }
  setApart s1 pid { apart s1 pid with
    opno := 0, lseq := 0, chain := chainReset, counts := [], accepted := 0, blocks := 0, lostB := 0, faults := 0,
    disagree := 0 }

/-- What entry into FREE discards (R92, R96, R189, R246, R303, R463, R482, Table 8-3). -/
def enterFree (s : State) (pid : Nat) : State :=
  let s1 := xlDiscard (discardPreps (discardWeights (endSession (channelClear s (pid - 2)) (pid - 2)) pid) pid) pid
  let s2 := { s1 with asy := { s1.asy with progs := s1.asy.progs.filter (fun p => decide (p.pid ≠ pid)) } }
  let s3 := { s2 with tmp := { s2.tmp with l2 := smSet [] s2.tmp.l2 pid [] } }
  windowReset (erasePid { s3 with att := { s3.att with keys := s3.att.keys.filter (fun k => decide (k.pid ≠ pid)) } } pid) pid

/-- Whether a state is one of those in which a Hallmark place stays fresh (R525). -/
def PState.attested : PState → Bool
  | .configured | .running | .quarantined => true
  | _ => false

/-- A partition changes state: the STATE event, the HMK places, and what its new state starts or discards. -/
def setState (s : State) (pid : Nat) (st : PState) : State :=
  let old := pshared s pid
  if old.state = st then s
  else
    let s1 := setPshared s pid { old with state := st, liftOper := false, liftPriv := false }
    let s2 := if old.state.attested && !st.attested then hmkStalePid s1 pid else s1
    let s3 := match st with
      | .running => enterRunning s2 pid
      | .free => enterFree s2 pid
      | .retiring => xlDiscard s2 pid
      | _ => s2
    bookSync (if st = .free then s3 else winEvent s3 pid 0 1)

/-- The partition state that a number of Table 9-4 names. -/
def PState.ofNum : Nat → Option PState
  | 0 => some .free | 1 => some .configured | 2 => some .running | 3 => some .quenching
  | 4 => some .quarantined | 5 => some .retiring | _ => none

/-! ## Generations (R254, R322, R531) -/

/-- A wait of 5 ms that must also pass on the oscillator count times 0.9 (R477), in 10 ns units. -/
def wait5ms : Nat := 555556
/-- When `pid` was last left at value `g`: none when its wait has ended. -/
def leftAt (s : State) (pid g : Nat) : Option Nat :=
  match smGet 0 s.part.left (64 * pid + g) with
  | 0 => some s.part.start
  | 1 => none
  | n + 2 => some n
/-- Whether R322 permits the value `g` for `pid`. -/
def genPermits (s : State) (pid g : Nat) : Bool :=
  match leftAt s pid g with
  | none => true
  | some t => decide (t + wait5ms ≤ s.time)
/-- What remains of the wait, in 10 us units, saturating (PART_CMD.WAIT). -/
def genWait (s : State) (pid g : Nat) : Nat :=
  match leftAt s pid g with
  | none => 0
  | some t => Nat.min 4095 (ceilDiv (t + wait5ms - s.time) 1000)
/-- An NI acknowledged a GEN_SET of `pid` with value `c`: every other value was left now (R531). -/
def markLeft (s : State) (pid c : Nat) : State :=
  { s with part := { s.part with
      left := (List.range 64).foldl (fun m g => if g = c then m else smSet 0 m (64 * pid + g) (s.time + 2)) s.part.left } }

/-- The generation of a tenant becomes `g`: its HMK places and measurements are stale, its function goes to ERROR, and the
STATE event is set (R525, R234, Table 8-9, R549). -/
def setGen (s : State) (pid g : Nat) : State :=
  let s1 := setPshared s pid { pshared s pid with gen := g % 64, genHold := false }
  let s2 := tdispError (staleWeights (hmkStalePid s1 pid) pid) pid
  bookSync (winEvent s2 pid 0 1)

/-- Registers that a generation step of `pid` waits for `g` under R322. -/
def holdGen (s : State) (pid g : Nat) : State :=
  if s.part.holds.contains (pid, g) then s else { s with part := { s.part with holds := s.part.holds ++ [(pid, g)] } }

/-- One generation step, when R322 permits it; otherwise it is held (QN_GEN_HOLD counts it once). -/
def genStep (s : State) (pid : Nat) : Bool × State :=
  let g := ((pshared s pid).gen + 1) % 64
  if genPermits s pid g then (true, setGen s pid g)
  else if s.part.holds.contains (pid, g) then (false, s)
  else
    let s1 := holdGen s pid g
    (false, { s1 with qn := { s1.qn with genHold := satInc s1.qn.genHold } })

/-- PART_CMD's result fields. -/
def partDone (s : State) (r w : Nat) : State := { s with part := { s.part with partRes := r, partWait := w } }

/-- SET_STATE writes the shared STATE; KX3 checks no transition (R531). -/
def setStateCmd (w : Who) (pid : Byte) (newState : BitVec 3) (s : State) : State :=
  byCore s w (fun s =>
    let s := setReg s 0x9048 (w32 (pid.toNat * 256 + newState.toNat * 16))
    if !tenant pid.toNat then partDone s 2 0
    else match PState.ofNum newState.toNat with
      | none => partDone s 3 0
      | some st => partDone (setState s pid.toNat st) 0 0)

/-- GEN_STEP: OK, or HOLD with the remaining wait (R531). NEWSTATE is not part of this command's operands. -/
def genStepCmd (w : Who) (pid : Byte) (s : State) : State :=
  byCore s w (fun s =>
    let p := pid.toNat
    let s := setReg s 0x9048 (putFld (reg s 0x9048) 15 8 p)
    if !tenant p then partDone s 2 0
    else
      let g := ((pshared s p).gen + 1) % 64
      if genPermits s p g then partDone (setGen s p g) 0 0
      else
        let s1 := holdGen (setPshared s p { pshared s p with genHold := true }) p g
        partDone { s1 with qn := { s1.qn with genHold := satInc s1.qn.genHold } } 1 (genWait s1 p g))

/-- The waits of R322 for `pid` that were held end: the values are permitted, and GEN_READY is set. -/
def genReady (s : State) (pid : Nat) : State :=
  let mine := s.part.holds.filter (fun h => decide (h.1 = pid))
  if mine.isEmpty then s
  else
    let s1 := { s with part := { s.part with
      holds := s.part.holds.filter (fun h => decide (h.1 ≠ pid))
      left := mine.foldl (fun m h => smSet 0 m (64 * pid + h.2) 1) s.part.left } }
    fwEvent (setPshared s1 pid { pshared s1 pid with genHold := false }) (pgFw 0x9) 1

/-! ## Regions that no partition owns (R279) -/

/-- A region is scrubbed before it is assigned again, except Tier C of tenant-keyed mode. -/
def dirtyState (s : State) (b : Bank) (i : Nat) : Nat := if b.rTier i = 2 && !s.fuse.sensed.podKeyed then 0 else 1
/-- A region becomes DIRTY, or FREE_CLEAN at once; a scrub that failed before counts no more. -/
def makeDirty (s : State) (b : Bank) (i : Nat) : State :=
  let s1 := setRshared s i { state := dirtyState s b i, fenced := false, rgen := 0 }
  { s1 with part := { s1.part with failed := smSet 0 s1.part.failed i 0 } }

/-! ## Census and counts -/

/-- Tenant partitions in one state. -/
def countState (s : State) (st : PState) : Nat := (tenants.filter (fun p => pstate s p = st)).length

/-! ## Sites (R65, R549) -/

/-- Site `k` is held or released at the port; the SITES event of its owner is set when its hold changes. A site that is not
present is never released (R66), and no site is in HALTED or SAFE (R162, R486). -/
def setSiteHold (s : State) (k : Nat) (up : Bool) : State :=
  if s.pins.siteHoldN.getLsbD k = up || (up && (!s.pins.sitePresent.getLsbD k || s.block = .halted || s.block = .safe)) then s
  else
    let v := if up then s.pins.siteHoldN ||| BitVec.ofNat 16 (2 ^ k) else s.pins.siteHoldN &&& ~~~ BitVec.ofNat 16 (2 ^ k)
    let s1 := { s with pins := { s.pins with siteHoldN := v } }
    match s1.part.active.pids.find? (fun p => (sitesOf s1 p).contains k) with
    | some p => if pstate s1 p = .free then s1 else winEvent s1 p 0 8
    | none => s1
/-- Holds every site of a list. -/
def holdSites (s : State) (ks : List Nat) : State := ks.foldl (fun t k => setSiteHold t k false) s
/-- HUB_RST_N bit `d`: it is driven to 1 only with PD_STATUS at 1, and not in HALTED or SAFE (R68). -/
def setHubRst (s : State) (d : Nat) (up : Bool) : State :=
  if up && (!s.pins.pdStatus.getLsbD d || s.block = .halted || s.block = .safe) then s
  else { s with pins := { s.pins with hubRstN :=
      if up then s.pins.hubRstN ||| BitVec.ofNat 40 (2 ^ d) else s.pins.hubRstN &&& ~~~ BitVec.ofNat 40 (2 ^ d) } }

/-- A SITE_HOLD_N bit of 0 for a site of the partition (P_SITES_HELD). -/
def heldSites (s : State) (pid : Nat) : List Nat := (sitesOf s pid).filter (fun k => !s.pins.siteHoldN.getLsbD k)
/-- A list of indices as a bitmap. -/
def bitmap (ks : List Nat) : Nat := ks.foldl (fun a k => if a / 2 ^ k % 2 = 1 then a else a + 2 ^ k) 0

end Sys2Proof.Machine
end

