-- ==== Sys2Proof/Machine/Xlat.lean ====
section
/-! DEFINITION. The translation service: invalidation requests, the timeout fence, fault records, batches and the fault ring
(R289 to R305, R536). -/
namespace Sys2Proof.Machine

/-! ## Requests (R289, R292) -/

def descKind (d : Nat) : Nat := nfld d 47 45
def descCtx (d : Nat) : Nat := nfld d 44 40
def descArg (d : Nat) : Nat := nfld d 39 0
/-- Whether a reply to the frame is a DRAIN_ACK (Table 10-3). -/
def kindDrains (k : Nat) : Bool := decide (k ≤ 3)

/-- The slot of a Tally field and its "no Tally" bit [15]. -/
def tallySlot (w : Word) : Option Nat := if bitOf w 15 then none else some (fld w 10 0)

/-- The end of a service for a partition: its Tally is signalled and its page event set, for a sealed partition at the release
time (R346); an admitted Master request ends then. -/
def serviceDone (s : State) (pid : Nat) (slot : Option Nat) (page bits : Nat) (master : Bool) : State :=
  if sealed s pid then
    { s with qos := { s.qos with held := s.qos.held ++
      [{ pid := pid, eff := .signal (slot.getD 0x8000) page bits, master := master }] } }
  else
    let s1 := match slot with
      | some k => serviceSignal s pid k
      | none => s
    let s2 := if bits = 0 then s1 else winEvent s1 pid page bits
    if master then masterEnd s2 pid else s2

/-- The units that a request of `pid` goes to: those its active binding ties to the PID; a powered-down one counts as having
replied (R292, R499). -/
def xlUnits (s : State) (pid : Nat) : List Nat := (unitsOf s s.part.active pid).filter (addressable s)

/-- The roots of a PID are sent to units that were just bound or reset, before any request of the PID (R288). -/
def sendRoots (s : State) (pid : Nat) (units : List Nat) : State :=
  (xlat s pid).roots.foldl (fun t c =>
    cpbSendAll t units 9 (payPid pid (3 * 2 ^ 45 + c.1 * 2 ^ 40 + c.2)) (.roots pid)) s

/-- A ROOT request sets the root and the fault class of its context as SC1 keeps them (R288, R297). Classes are stored plus 1. -/
def xlRoot (x : Xlat) (q : XReq) : Xlat :=
  let d := q.desc.toNat
  if descKind d = 3 then { x with roots := smSet 0 x.roots (descCtx d) (descArg d),
                                  classes := smSet 0 x.classes (descCtx d) (q.cls + 1) }
  else x

/-- The request at the head has ended: its Tally is signalled and the next is in turn. -/
def xlComplete (s : State) (pid : Nat) : State :=
  let x := xlat s pid
  match x.queue with
  | [] => s
  | q :: rest => serviceDone (setXlat s pid { x with queue := rest, sent := false }) pid q.tally 0 0 (q.cls = 0)

/-- The request at the head is sent to every unit. -/
def xlStart (s : State) (pid : Nat) (q : XReq) : State :=
  let s1 := setXlat s pid { xlRoot (xlat s pid) q with sent := true }
  cpbSendAll s1 (xlUnits s1 pid) 9 (payPid pid q.desc.toNat) (.inval pid)

/-! ## The timeout fence (Table 10-5a) -/

/-- Step 1: the regions of the PID that overlap the reuse range, or all of them when the count is 0. -/
def fenceRegions (s : State) (pid : Nat) (q : XReq) : List Nat :=
  (regionsOf s.part.active pid).filter (fun i => decide (q.reuseCnt = 0) ||
    decide (s.part.active.rBase i < q.reuseLo + q.reuseCnt * 2 ^ 21 ∧
            q.reuseLo < s.part.active.rBase i + s.part.active.rSize i))

/-- FENCE of each region at the checkers that govern it (R18, Table 2-8). -/
def sendFences (s : State) (rs : List Nat) (rgen : Nat) (fenced : Bool) (use : CpbUse) : State :=
  rs.foldl (fun t i =>
    let t1 := setRshared t i { rshared t i with fenced := fenced, rgen := rgen }
    cpbSendAll t1 ((regionCheckers t1 t1.part.active i).filter (addressable t1)) 8 (fencePay i rgen) use) s

/-- The regions of the fence that the PID still owns (Table 10-6). -/
def fenceOwned (s : State) (pid : Nat) (f : XFence) : List Nat :=
  f.regions.filter (fun i => s.part.active.rValid i && decide (s.part.active.rOwner i = pid))

/-- The fence value of a PID: its GEN XOR 0x20. -/
def fenceGen (s : State) (pid : Nat) : Nat := (pshared s pid).gen ^^^ 0x20

/-- Step 5: counts, records and signals, or nothing for a fence that outlived its request (R303). The wait for the silent
unit is over. -/
def fenceEnd (s : State) (pid : Nat) (f : XFence) : State :=
  let s0 := cpbDropUse s (.inval pid)
  let x := xlat s0 pid
  if f.silent then setXlat s0 pid { x with fence := none }
  else
    let s1 := setXlat s0 pid { x with fence := none, timeouts := satAdd 65535 x.timeouts 1 }
    let s2 := winEvent { s1 with xcnt := { s1.xcnt with timeouts := satInc s1.xcnt.timeouts } } pid 3 2
    xlComplete (record s2 0x0044 pid 1 1 f.unit) pid

/-- One step of the requests of `pid`. Fence step 1 waits for R322 to permit the fence value. -/
def xlReqStep (s : State) (pid : Nat) : State :=
  let x := xlat s pid
  match x.fence with
  | some f =>
    if f.step = 1 && genPermits s pid (fenceGen s pid) then
      sendFences (setXlat s pid { x with fence := some { f with step := 2 } }) (fenceOwned s pid f) (fenceGen s pid) true
        (.fence pid false)
    else if f.step = 1 then holdGen s pid (fenceGen s pid)
    else if f.step = 2 && cpbIdle s (.fence pid false) then setXlat s pid { x with fence := some { f with step := 3 } }
    else if f.step = 4 && cpbIdle s (.fence pid true) then fenceEnd s pid f
    else s
  | none =>
    match x.queue with
    | [] => s
    | q :: _ =>
      if !cpbIdle s (.roots pid) then s
      else if !x.sent then (if cpbIdle s (.inval pid) then xlStart s pid q else s)
      else if cpbIdle s (.inval pid) then xlComplete s pid
      else s

/-! ## Batches and the ring (R295 to R301) -/

/-- A time as a partition sees it: rounded down to 1 us for a sealed one (R348). -/
def shownTime (s : State) (pid t : Nat) : Nat := if sealed s pid then t / 100 * 100 else t

/-- Closes the open batch with a reason, or remembers the reason while two closed batches wait (R296, R297). -/
def batchClose (s : State) (pid reason : Nat) : State :=
  let x := xlat s pid
  if x.openB.isEmpty then s
  else if 2 ≤ x.closed.length then setXlat s pid { x with due := if x.due = 0 then reason else x.due }
  else setXlat s pid { x with openB := [], due := 0,
                              closed := x.closed ++ [{ reason := reason, closed := shownTime s pid s.time, recs := x.openB }] }

/-- The bytes of a batch (Table 10-5). -/
def batchBytes (num : Nat) (b : Batch) : List Byte :=
  let head := leBytes 4 num ++ leBytes 2 b.recs.length ++ [BitVec.ofNat 8 b.reason, 0] ++ leBytes 6 b.closed ++
    List.replicate 46 0
  let recs := b.recs.flatMap (fun r => r.bytes)
  head ++ leBytes 4 (crc32c (head ++ recs)).toNat ++ recs

/-- The ring is full while PROD minus CONS equals SLOTS (R299). -/
def ringFull (s : State) (pid : Nat) : Bool :=
  let x := xlat s pid
  decide ((x.prod - pReg s pid 0x3078).toNat = x.ringSlots)

/-- One step of the fault ring of `pid`: the oldest closed batch is written (R298). -/
def xlRingStep (s : State) (pid : Nat) : State :=
  let x := xlat s pid
  match x.closed with
  | [] => s
  | b :: _ =>
    if x.ringOn && !x.writing && !ringFull s pid then
      let bytes := batchBytes x.prod.toNat b
      hipIssue (setXlat s pid { x with writing := true }) (.batch pid)
        (x.ringBase + 4096 * (x.prod.toNat % Nat.max 1 x.ringSlots)) bytes.length true bytes
    else s

/-- A batch write has returned (R298, R300). -/
def batchWritten (s : State) (pid : Nat) (ok : Bool) : State :=
  let x := xlat s pid
  if !x.writing then s
  else match x.closed with
  | [] => setXlat s pid { x with writing := false }
  | b :: rest =>
    if ok then
      let s1 := setXlat s pid { x with writing := false, closed := rest, prod := x.prod + 1 }
      let s2 := if x.due ≠ 0 then batchClose s1 pid x.due else s1
      let ms := b.recs.filter (fun r => r.master)
      let s3 := ms.tail.foldl (fun t _ => masterEnd t pid) s2
      serviceDone s3 pid (some x.ringTally) 3 1 (!ms.isEmpty)
    else
      record (setXlat (ringLeaves s pid) pid { x with writing := false, ringOn := false, fqLost := true }) 0x0045 pid 1 1 x.prod.toNat

/-- One step of everything the translation service does for `pid`. -/
def xlStep (s : State) (pid : Nat) : State := xlRingStep (xlReqStep s pid) pid
/-- Steps until nothing more can move, for one PID. -/
def xlPump : Nat → State → Nat → State
  | 0, s, _ => s
  | n + 1, s, pid => xlPump n (xlStep s pid) pid
/-- One step for every PID that holds translation state. -/
def pollXlat (s : State) : State := (s.xlat.map (fun c => c.1)).foldl xlStep s

/-! ## Commands of P_XLAT (Table 10-8) -/

/-- An access to XL_CMD: by HCP, in the window of the tag's PID. -/
def xlCmd (s : State) (src : Src) (k : State → Nat → State) : State :=
  match src with
  | .fab _ => s
  | .hcp tag _ =>
    let p := tagPid tag
    if !tenant p then refuseForeign s src (winBase p + 0x3040)
    else access s src (.win p 3 0x40) (winBase p + 0x3040) true (fun s => respond (k s p) src .ok)
def xlResult (s : State) (pid r : Nat) : State := setXlat s pid { xlat s pid with result := r }

/-- The checks of SEND, then its place in the queue: BAD_DESC, then FULL. -/
def xlSend (s : State) (pid : Nat) : State :=
  let d := pReg64 s pid 0x3048 % 2 ^ 48
  let tw := pReg s pid 0x3050
  let x := xlat s pid
  let slot := tallySlot tw
  if 5 < descKind d || (match slot with | some k => (tallyOfSlot s pid k).isNone | none => false) then xlResult s pid 2
  else if 16 ≤ x.queue.length then xlResult s pid 1
  else
    let c := fld tw 17 16
    let (m, s1) := if c = 0 then grantMaster s pid else (false, s)
    let n := (x.seq + 1) % 2 ^ 20
    let q : XReq := { seq := n, desc := BitVec.ofNat 48 d, tally := slot, cls := if c = 0 && !m then 1 else c,
                      reuseLo := pReg64 s1 pid 0x3058 / 2 ^ 21 * 2 ^ 21 % 2 ^ 52,
                      reuseCnt := fld (pReg s1 pid 0x3060) 22 0 }
    let s2 := setXlat s1 pid { xlat s1 pid with queue := x.queue ++ [q], seq := n, result := 0 }
    xlPump 3 { s2 with xcnt := { s2.xcnt with sent := satInc s2.xcnt.sent } } pid

/-- SEND. -/
def execXlSend (src : Src) (s : State) : Host.Outcome State Fault Refusal := .next (xlCmd s src xlSend)

/-- FQ_REGISTER: the whole ring in one region that the partition owns, SLOTS a power of two from 2 to 256 (R299). -/
def fqRegister (s : State) (pid : Nat) : State :=
  let x := xlat s pid
  let base := pReg64 s pid 0x3068
  let slots := fld (pReg s pid 0x3070) 8 0
  if x.ringBusy then xlResult s pid 4
  else match (if base % 4096 = 0 ∧ [2, 4, 8, 16, 32, 64, 128, 256].contains slots then
      ownedRegion s pid base (4096 * slots) else none) with
    | none => xlResult s pid 3
    | some i => pushJob (setXlat (if x.ringRegion = i then s else ringLeaves s pid) pid { x with
        ringOn := false, ringBusy := true, ringBase := base, ringSlots := slots,
        ringTally := fld (pReg s pid 0x3070) 26 16, ringRegion := i, result := 0 }) (.ring pid i)

/-- FQ_RELEASE: the open batch is closed and written if there is room; the commit that clears G0 follows (R299). -/
def fqRelease (s : State) (pid : Nat) : State :=
  let x := xlat s pid
  if x.ringBusy then xlResult s pid 4
  else if !x.ringOn then xlResult s pid 5
  else
    let s1 := xlRingStep (batchClose s pid 4) pid
    pushJob (setXlat s1 pid { xlat s1 pid with ringOn := false, ringBusy := true, result := 0 }) (.ringRelease pid x.ringRegion)

/-- The ring of a completed registration is in use from CLOSE (R299); a commit that failed leaves none. -/
def ringDone (s : State) (pid : Nat) (reg ok : Bool) : State :=
  let x := xlat s pid
  if !x.ringBusy then s
  else if reg && ok then setXlat s pid { x with ringBusy := false, ringOn := true, prod := 0, fqLost := false }
  else setXlat s pid { x with ringBusy := false }

/-- The class of a fault record's context: Master, if its last ROOT carried class 0. -/
def recMaster (x : Xlat) (bytes : List Byte) : Bool := smGet 0 x.classes (bytes.getD 10 0).toNat = 1

/-- A fault record: its TIME is set by KX3, and it enters the open batch (R295 to R297). -/
def faultIn (s : State) (src : Src) (pid : Nat) (bytes : List Byte) : State :=
  let x := xlat s pid
  let l : Loc := .win pid 3 0x100
  if bytes.length ≠ 32 then refuse s src l (winBase pid + 0x3100) .edecode
  else if 64 ≤ x.openB.length && 2 ≤ x.closed.length then refuse s src l (winBase pid + 0x3100) .efull
  else
    let full := slice bytes 0 16 ++ leBytes 6 (shownTime s pid s.time) ++ [0, 0] ++ slice bytes 24 8
    let isM := recMaster x bytes
    let (m, s1) := if isM then grantMaster s pid else (false, s)
    let s2 := setXlat s1 pid { xlat s1 pid with openB := x.openB ++ [{ bytes := full, master := m }] }
    let s3 := { s2 with xcnt := { s2.xcnt with records := satInc s2.xcnt.records } }
    let s4 := if isM then batchClose s3 pid 3 else if x.openB.length = 63 then batchClose s3 pid 1 else s3
    respond (xlRingStep s4 pid) src .ok

/-- A write to XL_FAULT_IN. -/
def execXlFaultIn (src : Src) (bytes : List Byte) (s : State) : Host.Outcome State Fault Refusal :=
  .next (match src with
  | .fab _ => s
  | .hcp tag _ =>
    let p := tagPid tag
    if !tenant p then refuseForeign s src (winBase p + 0x3100)
    else access s src (.win p 3 0x100) (winBase p + 0x3100) true (fun s => faultIn s src p bytes))

/-- 20 us have passed since the open batch's first record (R297). -/
def execBatchTimer (pid : Byte) (s : State) : Host.Outcome State Fault Refusal :=
  .next (xlRingStep (batchClose s pid.toNat 2) pid.toNat)

/-- 200 us have passed without every DRAIN_ACK (R294): the fence of Table 10-5a begins. A request that a Quench has
discarded is not fenced; its silent units are waited for no longer. -/
def invalTimeout (s : State) (pid : Nat) : State :=
  let x := xlat s pid
  match s.cpb.flights.find? (fun f => f.frame.use = .inval pid) with
  | none => s
  | some fl =>
    if x.fence.isSome then s
    else match x.queue with
    | [] => cpbDropUse s (.inval pid)
    | q :: _ =>
      if !x.sent || !kindDrains (descKind q.desc.toNat) then s
      else
        let f : XFence := { step := 1, regions := fenceRegions s pid q, unit := fl.frame.agent, silent := false }
        xlPump 2 (fwEvent (setXlat s pid { x with fence := some f }) (pgFw 0xB) 1) pid

/-- The 5 ms of step 3 have passed: step 4 sends FENCE with the PID's GEN (Table 10-5a). -/
def fenceDrained (s : State) (pid : Nat) : State :=
  let x := xlat s pid
  match x.fence with
  | some f =>
    if f.step = 3 then
      let s1 := setXlat s pid { x with fence := some { f with step := 4 } }
      xlPump 2 (sendFences s1 (fenceOwned s1 pid f) (pshared s1 pid).gen false (.fence pid true)) pid
    else s
  | none => s

/-- INVAL_TIMEOUT. -/
def execInvalTimeout (pid : Byte) (s : State) : Host.Outcome State Fault Refusal := .next (invalTimeout s pid.toNat)
/-- INVAL_FENCE_DRAIN_END. -/
def execInvalFenceDrainEnd (pid : Byte) (s : State) : Host.Outcome State Fault Refusal := .next (fenceDrained s pid.toNat)

end Sys2Proof.Machine
end

