-- ==== Sys2Proof/Machine/Irq.lean ====
section
/-! DEFINITION. Interrupt bindings and KX3's own posts (R306, R311 to R318, R42). -/
namespace Sys2Proof.Machine

/-! ## Bindings (Tables 11-1, 11-4) -/

/-- A remap entry as IRQ_ENTRY shows it. -/
def entryView (w : Word) : Word := w32 (b2n (bitOf w 0) * 2 ^ 16 + fld w 23 16)
/-- A binding as the remap entry of its owner. -/
def entryOf (pid : Nat) (v : Word) : Word := w32 (pid * 2 ^ 24 + fld v 7 0 * 2 ^ 16 + b2n (bitOf v 16))
/-- The staged binding of a source: the active one until it is written. -/
def stagedOf (s : State) (n : Nat) : Word := (smGet none s.irq.stage n).getD (entryView (s.part.active.srcWord n))
def setStaged (s : State) (n : Nat) (v : Option Word) : State :=
  { s with irq := { s.irq with stage := smSet none s.irq.stage n v } }
/-- Every staged binding of a PID equals the active one. -/
def clearStaged (s : State) (pid : Nat) : State := (s.part.active.sources pid).foldl (fun t n => setStaged t n none) s
def irqResult (s : State) (pid r : Nat) : State := { s with irq := { s.irq with result := smSet 0 s.irq.result pid r } }
def irqRunning (s : State) (pid : Nat) (b : Bool) : State :=
  { s with irq := { s.irq with running := smSet false s.irq.running pid b } }

/-- A bundle is between SUBMIT and its result (R266). -/
def bundleBusy (s : State) : Bool :=
  match s.book.phase with
  | .checking | .consent | .quiesce | .committing | .rollback => true
  | _ => false

/-- APPLY: BUSY unless it may be performed; BAD_VECTOR for an enabled binding at or above VECTORS; otherwise a commit of the
staged bindings (R315). -/
def irqApply (s : State) (pid : Nat) : State :=
  if pstate s pid ≠ .running || bundleBusy s || smGet false s.irq.running pid then irqResult s pid 1
  else
    let es := (s.part.active.sources pid).map (fun n => (n, entryOf pid (stagedOf s n)))
    if es.any (fun e => bitOf e.2 0 && decide (vectors s pid ≤ fld e.2 23 16)) then irqResult s pid 2
    else pushJob (irqRunning (irqResult s pid 0) pid true) (.irqApply pid es)

/-- The end of an APPLY's commit: APPLIED, IRQ_TALLY, and the result (R315). -/
def irqApplied (s : State) (pid : Nat) (ok : Bool) : State :=
  if !smGet false s.irq.running pid then s
  else
    let s1 := clearStaged (irqResult (irqRunning s pid false) pid (if ok then 0 else 3)) pid
    let s2 := winEvent s1 pid 4 1
    match tallySlot (pReg s2 pid 0x4054) with
    | some k => serviceSignal s2 pid k
    | none => s2

/-- An access to IRQ_CMD. -/
def irqCmd (s : State) (src : Src) (k : State → Nat → State) : State :=
  match src with
  | .fab _ => s
  | .hcp tag _ =>
    let p := tagPid tag
    if !tenant p then refuseForeign s src (winBase p + 0x4050)
    else access s src (.win p 4 0x50) (winBase p + 0x4050) true (fun s => respond (k s p) src .ok)

/-- DISCARD: every staged binding becomes the active one, or BUSY while an APPLY runs (R315). -/
def irqDiscard (s : State) (pid : Nat) : State :=
  if smGet false s.irq.running pid then irqResult s pid 1 else clearStaged (irqResult s pid 0) pid

/-- DISCARD. -/
def execIrqDiscard (src : Src) (s : State) : Host.Outcome State Fault Refusal := .next (irqCmd s src irqDiscard)

/-! ## IRQ_BIND (R316) -/

/-- The entries of an IRQ_BIND body as (source, remap entry of PID 1). -/
def bindEntries (ws : List Word) : List (Nat × Word) :=
  ws.map (fun w => (fld w 13 1, entryOf 1 (w32 (b2n (bitOf w 0) * 2 ^ 16 + fld w 23 16))))

/-- IRQ_BIND on operator channel `c`: a wrong count is a bad frame, then BAD_RESOURCE, LIMIT, BUSY while a bundle is in
progress (DEDUCED from R266 and R315), or the commit. -/
def irqBind (s : State) (c tag cls : Nat) (body : List Word) : State :=
  match body with
  | [] => replyError s c tag 2 0x0307
  | n :: ws =>
    let es := bindEntries ws
    if n.toNat ≠ ws.length then replyError s c tag 2 0x0307
    else if es.any (fun e => decide (fld (s.part.active.srcWord e.1) 31 24 ≠ 1)) then replyCode s c tag 0x0307 6
    else if es.any (fun e => bitOf e.2 0 && decide (fld e.2 23 16 < 8)) then replyCode s c tag 0x0307 4
    else if bundleBusy s then replyCode s c tag 0x0307 8
    else pushJob s (.irqBind c tag cls (ws.map id))

/-! ## Posts (R313, R42, R499) -/

/-- The next turn of a set bit whose post is not on HIP: it is repeated, unless the partition is QUENCHING. -/
def postRetry (s : State) (pid vec : Nat) : State :=
  match pendOf s pid vec with
  | some p => if p.inFlight || (tenant pid && pstate s pid = .quenching) then s else issuePost s pid vec p
  | none => s

/-- POST_RETRY: 1 us has passed since a post that was not OK. -/
def execPostRetry (pid vec : Byte) (s : State) : Host.Outcome State Fault Refusal :=
  .next (postRetry s pid.toNat vec.toNat)

/-- HIP_REFUSED (R42, R490). -/
def hipRefused (s : State) (code : Nat) (r : HipReq) : State :=
  record s 0x0031 0 1 0 (code + 256 * r.use.num) (r.addr % 2 ^ 32) (r.addr / 2 ^ 32)

/-- A post has returned: OK clears its bit; any other code keeps it, and only its first refusal is recorded. -/
def postDone (s : State) (r : HipReq) (pid vec code : Nat) : State :=
  match pendOf s pid vec with
  | none => s
  | some p =>
    if code = 0 then setPend s pid vec none
    else
      let s1 := if p.refused then s else hipRefused s code r
      setPend s1 pid vec (some { p with inFlight := false, refused := true })

/-! ## Source numbering (R306) -/

/-- The ISCs of the census in ascending order with the sources each contributes, and a record for every source that cannot
be assigned. -/
def numberSources (s : State) : State :=
  let iscs := (s.cpb.agents.filter (fun c => c.2.present && decide (c.2.kind = 6))).map (fun c => (c.1, c.2.words))
  let step := fun (acc : State × Nat) (i : Nat × Nat) =>
    if i.2 < 2 then (record acc.1 0x0034 0 1 0 i.1 0xFFFFFFFF, acc.2)
    else
      let n := i.2 - 2
      let t := { acc.1 with irq := { acc.1.irq with iscs := acc.1.irq.iscs ++ [(i.1, n)] } }
      let first := Nat.min n (8192 - acc.2)
      ((List.range (n - first)).foldl (fun u k => record u 0x0034 0 1 0 i.1 (first + k)) t, acc.2 + n)
  (iscs.foldl step ({ s with irq := { s.irq with iscs := [] } }, 0)).1

end Sys2Proof.Machine
end

