-- ==== Sys2Proof/Machine/Qos.lean ====
section
/-! DEFINITION. Service classes: the admission buckets, the operator's budget, scaling in DEGRADED, and the releases of sealed
partitions (R336 to R339, R346, R347, R353). -/
namespace Sys2Proof.Machine

/-- A token arrives in the bucket of PID 1 to 65, up to its depth of 2 (R336). -/
def execTokenRefill (pid : Byte) (s : State) : Host.Outcome State Fault Refusal :=
  .next (if 1 ≤ pid.toNat ∧ pid.toNat ≤ 65 then
    setBucket s pid.toNat { bucket s pid.toNat with tokens := satAdd 2 (bucket s pid.toNat).tokens 1 } else s)

/-- A write to QOS_OPER_RATE under R338: it fills the bucket of PID 1 (R336). -/
def operRateWrite (s : State) (w : Who) (rate : Nat) : State :=
  if 50000 < rate || s.qos.capacity < rateSum s - s.qos.operRate + rate then refuse s (.fab w) (.fw 0xE 0x48) 0xE048 .eaccess
  else
    let s1 := { s with qos := { s.qos with operRate := rate } }
    respond (setBucket s1 1 { bucket s1 1 with tokens := 2, rate := rateOf s1 1 }) (.fab w) .ok

/-- QOS_OPER_RATE. -/
def execQosOperRateWrite (w : Who) (rate : BitVec 16) (s : State) : Host.Outcome State Fault Refusal :=
  .next (byCore s w (fun s => operRateWrite s w rate.toNat))

/-- Capacity and scale for the current block state (R338, R339); SCALED is set when the scale changes. -/
def qosRescale (s : State) : State :=
  let degraded := s.block = .degraded && decide (fld (w32 (s.cores.failed ||| s.boot.coreBist).toNat) 3 1 ≠ 0)
  let cap := if degraded then 200000 else 400000
  let sum := rateSum s
  let scale := if degraded && decide (cap < sum) then cap * 65536 / sum else 65536
  let s1 := { s with qos := { s.qos with capacity := cap, scale := scale } }
  let s2 := tenants.foldl (fun t p => if pstate t p = .running then setBucket t p { bucket t p with rate := rateOf t p } else t) s1
  let s3 := setBucket s2 1 { bucket s2 1 with rate := rateOf s2 1 }
  if scale = s.qos.scale then s3 else fwEvent s3 (pgFw 0xE) 2

/-! ## Releases (R345 to R347) -/

/-- What waits for release for a PID, in order, HCP answers apart from the rest. -/
def heldKind (hcp : Bool) (h : Held) : Bool :=
  match h.eff with
  | .hcp _ _ _ => hcp
  | _ => !hcp

/-- The k-th of them with its place in the queue. -/
def heldAt (s : State) (pid k : Nat) (hcp : Bool) : Option (Nat × Held) :=
  (((s.qos.held.zip (List.range s.qos.held.length)).filter (fun h => decide (h.1.pid = pid) && heldKind hcp h.1))[k]?).map
    (fun h => (h.2, h.1))

/-- The effect of a release. -/
def releaseNow (s : State) (h : Held) : State :=
  let s1 := match h.eff with
    | .hcp r d i => answer s r d i
    | .doorbell n arg => ringDoorbell s h.pid n arg
    | .post v c => postEvent s h.pid v c true
    | .word w => noteWord s (h.pid - 2) w
    | .reply f => queueFrames s (h.pid - 2) [f]
    | .signal t page bits =>
      let s2 := if t < 0x8000 then serviceSignal s h.pid t else s
      if bits = 0 then s2 else winEvent s2 h.pid page bits
  if h.master then masterEnd s1 h.pid else s1

/-- Releases the k-th held response of a PID. -/
def release (s : State) (pid k : Nat) (hcp : Bool) : State :=
  match heldAt s pid k hcp with
  | some (i, h) => releaseNow { s with qos := { s.qos with held := s.qos.held.eraseIdx i } } h
  | none => s

/-- SEALED_RELEASE: the release time of R346 of the k-th response that is not an HCP answer. -/
def execSealedRelease (pid k : Byte) (s : State) : Host.Outcome State Fault Refusal := .next (release s pid.toNat k.toNat false)
/-- SEALED_HCP_RESPONSE: the 2 us grid point of R347 of the k-th HCP answer. -/
def execSealedHcpResponse (pid k : Byte) (s : State) : Host.Outcome State Fault Refusal := .next (release s pid.toNat k.toNat true)

end Sys2Proof.Machine
end

