-- ==== Sys2Proof/Machine/Esc.lean ====
section
/-! DEFINITION. The fault controller: block states, halts, the Shutter, SAFE, the acceptance of a Quench, the escalation ladder
and what a faulted agent sets off (R162, R180, R323, R324, R479 to R482, R486). -/
namespace Sys2Proof.Machine

/-! ## Block state and journal -/

/-- TOP and O_TOP events: [0] STATE, [1] BAND; [2] CENSUS in TOP only. -/
def topEvent (s : State) (bits : Nat) : State :=
  let s1 := fwEvent s (pgFw 0) bits
  if bits % 4 = 0 then s1 else operEvent s1 0 (bits % 4)
/-- HALTED and SAFE are left by a reset only (Table 1-3, R486). -/
def stopped (s : State) : Bool := s.block = .halted || s.block = .safe
/-- TOP_STATE.STATE changes. -/
def setBlock (s : State) (b : BState) : State := if s.block = b || stopped s then s else topEvent { s with block := b } 1
def BState.num : BState → Nat
  | .reset => 0 | .sense => 1 | .boot => 2 | .run => 3 | .degraded => 4 | .safe => 5 | .halted => 6 | .sleep => 7

/-- A journal record in the next entry (R151), where the journal is usable: it is initialised, and a core runs that can
write it. -/
def journal (s : State) (step event src site reason : Nat) (detail : Nat := 0) : State :=
  if !s.boot.journalOk || s.block = .reset || s.block = .sense || s.block = .sleep then s
  else
    let r : JRec := { time := BitVec.ofNat 48 s.time, boot := s.boot.bootNo, step := step, event := event, src := src,
                      site := site, reason := reason, attempt := s.boot.attempts, detail := BitVec.ofNat 96 detail }
    { s with boot := { s.boot with journal := smSet none s.boot.journal s.boot.jnext (some r),
                                   jnext := if s.boot.jnext = 511 then 1 else s.boot.jnext + 1 } }

/-- FUSE_BEGIN (7) or FUSE_END (8) of a fuse operation: `detail` is bytes 16 to 27 (R155, Table 5-11). Stage 1 writes them, and
firmware after it; the ROM, up to S6, writes none. -/
def fuseJournal (s : State) (event : Nat) (detail : Nat) : State :=
  if s.block = .boot && decide (s.boot.step < 7) then s
  else journal s 0xF0 event 0xFF 0xFF 0 detail

/-- Every HUB_RST_N and SITE_HOLD_N bit is driven to 0 without DRAIN; the agents of every domain lose their SEQ (R68, R551). -/
def hubDown (s : State) : State :=
  let as := dedup (s.part.domains.map (fun c => c.2))
  as.foldl cpbResetSeq { s with pins := { s.pins with hubRstN := 0, siteHoldN := 0 } }

/-- The START record of a start (R490), written once: when its source is known, or when it ends before that (log entry 60). -/
def startRecord (s : State) : State :=
  if s.boot.startRec || !(s.block = .sense || s.block = .boot) then s
  else
    let s1 := { s with boot := { s.boot with startRec := true } }
    record s1 0x0001 0 0 2 (s.boot.bootNo + 65536 * s.boot.src + 2 ^ 20 * b2n s.boot.fast + 2 ^ 21 * b2n s.boot.afterPor)

/-- HALTED with a code: the pins, the latch, the journal and Ledger records, the freeze, and every hold (R32, R162, R493). -/
def haltNow (s : State) (code : Nat) : State :=
  let s1 := journal (startRecord s) s.boot.step 9 s.boot.src s.boot.site s.boot.reason code
  let s2 := ledgerFreeze (record s1 0x0005 0 5 0 code)
  let s3 := cpbShutter (hubDown (setBlock s2 .halted))
  let s4 := { s3 with pins := { s3.pins with halt := BitVec.ofNat 8 code, shutterN := false, xspiResetN := false },
                      boot := { s3.boot with hostWait := false } }
  setReg s4 0x4C (w32 (code * 256))
/-- A halt, where KX3 is not in HALTED or SAFE already. -/
def haltWith (s : State) (code : Nat) : State := if stopped s then s else haltNow s code

/-! ## The Shutter (Table 6-13) -/

def sboxPortReset : SboxPort :=
  { sel := 0, attr := 0, derive := 0, data := 0, mask := 0, result := 0, busy := false, next := 0, long := false, seq := 0 }
def laneReset : Lane := { queue := [], msg := none, abandon := false, run := none, hubAddr := 0, hubLeft := 0 }
/-- A firmware initiator's staging registers are cleared, and a command in progress ends with SHUTTER. -/
def sboxPortShut (p : SboxPort) : SboxPort := { p with data := 0, mask := 0, lane := none, await := none, next := if p.busy then 10 else p.next }
/-- Nothing left. -/
def outsNone : Outs := { mem := [], opnd := [], slot := none }
/-- A job of the Anvil is aborted, and its output suppressed (R181). -/
def pjobShut (j : PJob) : PJob := { j with result := 6, outs := outsNone }
/-- A lane's open message is abandoned, and its job aborted. -/
def laneShut (l : Lane) : Lane := { l with msg := none, shadow := false, abandon := l.msg.isSome, hubLeft := 0, run := l.run.map (fun r => (r.1, r.2.1, 3)) }
/-- The rows that the sense delivers to the root path: the owner seeds, the pod root and the device secrets (R104, R168). -/
def secretRow (r : Nat) : Bool := decide ((0x340 ≤ r ∧ r ≤ 0x387) ∨ (0x7F0 ≤ r ∧ r ≤ 0x7FF))
/-- What the Shutter erases, and its record. A Shutter that has fired changes nothing further (R472). -/
def shutterFire (s : State) : State :=
  if s.tmp.shutter then s
  else
    let s1 := cpbShutter { s with
      pins := { s.pins with shutterN := false },
      tmp := { s.tmp with shutter := true },
      sbox := { s.sbox with slots := [], root := 0, rootValid := false, podRoot := 0, podRootValid := false,
                            shutterFired := true, ports := smMap sboxPortReset sboxPortShut s.sbox.ports },
      anvil := { s.anvil with mem := [], run := s.anvil.run.map pjobShut, susp := s.anvil.susp.map pjobShut },
      aes := { s.aes with run := s.aes.run.map (fun j => { j with result := 5, outs := outsNone }) },
      hash := { s.hash with lanes := smMap laneReset laneShut s.hash.lanes },
      rng := { s.rng with dead := true },
      fuse := { s.fuse with stage := none, unlockLatch := false, sensed := { s.fuse.sensed with
        rows := s.fuse.sensed.rows.filter (fun c => !secretRow c.1) } },
      boot := { s.boot with armed := false, sleepDigest := [] },
      att := { s.att with sealedArea := [] } }
    record (fwEvent s1 (pgFw 3) 1) 0x0011 0 6 2

/-! ## SAFE (Table 17-10) -/

/-- SAFE entry: state, records and freeze, then the cores and the hub held. `cause` is the EVENT code of the fault. -/
def safeNow (s : State) (cause : Nat) (tamper : Bool) : State :=
  let s1 := setBlock { startRecord s with cores := { s.cores with safeCause := if tamper then 2 else 1 } } .safe
  let s2 := ledgerFreeze (record s1 0x0004 0 5 2 cause)
  hubDown { s2 with pwr := { s2.pwr with phase := 0, grace := 0 }, boot := { s2.boot with loads := [], loading := false } }
/-- L4, where KX3 is not in HALTED or SAFE already. -/
def safeEntry (s : State) (cause : Nat) (tamper : Bool) : State := if stopped s then s else safeNow s cause tamper

/-! ## Accepting a Quench (R323, R324, Table 11-8 step 1) -/

def QReq.num : QReq → Nat
  | .oper _ => 0 | .tenant => 1 | .escalation => 2 | .firmware => 3
/-- The Quench in progress for a PID. -/
def quenchOf (s : State) (pid : Nat) : Option Quench := s.qn.active.find? (fun q => decide (q.pid = pid))
def setQuench (s : State) (q : Quench) : State :=
  { s with qn := { s.qn with active := s.qn.active.map (fun x => if x.pid = q.pid then q else x) } }

/-- Step 1: QUENCHING, the record, the function in ERROR, and the generation step, which R322 may hold up. -/
def quenchStart (s : State) (pid outcome : Nat) (req : QReq) (esc : Bool) : State :=
  let wasRun := pstate s pid = .running
  let out := if outcome = 0 && !wasRun then 1 else outcome
  let g := ((pshared s pid).gen + 1) % 64
  let s1 := record (setState s pid .quenching) 0x0041 pid 0 1 (out + 16 * req.num + 256 * g)
  let (ok, s2) := genStep (tdispError s1 pid) pid
  { s2 with qn := { s2.qn with active := s2.qn.active ++ [{
      pid := pid, outcome := out, wasRun := wasRun, requester := req, esc := esc, step := 1, place := none,
      blocked := !ok, flushed := false, domsDone := false, keysDone := false, drained := false, lastAck := 0, held := 0 }] } }

/-- A request merged into the Quench in progress raises its outcome, up to the end of step 10 (R324). -/
def quenchMerge (s : State) (q : Quench) (outcome : Nat) (esc : Bool) : State :=
  setQuench s { q with outcome := Nat.max q.outcome outcome, esc := q.esc || esc }

/-- A Quench request: accepted, merged, or refused for the partition's state (R323). -/
def quenchRequest (s : State) (pid outcome : Nat) (req : QReq) (esc : Bool := false) : Bool × State :=
  match pstate s pid with
  | .configured | .running => (true, quenchStart s pid outcome req esc)
  | .quenching => match quenchOf s pid with
    | some q => if q.step ≤ 10 then (true, quenchMerge s q outcome esc) else (false, s)
    | none => (false, s)
  | _ => (false, s)

/-! ## The escalation ladder (R479 to R482) -/

/-- TMP_ESC and the FAULT event at an escalation to L1 or above (R478). -/
def escNote (s : State) (level : Nat) : State :=
  fwEvent { s with tmp := { s.tmp with escCount := satAdd 65535 s.tmp.escCount 1, escMax := Nat.max s.tmp.escMax level } }
    (pgFw 0x12) 2
/-- The ESCALATION record of a PID (R490). -/
def escRecord (s : State) (pid new old cause kind : Nat) : State :=
  escNote (record s 0x0046 pid (new + 1) (if pid = 0 then 0 else 1) (new + 16 * old + 65536 * cause) (65536 * kind)) new

/-- 60 s on the time count (R482). -/
def sixtySeconds : Nat := 6000000000
/-- Counts an L2 acceptance of a PID: the level becomes 3 at the third within 60 s. -/
def l2Count (s : State) (pid : Nat) : Nat × State :=
  let ts := ((smGet [] s.tmp.l2 pid).filter (fun t => decide (s.time < t + sixtySeconds))) ++ [s.time]
  (if 3 ≤ ts.length then 3 else 2, { s with tmp := { s.tmp with l2 := smSet [] s.tmp.l2 pid ts } })

/-- A fault at L2 attributed to a PID (R481, R482). The fault's own record is written by its caller. -/
def faultPid (s : State) (pid cause kind : Nat) : State :=
  match pstate s pid with
  | .configured | .running =>
    let (lvl, s1) := l2Count s pid
    quenchStart (escRecord s1 pid lvl 0 cause kind) pid (if lvl = 3 then 2 else 0) .escalation true
  | .quenching =>
    match quenchOf s pid with
    | none => s
    | some q =>
      if q.outcome = 2 && q.step ≤ 10 then s
      else if 10 < q.step then
        -- step 11: the reload ends and a Quench toward quarantine is accepted at once
        let s1 := escRecord s pid 3 2 cause kind
        let s2 := { s1 with
          qn := { s1.qn with active := s1.qn.active.filter (fun x => decide (x.pid ≠ pid)) },
          boot := { s1.boot with loads := s1.boot.loads.filter (fun l => l.why ≠ .quench pid) } }
        quenchStart s2 pid 2 .escalation true
      else if q.esc then quenchMerge (escRecord s pid 3 2 cause kind) q 2 true
      else
        let (lvl, s1) := l2Count s pid
        quenchMerge (escRecord s1 pid lvl 0 cause kind) q (if lvl = 3 then 2 else 0) true
  | _ => s

/-! ## Agents marked faulted (R51, R148, R276, R321) -/

/-- The sites an agent is wired to or controls. -/
def agentSites (s : State) (a : Nat) : List Nat :=
  dedup ((s.pins.wiring.filter (fun c => decide (c.1 = a))).map (fun c => c.2) ++
    (List.range 16).filter (fun k => siteCtrl s k = some a))
/-- Whether the agent's tables in the current version serve `pid` (Table 9-8; log entry 24 for NIs and engines). -/
def serves (s : State) (a pid : Nat) : Bool :=
  let b := s.part.active
  match (agent s a).kind with
  | 1 => (agentSites s a).isEmpty || (agentSites s a).any (fun k => b.pSites pid / 2 ^ k % 2 = 1)
  | 2 => b.regions.any (fun i => decide (b.rOwner i = pid ∨ b.rGt i ≠ 0) && (regionCheckers s b i).contains a)
  | 3 | 7 => (agentSites s a).any (fun k => b.pSites pid / 2 ^ k % 2 = 1)
  | 4 => (regionsOf b pid).any (fun i => decide (b.rTier i = 2))
  | 5 => decide (b.pPeers pid ≠ 0)
  | 6 => (b.sources pid).any (fun n => match sourceLoc s n with | some (x, _) => decide (x = a) | none => false)
  | 8 => decide (b.pVf pid < 64)
  | _ => false

/-- Marks an agent faulted: its record, the events, an end to what waits for it, and L2 for each PID it serves. -/
def markFaulted (s : State) (a cause : Nat) : State :=
  if (agent s a).faulted then cpbDropAgent s a
  else
    let s1 := setAgent s a { agent s a with faulted := true, cause := cause, delivering := false }
    let s2 := record s1 0x0030 0 1 0 (a + 65536 * (agent s1 a).kind + 2 ^ 24 * cause)
    let s3 := topEvent (fwEvent (cpbDropAgent s2 a) (pgFw 0x15) 1) 4
    let s4 := [0, 1, 2, 3].foldl (fun t w =>
      if (cpbPort t w).busy && decide ((cpbPort t w).agent = a) then cpbPortDone t w 2 else t) s3
    tenants.foldl (fun t p =>
      if (pstate t p = .running || pstate t p = .quenching || pstate t p = .quarantined) && serves t a p
      then faultPid t p 0x0030 (agent t a).kind else t) s4
/-- The resources that an agent serves are withheld from every partition, its sites among them (R148, R276). -/
def withhold (s : State) (a : Nat) : State :=
  holdSites { s with part := { s.part with withheld := if s.part.withheld.contains a then s.part.withheld else s.part.withheld ++ [a] } }
    (agentSites s a)

end Sys2Proof.Machine
end

