-- ==== Sys2Proof/Machine/Entropy.lean ====
section
/-! DEFINITION. The entropy source, its health tests, conditioning and pool, and the DRBG (R214 to R217). Raw bits and DRBG
output are free values. -/
namespace Sys2Proof.Machine

/-! ## Health tests (Table 7-11) -/

/-- One second on the time count. -/
def oneSecond : Nat := 100000000
/-- The raw bits of a window in order of sampling, bit 0 first. -/
def rawBits (raw : BitVec 1024) : List Bool := (List.range 1024).map raw.getLsbD
/-- The longest run of identical consecutive bits, after a run of `n` bits equal to `b`. -/
def longestRun : Bool → Nat → Nat → List Bool → Nat
  | _, _, best, [] => best
  | b, n, best, x :: xs =>
    let m := if x = b then n + 1 else 1
    longestRun x m (Nat.max best m) xs
/-- Repetition count: cutoff 41. -/
def repetitionFails (raw : BitVec 1024) : Bool := decide (41 ≤ longestRun false 0 0 (rawBits raw))
/-- Adaptive proportion: 795 or more bits of the window equal its first bit. -/
def adaptiveFails (raw : BitVec 1024) : Bool := decide (795 ≤ ((rawBits raw).filter (fun b => b == raw.getLsbD 0)).length)
/-- A continuous test fails on the window. -/
def rawFails (raw : BitVec 1024) : Bool := repetitionFails raw || adaptiveFails raw

/-! ## Conditioning and the pool (R214) -/

/-- The chaining of CMAC over the blocks before the last. -/
def cmacGo (ks : List (List Nat)) : Nat → List Byte → List Byte → List Byte
  | 0, x, _ => x
  | n + 1, x, d => cmacGo ks n (aesEnc ks (List.zipWith (fun a b => a ^^^ b) x (d.take 16))) (d.drop 16)
/-- CMAC with AES over a message of whole blocks, at least one (SP 800-38B). -/
def cmacBlocks (key m : List Byte) : List Byte :=
  let ks := aesKeys key
  let zero := List.replicate 16 (0 : Byte)
  let k1 := beBytes 16 (xtsNext (beVal (aesEnc ks zero)))
  let n := m.length / 16 - 1
  let x := cmacGo ks n zero m
  aesEnc ks (List.zipWith (fun a b => a ^^^ b) (List.zipWith (fun a b => a ^^^ b) x (m.drop (16 * n))) k1)
/-- One block of full entropy from 1,024 raw bits (bit order: log entry 81). -/
def condition (raw : BitVec 1024) : BitVec 128 :=
  BitVec.ofNat 128 (beVal (cmacBlocks (beBytes 32 Config.conditionKey.toNat) (leBytes 128 raw.toNat)))
/-- The raw bits that free values `base` and `base` + 1 stand for. -/
def rawFree (base : Nat) : BitVec 1024 := BitVec.ofNat 1024 ((Config.freeBits base).toNat + 2 ^ 512 * (Config.freeBits (base + 1)).toNat)
/-- The blocks that the pool holds at most. -/
def poolSize : Nat := 256
/-- The time that one block takes at 4 Mbit/s of raw bits, the rate of the slow corner (log entry 81). -/
def blockTime : Nat := 25600
/-- `n` blocks enter the pool. -/
def poolFill (s : State) (n : Nat) : State :=
  drew { s with rng := { s.rng with pool := s.rng.pool ++ (List.range n).map (fun i => condition (rawFree (s.free + 2 * i))) } } (2 * n)
/-- The pool at the present time: it refills continuously while the source delivers. -/
def poolRefill (s : State) : State :=
  if s.rng.es ≠ 0 then s
  else
    let due := (s.time - s.rng.poolAt) / blockTime
    let n := Nat.min (poolSize - s.rng.pool.length) due
    let s1 := poolFill s n
    { s1 with rng := { s1.rng with poolAt := if n < due then s.time else s.rng.poolAt + n * blockTime } }
/-- `n` blocks leave the pool to seed the DRBG; those that it does not hold yet are conditioned while the request waits. -/
def takeBlocks (s : State) (n : Nat) : State :=
  let s1 := poolRefill s
  let s2 := poolFill s1 (n - s1.rng.pool.length)
  { s2 with rng := { s2.rng with seed := s2.rng.pool.take n, pool := s2.rng.pool.drop n } }

/-! ## The DRBG (R217) -/

/-- A reseed with 384 bits from the pool. -/
def reseed (s : State) : State :=
  let s1 := takeBlocks s 3
  { s1 with rng := { s1.rng with genCount := 0, reseeds := satInc s1.rng.reseeds, lastSeed := s1.time } }
/-- Whether a request needs a reseed first. -/
def reseedDue (s : State) (pr : Bool) : Bool :=
  pr || decide (2 ^ 20 ≤ s.rng.genCount) || decide (s.rng.lastSeed + sixtySeconds ≤ s.time)
/-- A request that needs a reseed has to wait for the source to restart: the pool has too few blocks, and none comes. -/
def drbgWaits (s : State) (pr : Bool) : Bool :=
  !s.rng.dead && reseedDue s pr && decide (s.rng.es = 1) && decide (s.rng.pool.length < 3)
/-- Grants one generate request, with free values of output from `freeNow` on; none is ENTROPY_FAIL. -/
def drbgGrant (s : State) (pr : Bool) : Option State :=
  if s.rng.dead then none
  else if reseedDue s pr then
    (if s.rng.es = 2 then none else
      let s1 := reseed s
      some { s1 with rng := { s1.rng with genCount := 1 } })
  else some { s with rng := { s.rng with genCount := s.rng.genCount + 1 } }
/-- `n` bytes of DRBG output from free values `base` on. -/
def drbgBytes (base n : Nat) : List Byte :=
  (List.range n).map (fun i => BitVec.ofNat 8 ((Config.freeBits (base + i / 64)).toNat / 2 ^ (8 * (i % 64))))

/-! ## Failures of the health tests (R216) -/

/-- The source ends: a record and L0 (Table 17-7). -/
def entropyFailed (s : State) : State :=
  record (fwEvent { s with rng := { s.rng with es := 2 } } (pgFw 6) 2) 0x0025 0 1 0 s.rng.intermittent
/-- A failed start-up test; the third in a row ends the source. -/
def startupFail (s : State) : State :=
  let s1 := { s with rng := { s.rng with es := 1, startFails := s.rng.startFails + 1 } }
  if 3 ≤ s1.rng.startFails then entropyFailed s1 else s1
/-- A failed continuous test: the window and its conditioning block are discarded, and the source restarts; the third within
one second ends it. -/
def continuousFail (s0 : State) : State :=
  let s := poolRefill s0
  let ts := s.rng.failTimes.filter (fun t => decide (s.time < t + oneSecond)) ++ [s.time]
  let s1 := { s with rng := { s.rng with es := 1, intermittent := satAdd 255 s.rng.intermittent 1, failTimes := ts } }
  if 3 ≤ ts.length then entropyFailed s1 else s1
/-- The start-up test has passed; its raw bits are discarded. -/
def startupPass (s : State) : State := { s with rng := { s.rng with es := 0, startFails := 0, poolAt := s.time } }
/-- 1,024 raw bits pass through the health tests: those of the start-up test while the source restarts; otherwise a window that
the continuous tests refuse, or that becomes one block of the pool where it has room. -/
def rawWindow (s : State) (raw : BitVec 1024) : State :=
  match s.rng.es with
  | 0 =>
    if rawFails raw then continuousFail s
    else
      let s1 := poolRefill s
      if poolSize ≤ s1.rng.pool.length then s1
      else { s1 with rng := { s1.rng with pool := s1.rng.pool ++ [condition raw] } }
  | 1 => if rawFails raw then startupFail s else startupPass s
  | _ => s
/-- Whether the core island runs, so that the entropy source works. -/
def coreOn (s : State) : Bool := s.block ≠ .reset && s.block ≠ .sleep

end Sys2Proof.Machine
end

