-- ==== Sys2Proof/Machine/Fuse.lean ====
section
/-! DEFINITION. The anti-fuse array: its encodings, the sense sequence, reads, programming and the counters (chapter 4,
R515, R516). -/
namespace Sys2Proof.Machine

/-! ## Rows (R101 to R105, Table 4-1) -/

/-- How a row is decoded (R101). -/
inductive RowKind where
  | reserved | ecc | dual | thermo | flag
deriving DecidableEq, Repr

/-- Table 4-1. -/
def rowKind (r : Nat) : RowKind :=
  if r < 0x10 then .ecc else if r = 0x10 then .thermo else if r = 0x18 then .ecc else if r = 0x19 then .flag
  else if r = 0x20 ∨ r = 0x21 then .dual else if 0x100 ≤ r ∧ r < 0x300 then .thermo
  else if 0x300 ≤ r ∧ r < 0x330 then .ecc else if r = 0x330 then .flag else if 0x340 ≤ r ∧ r ≤ 0x388 then .ecc
  else if 0x7F0 ≤ r ∧ r ≤ 0x7FF then .ecc else .reserved
/-- The number of the row's area: its area enable in PG_CTRL (R122). -/
def rowArea (r : Nat) : Nat :=
  if r < 0x10 then 0 else if r = 0x10 then 1 else if r < 0x20 then 2 else if r < 0x22 then 3 else if r < 0x300 then 4
  else if r < 0x331 then 5 else if r < 0x380 then 6 else if r < 0x389 then 7 else 8
/-- Rows that no read returns (R104). -/
def rowHidden (r : Nat) : Bool := decide ((0x340 ≤ r ∧ r < 0x388) ∨ (0x7F0 ≤ r ∧ r ≤ 0x7FF))
/-- Keys of spare and redirection rows. -/
def spareKey (e : Nat) : Nat := 0x1000 + e
def redirKey (n : Nat) : Nat := 0x2000 + n

def fuseCells (s : State) (key : Nat) : BitVec 72 := smGet 0 s.fuse.cells key
def fuseMarginal (s : State) (key : Nat) : BitVec 72 := smGet 0 s.fuse.marginal key
/-- The cells of a group of three. -/
def groupMask (g : Nat) : BitVec 72 := BitVec.ofNat 72 (7 * 2 ^ (3 * g))
/-- The bitmap of the groups with a cell at 1. -/
def groupsOf (c : BitVec 72) : Nat := bitmap ((List.range 24).filter (fun g => (c &&& groupMask g) ≠ 0))
/-- 1 plus the highest set bit, or 0. -/
def topBit (n : Nat) (m : Nat) : Nat := (bitsOf n m).foldl (fun _ i => i + 1) 0
/-- The value of a thermometer row. -/
def thermoOf (c : BitVec 72) : Nat := topBit 24 (groupsOf c)

/-- What an ECC row holds: blank, data with the number of corrections, or nothing that decodes. -/
inductive EccRow where
  | blank | data (d : DWord) (corrected : Nat) | bad
deriving DecidableEq, Repr

/-- `n` distinct elements of a list, in the order that free choices from `base` on give. -/
def pickFrom (base : Nat) : Nat → List Nat → List Nat
  | 0, _ => []
  | n + 1, xs =>
    let i := Config.hsiaoOrder (base + n) % xs.length
    xs.getD i 0 :: pickFrom base n (xs.eraseIdx i)
/-- The bytes with `k` bits set. -/
def columnBytes (k : Nat) : List Nat := (List.range 256).filter (fun b => (bitsOf 8 b).length = k)
/-- The check-matrix columns of the data cells: distinct odd-weight bytes, the 56 of weight 3 and 8 of weight 5 (R101; their order
and the 8 are open: log entry 4). The columns of the check cells are the bytes of weight 1. -/
def hsiaoColumns : List Nat := pickFrom 0 64 (columnBytes 3 ++ pickFrom 64 8 (columnBytes 5))
/-- The check cells of 64 data bits: the sum of the columns of its 1 bits. -/
def hsiaoCheck (d : DWord) : Byte :=
  BitVec.ofNat 8 (((List.zip (List.range 64) hsiaoColumns).filter (fun c => d.getLsbD c.1)).foldl (fun acc c => acc ^^^ c.2) 0)
/-- The 72 cells of 64 data bits with their check cells. -/
def eccCells (d : DWord) : BitVec 72 := BitVec.ofNat 72 (d.toNat + 2 ^ 64 * (hsiaoCheck d).toNat)
/-- Whether 72 cells are a codeword. -/
def eccOk (c : BitVec 72) : Bool := eccCells (BitVec.ofNat 64 c.toNat) = c
/-- SECDED over one row. -/
def eccDecode (c : BitVec 72) : EccRow :=
  if c = 0 then .blank
  else if eccOk c then .data (BitVec.ofNat 64 c.toNat) 0
  else match (List.range 72).find? (fun i => eccOk (c ^^^ BitVec.ofNat 72 (2 ^ i))) with
    | some i => .data (BitVec.ofNat 64 (c ^^^ BitVec.ofNat 72 (2 ^ i)).toNat) 1
    | none => .bad
/-- The data of a row under its kind: dual-rail rows need complementary halves. -/
def rowDecode (k : RowKind) (c : BitVec 72) : EccRow :=
  match eccDecode c with
  | .data d n => if k = .dual && (d.toNat % 2 ^ 32 + d.toNat / 2 ^ 32 ≠ 2 ^ 32 - 1) then .bad else .data d n
  | x => x

/-! ## Reads of cells (R111, R117) -/

/-- Reads a row against the normal reference: a marginal cell reads a free value. -/
def readNormal (s : State) (base key : Nat) : BitVec 72 :=
  fuseCells s key ||| (fuseMarginal s key &&& BitVec.ofNat 72 (Config.freeBits (base + key)).toNat)
/-- Reads a row against the high-sensitivity reference: a marginal cell reads 1. -/
def readHigh (s : State) (key : Nat) : BitVec 72 := fuseCells s key ||| fuseMarginal s key

/-! ## Redirection (R107, R108) -/

/-- The 36 cells of entry e, from a way of reading rows. -/
def redirEntry (rd : Nat → BitVec 72) (e : Nat) : Nat := nfld (rd (redirKey (e / 2))).toNat (36 * (e % 2) + 35) (36 * (e % 2))
def entrySrc (v : Nat) : Nat := nfld v 10 0
/-- A used entry is valid when its fields are complements and its other cells 0. -/
def entryValid (v : Nat) : Bool := decide (nfld v 21 11 = 0x7FF - entrySrc v ∧ nfld v 35 22 = 0)
/-- The valid entries. -/
def validEntries (rd : Nat → BitVec 72) : List Nat :=
  (List.range 64).filter (fun e => decide (redirEntry rd e ≠ 0) && entryValid (redirEntry rd e))
/-- The first entry that is invalid or conflicts with another. -/
def badEntry (rd : Nat → BitVec 72) : Option Nat :=
  (List.range 64).find? (fun e => decide (redirEntry rd e ≠ 0) && (!entryValid (redirEntry rd e) ||
    (List.range 64).any (fun f => decide (f ≠ e) && decide (redirEntry rd f ≠ 0) && entryValid (redirEntry rd f) &&
      decide (entrySrc (redirEntry rd f) = entrySrc (redirEntry rd e)))))
/-- The spare that serves a data row. -/
def spareOf (rd : Nat → BitVec 72) (r : Nat) : Option Nat :=
  (validEntries rd).find? (fun e => decide (entrySrc (redirEntry rd e) = r))
/-- A data row with its spare ORed in; `rd` reads the redirection rows, `rc` the cells. -/
def rowRead (rd rc : Nat → BitVec 72) (r : Nat) : BitVec 72 :=
  match spareOf rd r with
  | some e => rc r ||| rc (spareKey e)
  | none => rc r

/-! ## The sense sequence (R109 to R112, R116) -/

/-- Rows read twice. -/
def phase1Rows : List Nat := [0x010, 0x018, 0x019, 0x020, 0x021]
/-- The keys that a pass of phase 1 reads. -/
def phase1Keys (rd : Nat → BitVec 72) : List Nat :=
  (List.range 32).map redirKey ++ phase1Rows ++ (phase1Rows.filterMap (spareOf rd)).map spareKey
/-- How a cell of pass `p` (from 1) and side `ab` reads. -/
def passRead (s : State) (p ab : Nat) (key : Nat) : BitVec 72 :=
  if p ≤ 3 then readNormal s (s.free + (2 * p + ab) * 0x4000) key else readHigh s key
/-- Whether passes A and B of attempt `p` agree. Bit p - 1 of `disturbed` says that some cell read differently in them for another
reason than a marginal cell, which nothing in the state decides. -/
def passMatches (s : State) (disturbed p : Nat) : Bool :=
  decide (disturbed / 2 ^ (p - 1) % 2 = 0) && (phase1Keys (passRead s p 0)).all (fun k => passRead s p 0 k = passRead s p 1 k)
/-- The first of 8 attempts whose two sides agree; none when all 8 mismatch. -/
def matchedPass (s : State) (disturbed : Nat) : Option Nat := ((List.range 8).map (· + 1)).find? (passMatches s disturbed)

/-- The rows that phase 2 decodes as ECC, in a life-cycle state (R104). -/
def phase2Ecc (lcs : Nat) : List Nat :=
  List.range 0x10 ++ (List.range 0x30).map (· + 0x300) ++
  (if lcs = 5 ∨ lcs = 6 then [] else (List.range 0x40).map (· + 0x340)) ++
  (List.range 9).map (· + 0x380) ++ (List.range 16).map (· + 0x7F0)
/-- The value of counter k from the cells of its rows (R105). -/
def counterOf (rc : Nat → BitVec 72) (k : Nat) : Nat :=
  (List.range 16).foldl (fun acc i =>
    let v := thermoOf (rc (0x100 + 16 * k + i))
    if v = 0 then acc else 24 * i + v) 0

/-- The data of a decoded row, 0 when blank or bad. -/
def EccRow.value : EccRow → Nat
  | .data d _ => d.toNat
  | _ => 0
/-- Bad rows in the order of Table 4-5: CRIT, TRIM, IDENT, KEYHASH, OWNER of the active slot, POD, UDS; with their area
code in FAIL_AREA. -/
def failAreas (lcs epoch : Nat) (bad blank : List Nat) (critBad trimBad : Bool) : List Nat :=
  let own := (List.range 8).map (fun i => 0x340 + 8 * (epoch - 1) + i)
  let active := decide (1 ≤ epoch ∧ epoch ≤ 8)
  (if critBad then [3] else []) ++ (if trimBad then [4] else []) ++
  (if bad.any (fun r => decide (r < 0x10)) then [1] else []) ++
  (if bad.any (fun r => decide (0x300 ≤ r ∧ r < 0x330)) then [6] else []) ++
  (if (active && bad.any own.contains) || (decide (lcs = 4) && (!active || own.all blank.contains)) then [7] else []) ++
  (if bad.any (fun r => decide (0x380 ≤ r ∧ r ≤ 0x388)) then [8] else []) ++
  (if bad.any (fun r => decide (0x7F0 ≤ r)) || (decide (lcs = 3 ∨ lcs = 4 ∨ lcs = 5) && blank.any (fun r => decide (0x7F0 ≤ r)))
    then [9] else [])

/-- The decode of every sensed row (step 7). The blank default of row 0x021, "the tightest thresholds", has no encoding in the spec
and is held as 0, which selects nothing in the model (DESIGN CHOICE, log entry 80). -/
def senseDecode (s : State) (p : Nat) : Sensed × BitVec 32 :=
  let rd := passRead s p 0
  let r1 := rowRead rd rd
  let r2 := rowRead rd (readHigh s)
  let lcs := Nat.min 6 (thermoOf (r1 0x10))
  let crit := rowDecode .ecc (r1 0x18)
  let t0 := rowDecode .dual (r1 0x20)
  let t1 := rowDecode .dual (r1 0x21)
  let flags := groupsOf (r1 0x19)
  let kx2 := decide (crit.value % 2 = 1)
  let dec := (phase2Ecc lcs).map (fun r => (r, eccDecode (r2 r)))
  let bad := (dec.filter (fun c => c.2 = .bad)).map (fun c => c.1)
  let blank := (dec.filter (fun c => c.2 = .blank)).map (fun c => c.1)
  let cnt := (List.range 32).foldl (fun m k => smSet 0 m k (counterOf r2 k)) []
  let areas := failAreas lcs (smGet 0 cnt 18) bad blank (crit = .bad) (t0 = .bad || t1 = .bad)
  let fixed := listSum ((crit :: t0 :: t1 :: dec.map (fun c => c.2)).map (fun e => match e with | .data _ n => n | _ => 0))
  let badSets := (List.range 4).filter (fun k => bad.any (fun r => decide (0x300 + 12 * k ≤ r ∧ r < 0x30C + 12 * k)))
  ({ lcs := lcs, kx2 := kx2, noTestUnlock := decide (crit.value / 2 % 2 = 1), podKeyed := decide (crit.value / 4 % 2 = 1),
     noHostpush := decide (flags % 2 = 1), noPeer := decide (flags / 2 % 2 = 1), noRecovery := decide (flags / 4 % 2 = 1),
     noDebugUnlock := decide (flags / 8 % 2 = 1), sealedOnly := decide (flags / 16 % 2 = 1),
     sensorTrim := w32 t1.value, counters := cnt,
     rows := dec.foldl (fun m c => smSet 0 m c.1 (BitVec.ofNat 64 c.2.value)) [],
     blank := blank, bad := bad,
     revoked := BitVec.ofNat 4 (groupsOf (r2 0x330)) ||| BitVec.ofNat 4 (bitmap badSets),
     unlockActive := s.fuse.unlockLatch && decide (flags / 8 % 2 = 0) && decide (2 ≤ lcs ∧ lcs ≤ 5),
     mismatch := p - 1, highSens := decide (4 ≤ p), integFail := !areas.isEmpty, corrected := Nat.min 255 fixed,
     failArea := areas.headD 0, redirInvalid := false, redirEntry := 0, redirUsed := (validEntries rd).length,
     spares := (validEntries rd).map (fun e => (e, entrySrc (redirEntry rd e))) },
   w32 t0.value)

/-- KX_DBG_EN and KX_TEST_EN (Table 4-4). -/
def senseEnables (z : Sensed) : Bool × Bool :=
  match z.lcs with
  | 0 | 1 => (true, true)
  | 2 | 5 => (z.unlockActive, z.unlockActive && !z.noTestUnlock)
  | 3 => (z.unlockActive, false)
  | _ => (false, false)

/-- Step 8: the critical outputs are driven, and then KX_CRIT_VALID. -/
def driveCritical (s : State) (z : Sensed) (trim : BitVec 32) : State :=
  let (dbg, test) := senseEnables z
  { s with pins := { s.pins with lcs := BitVec.ofNat 6 (2 ^ z.lcs - 1), dbgEn := dbg, testEn := test, hubTrim := trim,
                                 critValid := true } }

/-- Steps 2 to 8 of Table 4-3a: the halt code, 0 for none, and what the sense leaves. NO_DEBUG_UNLOCK clears the latch (R114). -/
def senseArray (s : State) (disturbed : Nat) : Nat × State :=
  let s1 := drew s 0x40000
  match matchedPass s disturbed with
  | none => (0x13, { s1 with fuse := { s1.fuse with sensed := { Sensed.reset with mismatch := 7 } } })
  | some p =>
    let rd := passRead s p 0
    match badEntry rd with
    | some e =>
      (0x11, { s1 with fuse := { s1.fuse with sensed := { Sensed.reset with
        mismatch := p - 1, highSens := decide (4 ≤ p), integFail := true, failArea := 10, redirInvalid := true,
        redirEntry := e, redirUsed := (validEntries rd).length } } })
    | none =>
      let (z, trim) := senseDecode s p
      let s2 := { s1 with fuse := { s1.fuse with sensed := z, unlockLatch := s1.fuse.unlockLatch && !z.noDebugUnlock } }
      if z.integFail && (!z.kx2 || z.failArea = 3) then (0x14, s2) else (0, driveCritical s2 z trim)

/-! ## Commands of FUSE_CMD (R117 to R121, R516) -/

/-- The key that FUSE_ROW names, or none for an index outside its array. -/
def fuseTarget (row : Word) : Option Nat :=
  let n := fld row 10 0
  if bitOf row 31 && bitOf row 30 then none
  else if bitOf row 31 then (if n < 64 then some (spareKey n) else none)
  else if bitOf row 30 then (if n < 32 then some (redirKey n) else none)
  else some n
/-- The end of an operation, with its DONE event. -/
def fuseEnd (s : State) (result : Nat) : State :=
  fwEvent { s with fuse := { s.fuse with result := result, busy := false, op := none } } (pgFw 1) 1
/-- A refused operation: nothing has started. -/
def fuseResult (s : State) (result : Nat) : State := { s with fuse := { s.fuse with result := result } }
/-- Writes to the FUSE page are performed only from BC (R81); an operation issued while BUSY is ignored. -/
def fuseCmd (s : State) (w : Who) (k : State → State) : State :=
  byCore s w (fun s =>
    if w ≠ .bc then refuse s (.fab w) (.fw 1 0x40) 0x1040 .eaccess
    else if s.fuse.busy then fuseResult s 11
    else k s)
/-- FUSE_DATA and CHECK as a read leaves them. -/
def fuseData (s : State) (c : BitVec 72) : State :=
  { s with fuse := { s.fuse with data := BitVec.ofNat 64 c.toNat, check := BitVec.ofNat 8 (c.toNat / 2 ^ 64) } }

/-- Whether spare `e` repairs a hidden row: as the sense found it, or as its entry reads now against either reference. A
programmed cell never reads 0 again, so no later programming hides what the sense saw (R104). -/
def spareHidden (s : State) (rd : Nat → BitVec 72) (e : Nat) : Bool :=
  s.fuse.sensed.spares.any (fun c => decide (c.1 = e) && rowHidden c.2) ||
  [redirEntry rd e, redirEntry (readHigh s) e].any (fun v => decide (v ≠ 0) && entryValid v && rowHidden (entrySrc v))
/-- READ_RAW: the cells as programmed; a spare that repairs a hidden row is hidden too. Reads by command use the normal reference,
under which a marginal cell reads a free value (DESIGN CHOICE, log entry 80: R111 speaks of the sense only). -/
def fuseReadRaw (s : State) : State :=
  match fuseTarget s.fuse.row with
  | none => fuseEnd s 8
  | some k =>
    let rd := readNormal s s.free
    let hid := if 0x2000 ≤ k then false else if 0x1000 ≤ k then spareHidden s rd (k - 0x1000) else rowHidden k
    if hid then fuseEnd (fuseData s 0) 7
    else fuseEnd (drew (fuseData s (rd k)) 0x4000) 0
def execReadRaw (w : Who) (s : State) : Host.Outcome State Fault Refusal := .next (fuseCmd s w fuseReadRaw)

/-- READ_DECODED (Table 19-12), against the normal reference (log entry 80). -/
def fuseReadDecoded (s : State) : State :=
  match fuseTarget s.fuse.row with
  | none => fuseEnd s 8
  | some k =>
    if 0x1000 ≤ k then fuseEnd s 8
    else if rowHidden k then fuseEnd (fuseData s 0) 7
    else
      let rd := readNormal s s.free
      let c := rowRead rd rd k
      let s1 := drew s 0x4000
      match rowKind k with
      | .reserved => fuseEnd s 9
      | .thermo | .flag => fuseEnd (fuseData s1 (BitVec.ofNat 72 (groupsOf c))) 0
      | kind => match rowDecode kind c with
        | .bad => fuseEnd (fuseData s1 0) 12
        | e => fuseEnd (fuseData s1 (BitVec.ofNat 72 e.value)) 0
def execReadDecoded (w : Who) (s : State) : Host.Outcome State Fault Refusal := .next (fuseCmd s w fuseReadDecoded)

/-- Whether the area of a row is enabled, and the row's kind open to PROGRAM_ROW in this state (R122). -/
def areaEnabled (s : State) (op k : Nat) : Bool :=
  let en := (hdr s (pgFw 1)).ctrl
  if 0x1000 ≤ k then bitOf en 9
  else bitOf en (rowArea k) && !(decide (op = 3) && decide (s.fuse.sensed.lcs = 3 ∨ s.fuse.sensed.lcs = 4) &&
    decide (k = 0x18 ∨ (0x300 ≤ k ∧ k < 0x330)))
/-- Whether a row may be programmed at all (R103, Table 4-2). -/
def rowReserved (k : Nat) : Bool :=
  decide (k < 0x1000) && (rowKind k = .reserved || decide (0x230 ≤ k ∧ k < 0x300))
/-- Whether the operation fits the row's kind. -/
def opFits (op k group : Nat) : Bool :=
  match op with
  | 3 => decide (k < 0x1000) && (rowKind k = .ecc || rowKind k = .dual)
  | 4 => decide (k < 0x1000) && (rowKind k = .thermo || rowKind k = .flag) && decide (group < 24)
  | 5 => decide (k < 0x1000) && rowHidden k
  | _ => decide (0x1000 ≤ k)

/-- The row as a journal record names it in bytes 16 and 17: the row, with bit 15 for a spare and bit 14 for a redirection row. -/
def journalRow (k : Nat) : Nat :=
  if 0x2000 ≤ k then 0x4000 + (k - 0x2000) else if 0x1000 ≤ k then 0x8000 + (k - 0x1000) else k
/-- The request that FUSE_ROW and the registers hold, as DETAIL of a FUSE_BEGIN record: row, OP, GROUP or CHECK in byte 19, FUSE_DATA in
bytes 20 to 27 (log entry 83). -/
def requestDetail (s : State) (op : Nat) : Nat :=
  let k := match fuseTarget s.fuse.row with | some k => journalRow k | none => 0xFFFF
  k + 2 ^ 16 * op + 2 ^ 24 * (if op = 4 then s.fuse.group else if op = 6 then s.fuse.check.toNat else 0) + 2 ^ 32 * s.fuse.data.toNat
/-- FUSE_END for a row, an OP and a result. -/
def endDetail (row op result : Nat) : Nat := row + 2 ^ 16 * op + 2 ^ 24 * result
/-- A programming request is refused with nothing programmed. -/
def fuseRefused (s : State) (op k result : Nat) : State := fuseJournal (fuseResult s result) 8 (endDetail (journalRow k) op result)
/-- A programming operation ends. -/
def fuseProgEnd (s : State) (op k result : Nat) : State := fuseJournal (fuseEnd s result) 8 (endDetail (journalRow k) op result)

/-- An operation starts with the pattern of the cells it wants at 1. `exact`: R118 refuses a row with other cells at 1. What is
"already 1" counts completed cells: a marginal cell, whose pulse was cut, does not count (DESIGN CHOICE, log entry 80). -/
def fuseStart (s : State) (op k : Nat) (pattern : BitVec 72) (exact : Bool) : State :=
  let have' := fuseCells s k
  if exact && (have' &&& ~~~ pattern) ≠ 0 then fuseRefused s op k 5
  else if pattern &&& ~~~ have' = 0 && op = 4 then fuseProgEnd s op k 0
  else { s with fuse := { s.fuse with busy := true, op := some { op := op, key := k, cells := pattern } } }

/-- The checks that every programming operation passes first: reserved, kind, area, supply (order: log entry 30). FUSE_BEGIN is
written before them (R155). -/
def fuseProgram (s : State) (op : Nat) (window group : Nat) (k : State → Nat → State) : State :=
  let s := fuseJournal { s with fuse := { s.fuse with window := window } } 7 (requestDetail s op)
  match fuseTarget s.fuse.row with
  | none => fuseRefused s op 0xFFFF 8
  | some key =>
    if rowReserved key then fuseRefused s op key 9
    else if !opFits op key group then fuseRefused s op key 8
    else if !areaEnabled s op key then fuseRefused s op key 4
    else if window = 0 then fuseRefused s op key 1
    else if window ≠ 1 then fuseRefused s op key 2
    else k s key

/-- PROGRAM_SECRET takes its bits from the secret stage (R119). When that holds none for the row, they are drawn from the DRBG with
prediction resistance; a draw that has to wait keeps the operation BUSY, and one that the DRBG cannot give ends it with ABORTED
(log entry 82). -/
def fuseSecret (s : State) (k : Nat) : State :=
  let draw : State :=
    if drbgWaits s true then { s with fuse := { s.fuse with busy := true, await := some k } }
    else match drbgGrant s true with
      | none => fuseProgEnd s 5 k 10
      | some s1 =>
        let d := BitVec.ofNat 64 (freeNow s1).toNat
        let s2 := drew s1
        fuseStart { s2 with fuse := { s2.fuse with stage := some (k, d) } } 5 k (eccCells d) true
  match s.fuse.stage with
  | some (r, d) => if r = k then fuseStart s 5 k (eccCells d) true else draw
  | none => draw
/-- The source has restarted or ended: a PROGRAM_SECRET that waits goes on. -/
def fuseResume (s : State) : State :=
  match s.fuse.await with
  | some k => if drbgWaits s true then s else fuseSecret { s with fuse := { s.fuse with busy := false, await := none } } k
  | none => s

/-- One programming request by its OP, with the operands in the registers. -/
def fuseRequest (s : State) (op window : Nat) : State :=
  match op with
  | 3 => fuseProgram s 3 window 0 (fun s k => fuseStart s 3 k (eccCells s.fuse.data) true)
  | 4 => fuseProgram s 4 window s.fuse.group (fun s k => fuseStart s 4 k (groupMask s.fuse.group) false)
  | 5 => fuseProgram s 5 window 0 fuseSecret
  | _ => fuseProgram s 6 window 0 (fun s k =>
      fuseStart s 6 k (BitVec.ofNat 72 (s.fuse.data.toNat + 2 ^ 64 * s.fuse.check.toNat)) false)

/-! ## Operations that an earlier boot left unfinished (R155) -/

/-- FUSE_ROW for the row that a record names. -/
def rowRegister (n : Nat) : Word := w32 (n % 0x4000 + (if n / 0x8000 % 2 = 1 then 2 ^ 31 else if n / 0x4000 % 2 = 1 then 2 ^ 30 else 0))
/-- The oldest unfinished operation is repeated with its identical request, where no operation runs and the supply is in its window. -/
def fuseRepeat (s : State) : State :=
  match s.boot.fuseOpen with
  | [] => s
  | d :: rest =>
    if s.fuse.busy || decide (s.fuse.window ≠ 1) then s
    else
      let n := d.toNat
      let op := nfld n 23 16
      let s1 := { s with
        boot := { s.boot with fuseOpen := rest },
        fuse := { s.fuse with
          row := rowRegister (nfld n 15 0), data := BitVec.ofNat 64 (n / 2 ^ 32), group := if op = 4 then nfld n 31 24 else s.fuse.group,
          check := if op = 6 then BitVec.ofNat 8 (nfld n 31 24) else s.fuse.check } }
      fuseRequest s1 op 1
/-- A programming request of BC: unfinished operations come before it, and it then meets BUSY (log entry 83). -/
def fuseAsk (s : State) (op window : Nat) : State :=
  if s.boot.fuseOpen.isEmpty || (s.block = .boot && decide (s.boot.step < 7)) then fuseRequest s op window
  else fuseResult (fuseRepeat { s with fuse := { s.fuse with window := window } }) 11

/-! ## Counters -/

/-- The row and group that advance counter k (R105, R118, R553), read against the normal reference (log entry 80). -/
def counterNext (s : State) (k : Nat) : Nat × Nat :=
  let rd := readNormal s s.free
  let v := Nat.min 383 (counterOf (rowRead rd rd) k)
  (0x100 + 16 * k + v / 24, v % 24)
/-- The row and group that advance counter k go into the registers. -/
def counterPick (s : State) (k : Nat) : State :=
  let (r, g) := counterNext s k
  drew { s with fuse := { s.fuse with row := w32 r, group := g } } 0x4000

/-- BC advances counter k by one group. -/
def counterAdvance (s : State) (k window : Nat) : State :=
  let s1 := counterPick s k
  if s1.fuse.busy then fuseResult s1 11 else fuseAsk s1 4 window

/-! ## The owner change (R123) -/

/-- The value of counter 18 as the array stands. -/
def ownerEpoch (s : State) : Nat := let rd := readNormal s s.free; counterOf (rowRead rd rd) 18
/-- BC programs row `o.row` of the new slot. A CONFLICT abandons the slot, and the next one is programmed in its place; without a
slot left the change is refused and nothing advances. -/
def ownerTry (window : Nat) : Nat → State → OwnerChange → State
  | 0, s, _ => { s with fuse := { s.fuse with owner := none } }
  | fuel + 1, s, o =>
    if 8 ≤ o.slot then { s with fuse := { s.fuse with owner := none } }
    else
      let s1 := fuseRequest { s with fuse := { s.fuse with row := w32 (0x340 + 8 * o.slot + o.row), owner := some o } } 5 window
      if s1.fuse.result = 5 && !s1.fuse.busy then ownerTry window fuel s1 { slot := o.slot + 1, row := 0, adv := o.adv + 1 } else s1
/-- The next part of the change, after an operation that ended with OK: the next row, or counter 18 by one group at a time. -/
def ownerNext (s : State) (k : Nat) : State :=
  match s.fuse.owner with
  | none => s
  | some o =>
    if o.row < 8 then
      if k ≠ 0x340 + 8 * o.slot + o.row then s
      else if o.row < 7 then ownerTry s.fuse.window 8 s { o with row := o.row + 1 }
      else counterAdvance { s with fuse := { s.fuse with owner := some { o with row := 8 } } } 18 s.fuse.window
    else if k < 0x220 ∨ 0x230 ≤ k then s
    else if o.adv ≤ 1 then { s with fuse := { s.fuse with owner := none } }
    else counterAdvance { s with fuse := { s.fuse with owner := some { o with adv := o.adv - 1 } } } 18 s.fuse.window
/-- PROGRAM_SECRET of BC: the first row of slot OWNER_EPOCH begins an owner change, which BC then carries through. -/
def ownerBegin (s : State) (window : Nat) : State :=
  let e := ownerEpoch s
  if s.fuse.owner.isNone && decide (s.fuse.row = w32 (0x340 + 8 * e) ∧ e < 8) && s.boot.fuseOpen.isEmpty then
    let s1 := drew s 0x4000
    let s2 := fuseRequest s1 5 window
    if s2.fuse.busy then { s2 with fuse := { s2.fuse with owner := some { slot := e, row := 0, adv := 1 } } }
    else if s2.fuse.result = 5 then ownerTry window 8 s2 { slot := e + 1, row := 0, adv := 2 }
    else s2
  else fuseAsk s 5 window

/-! ## The programming commands -/

def execProgramRow (w : Who) (window : BitVec 2) (s : State) : Host.Outcome State Fault Refusal :=
  .next (fuseCmd s w (fun s => fuseAsk s 3 window.toNat))
def execProgramGroup (w : Who) (window : BitVec 2) (group : Byte) (s : State) : Host.Outcome State Fault Refusal :=
  .next (fuseCmd s w (fun s => fuseAsk { s with fuse := { s.fuse with group := group.toNat } } 4 window.toNat))
def execProgramSecret (w : Who) (window : BitVec 2) (s : State) : Host.Outcome State Fault Refusal :=
  .next (fuseCmd s w (fun s => ownerBegin s window.toNat))
def execProgramRaw (w : Who) (window : BitVec 2) (check : Byte) (s : State) : Host.Outcome State Fault Refusal :=
  .next (fuseCmd s w (fun s => fuseAsk { s with fuse := { s.fuse with check := check } } 6 window.toNat))

/-! ## The end of an operation -/

/-- Cells become 1. -/
def burn (s : State) (k : Nat) (c : BitVec 72) : State :=
  { s with fuse := { s.fuse with cells := smSet 0 s.fuse.cells k (fuseCells s k ||| c) } }
/-- A cell whose pulse was cut may be marginal. -/
def cutCell (s : State) (k : Nat) (cut : Nat) (pattern : BitVec 72) : State :=
  let c := (pattern &&& ~~~ fuseCells s k) &&& BitVec.ofNat 72 (2 ^ cut)
  if cut < 72 then { s with fuse := { s.fuse with marginal := smSet 0 s.fuse.marginal k (fuseMarginal s k ||| c) } } else s

/-- The operation in progress has given every cell its pulses; `failed` are the cells that did not verify. -/
def fuseDone (s : State) (failed : BitVec 72) : State :=
  match s.fuse.op with
  | none => s
  | some o =>
    let want := o.cells &&& ~~~ fuseCells s o.key
    let s1 := burn s o.key (o.cells &&& ~~~ failed)
    if (want &&& failed) ≠ 0 then fuseProgEnd s1 o.op o.key 6
    else
      let s2 := fuseProgEnd s1 o.op o.key 0
      if o.op = 5 then { s2 with fuse := { s2.fuse with stage := none } } else s2
/-- What BC programs next by itself: the rest of an owner change, and the operations that an earlier boot left unfinished. -/
def fuseNext (s : State) (k : Nat) : State := if s.fuse.busy then s else fuseRepeat (if s.fuse.result = 0 then ownerNext s k else s)

/-- The operation stops early: the cells in `completed` are programmed and one cell's pulse was cut. -/
def fuseStop (s : State) (completed : BitVec 72) (cut : Nat) (result : Nat) : State :=
  match s.fuse.op with
  | none => s
  | some o => fuseEnd (cutCell (burn s o.key (o.cells &&& completed)) o.key cut o.cells) result
/-- A stop by tamper or reset: how far the operation came is free. No firmware runs on to write FUSE_END (R155). -/
def fuseStopFree (s0 : State) (result : Nat) : State :=
  let s := { s0 with fuse := { s0.fuse with owner := none } }
  if s.fuse.op.isNone then (if s.fuse.await.isSome then fuseEnd { s with fuse := { s.fuse with await := none } } result else s)
  else
    let v := (freeNow s).toNat
    fuseStop (drew s) (BitVec.ofNat 72 v) (v / 2 ^ 72 % 128) result

/-- FUSE_SUPPLY_LOST: the result is recorded in the journal too, where an operation was cut. A tamper record that the ROM was
programming is left pending, and the ROM halts with 0x42 (R474). -/
def execFuseSupplyLost (window : BitVec 2) (completed : BitVec 72) (cut : BitVec 7) (s : State) :
    Host.Outcome State Fault Refusal :=
  let s1 := { s with fuse := { s.fuse with window := window.toNat } }
  .next (if window = 1 then s1 else match s1.fuse.op with
    | none => s1
    | some o =>
      let s2 := fuseJournal (fuseStop s1 completed cut.toNat 3) 8 (endDetail (journalRow o.key) o.op 3)
      if s.boot.pos = .tamperRec then haltWith s2 0x42 else s2)

/-- SVN_COUNTER_ADVANCE: BC programs counter 0 or a chiplet SVN counter at the operator's request (R138). -/
def execSvnCounterAdvance (counter : BitVec 5) (window : BitVec 2) (s : State) : Host.Outcome State Fault Refusal :=
  .next (if serving s && fabOk s .bc && decide (counter.toNat ≤ 16) then counterAdvance s counter.toNat window.toNat else s)

end Sys2Proof.Machine
end

