-- ==== Sys2Proof/Machine/Dyad.lean ====
section
/-! DEFINITION. The numbers of the Assay: exact dyadic values, the element formats of Table 14-1, W96 values with their error
bounds, EXACT192 accumulators, and binary32 (R385 to R398, R452). -/
namespace Sys2Proof.Machine

/-! ## Dyadic values m * 2^e -/

/-- The value `m * 2^e`. -/
structure Dy where
  m : Int
  e : Int
deriving DecidableEq, Repr

def Dy.zero : Dy := { m := 0, e := 0 }
def dyInt (n : Int) : Dy := { m := n, e := 0 }
/-- `2^e`. -/
def dyPow (e : Int) : Dy := { m := 1, e := e }
/-- The integer that `d` is in units of `2^lo`, for `lo` at or below its exponent. -/
def Dy.units (d : Dy) (lo : Int) : Int := d.m * 2 ^ (d.e - lo).toNat
def Dy.add (a b : Dy) : Dy := let lo := min a.e b.e; { m := a.units lo + b.units lo, e := lo }
def Dy.neg (a : Dy) : Dy := { a with m := -a.m }
def Dy.sub (a b : Dy) : Dy := a.add b.neg
def Dy.mul (a b : Dy) : Dy := { m := a.m * b.m, e := a.e + b.e }
def Dy.abs (a : Dy) : Dy := { a with m := a.m.natAbs }
def Dy.shift (a : Dy) (k : Int) : Dy := { a with e := a.e + k }
def Dy.le (a b : Dy) : Bool := let lo := min a.e b.e; decide (a.units lo ≤ b.units lo)
def Dy.lt (a b : Dy) : Bool := !b.le a
def Dy.max (a b : Dy) : Dy := if a.le b then b else a
/-- The number of significant bits of a natural number. -/
def bitLen (n : Nat) : Nat := if n = 0 then 0 else Nat.log2 n + 1
/-- How a value is cut to fewer bits. -/
inductive Cut where
  | even | up | down
deriving DecidableEq, Repr
/-- `n / 2^s`, rounded. -/
def cutBits (c : Cut) (n s : Nat) : Nat :=
  let q := n / 2 ^ s
  let r := n % 2 ^ s
  match c with
  | .down => q
  | .up => if r = 0 then q else q + 1
  | .even => if 2 * r > 2 ^ s || (2 * r = 2 ^ s && q % 2 = 1) then q + 1 else q
/-- A value with at most `p` significant bits, its magnitude rounded as `c` says. -/
def Dy.round (c : Cut) (p : Nat) (d : Dy) : Dy :=
  let b := bitLen d.m.natAbs
  if b ≤ p then d
  else { m := d.m.sign * (cutBits c d.m.natAbs (b - p) : Nat), e := d.e + (b - p : Nat) }
/-- The quotient of two naturals, rounded up to 96 bits. -/
def divUp96 (a b : Nat) : Dy :=
  if b = 0 then Dy.zero
  else
    let s := 128 + bitLen b
    ({ m := ((a * 2 ^ s + b - 1) / b : Nat), e := -(s : Nat) } : Dy).round .up 96

/-! ## Formats (R385 to R387) -/

/-- A decoded element: finite, infinite with its sign, or not a number. -/
inductive Elem where
  | fin (d : Dy)
  | inf (neg : Bool)
  | nan
deriving DecidableEq, Repr

/-- The code of the element format inside an MX format. -/
def fmtElem (f : Nat) : Nat := if 0x13 ≤ f ∧ f ≤ 0x17 then f - 0x10 else f
def fmtMx (f : Nat) : Bool := decide (0x12 ≤ f ∧ f ≤ 0x17)
/-- Width in bits; 0 for a code that Table 14-1 does not list. 0x40 is an E8M0 scale. -/
def fmtWidth (f : Nat) : Nat :=
  match fmtElem f with
  | 0x01 => 4 | 0x02 => 8 | 0x03 => 8 | 0x04 => 8 | 0x05 => 6 | 0x06 => 6 | 0x07 => 4 | 0x12 => 8
  | 0x20 => 16 | 0x21 => 16 | 0x22 => 32 | 0x30 => 32 | 0x40 => 8 | _ => 0
/-- Exponent bits, fraction bits and bias of a floating format. -/
def fmtFloat (f : Nat) : Option (Nat × Nat × Int) :=
  match fmtElem f with
  | 0x03 => some (4, 3, 7) | 0x04 => some (5, 2, 15) | 0x05 => some (2, 3, 1) | 0x06 => some (3, 2, 3)
  | 0x07 => some (2, 1, 1) | 0x20 => some (8, 7, 127) | 0x21 => some (5, 10, 15) | 0x22 => some (8, 23, 127)
  | _ => none
/-- The two's-complement value of the low `w` bits. -/
def signedBits (w n : Nat) : Int := if n % 2 ^ w < 2 ^ (w - 1) then (n % 2 ^ w : Nat) else (n % 2 ^ w : Nat) - (2 ^ w : Nat)
/-- Whether all-ones exponents are special: infinities and NaN (E5M2, BF16, FP16, FP32). -/
def fmtIeee (f : Nat) : Bool := [0x04, 0x20, 0x21, 0x22].contains (fmtElem f)
/-- The value of an element, before any block scale (R386). -/
def decodeElem (f n : Nat) : Elem :=
  match fmtFloat f with
  | some (eb, mb, bias) =>
    let fr := n % 2 ^ mb
    let ex := n / 2 ^ mb % 2 ^ eb
    let sg := decide (n / 2 ^ (mb + eb) % 2 = 1)
    if fmtIeee f && ex = 2 ^ eb - 1 then (if fr = 0 then .inf sg else .nan)
    else if fmtElem f = 0x03 && ex = 15 && fr = 7 then .nan
    else
      let m : Nat := if ex = 0 then fr else 2 ^ mb + fr
      let e : Int := (if ex = 0 then 1 else (ex : Int)) - bias - mb
      .fin { m := if sg then -(m : Int) else m, e := e }
  | none => .fin { m := signedBits (fmtWidth f) n, e := if f = 0x12 then -6 else 0 }
/-- The value with its block scale X (R387). -/
def Elem.scaled (v : Elem) (x : Nat) : Elem :=
  if x = 255 then .nan
  else match v with
  | .fin d => .fin (d.shift ((x : Int) - 127))
  | o => o
/-- Significand bits, smallest positive value, smallest normal value and largest finite value, before any scale. -/
def fmtSig (f : Nat) : Nat := match fmtFloat f with | some (_, mb, _) => mb + 1 | none => fmtWidth f
def fmtTiny (f : Nat) : Dy := match fmtFloat f with | some (_, mb, bias) => dyPow (1 - bias - mb) | none => dyPow (if f = 0x12 then -6 else 0)
def fmtNormal (f : Nat) : Dy := match fmtFloat f with | some (_, _, bias) => dyPow (1 - bias) | none => fmtTiny f
def fmtMax (f : Nat) : Dy :=
  match fmtElem f with
  | 0x03 => dyInt 448 | 0x04 => dyInt 57344 | 0x05 => { m := 15, e := -1 } | 0x06 => dyInt 28 | 0x07 => dyInt 6
  | 0x20 => { m := 255, e := 120 } | 0x21 => dyInt 65504 | 0x22 => { m := 2 ^ 24 - 1, e := 104 }
  | 0x01 => dyInt 7 | 0x02 => dyInt 127 | 0x12 => { m := 127, e := -6 } | _ => dyInt (2 ^ 31 - 1)
/-- Roles of Table 14-1. -/
def roleAB (f : Nat) : Bool := decide (1 ≤ f ∧ f ≤ 7 ∨ 0x12 ≤ f ∧ f ≤ 0x17 ∨ 0x20 ≤ f ∧ f ≤ 0x22)
def roleC (f : Nat) : Bool := decide (3 ≤ f ∧ f ≤ 7 ∨ 0x13 ≤ f ∧ f ≤ 0x17 ∨ 0x20 ≤ f ∧ f ≤ 0x22 ∨ f = 0x30)
def roleAcc (f : Nat) : Bool := decide (0x20 ≤ f ∧ f ≤ 0x22 ∨ f = 0x30)
/-- Whether the window floor of a tensor is the declared one (R395). -/
def floorUsed (f : Nat) : Bool := fmtMx f || f = 0x20 || f = 0x22

/-! ## W96 (R396) -/

/-- A W96 value and its error bound. DEDUCED: the bound is kept to 96 bits, rounded up (log entry 41). -/
structure W96 where
  v : Dy
  e : Dy
deriving DecidableEq, Repr
def w96Zero : W96 := { v := Dy.zero, e := Dy.zero }
def up96 (d : Dy) : Dy := d.round .up 96
/-- Entry of a spill addend: exact. -/
def w96Of (d : Dy) : W96 := { v := d.round .even 96, e := Dy.zero }
/-- Conversion of an exact value. -/
def w96Conv (d : Dy) : W96 := { v := d.round .even 96, e := up96 (d.abs.shift (-96)) }
def W96.add (a b : W96) : W96 :=
  let s := (a.v.add b.v).round .even 96
  { v := s, e := up96 ((up96 (a.e.add b.e)).add (s.abs.shift (-96))) }
def W96.neg (a : W96) : W96 := { a with v := a.v.neg }
def W96.mul (a b : W96) : W96 :=
  let q := (a.v.mul b.v).round .even 96
  let c1 := up96 (a.v.abs.mul b.e)
  let c2 := up96 (b.v.abs.mul a.e)
  let c3 := up96 (a.e.mul b.e)
  { v := q, e := up96 ((up96 ((up96 (c1.add c2)).add c3)).add (q.abs.shift (-96))) }
/-- Magnitudes round up. -/
def magAdd (a b : Dy) : Dy := up96 (a.add b)
def magMul (a b : Dy) : Dy := up96 (a.mul b)

/-! ## Accumulators (R394, R397, R399) -/

/-- A signed accumulator with its spill, and its magnitude lane with its own. The exact parts are integers in units of 2^L. -/
structure Acc where
  n    : Int
  sp   : Option W96
  mag  : Nat
  msp  : Option Dy
deriving DecidableEq, Repr
def Acc.zero : Acc := { n := 0, sp := none, mag := 0, msp := none }
/-- Whether an addend is in the window of floor L. -/
def inWin (fl : Int) (d : Dy) : Bool :=
  if d.m = 0 then true
  else decide (d.m % (2 ^ (fl - d.e).toNat : Nat) = 0) && d.abs.lt (dyPow (fl + 150))
/-- The integer that an in-window value is in units of 2^L. -/
def winUnits (fl : Int) (d : Dy) : Int := if fl ≤ d.e then d.units fl else d.m / (2 ^ (fl - d.e).toNat : Nat)
/-- Adds one weighted element. -/
def Acc.feed (fl : Int) (a : Acc) (d : Dy) : Acc :=
  if inWin fl d then { a with n := a.n + winUnits fl d, mag := a.mag + (winUnits fl d).natAbs }
  else { a with sp := some ((a.sp.getD w96Zero).add (w96Of d)), msp := some (magAdd (a.msp.getD Dy.zero) (up96 d.abs)) }
def Acc.exact (fl : Int) (a : Acc) : Dy := { m := a.n, e := fl }
/-- The whole signed value in W96. -/
def Acc.w96 (fl : Int) (a : Acc) : W96 :=
  match a.sp with
  | none => w96Conv (a.exact fl)
  | some w => (w96Conv (a.exact fl)).add w
/-- The whole magnitude in W96, rounded up. -/
def Acc.magW (fl : Int) (a : Acc) : Dy :=
  let x := up96 { m := a.mag, e := fl }
  match a.msp with
  | none => x
  | some w => magAdd x w
/-- Two accumulators with one floor, taken together. -/
def Acc.join (a b : Acc) : Acc :=
  { n := a.n + b.n
    sp := match a.sp, b.sp with | some x, some y => some (x.add y) | some x, none => some x | none, y => y
    mag := a.mag + b.mag
    msp := match a.msp, b.msp with | some x, some y => some (magAdd x y) | some x, none => some x | none, y => y }
/-- Adds the product of an x entry and a y entry to p (R397). -/
def Acc.feedProd (fx fy : Int) (p x y : Acc) : Acc :=
  let d := (x.exact fx).mul (y.exact fy)
  let g : Dy := { m := (x.mag * y.mag : Nat), e := fx + fy }
  let p1 := if x.sp.isNone && y.sp.isNone && inWin (fx + fy) d then { p with n := p.n + winUnits (fx + fy) d }
    else { p with sp := some ((p.sp.getD w96Zero).add ((x.w96 fx).mul (y.w96 fy))) }
  if x.msp.isNone && y.msp.isNone && inWin (fx + fy) g then { p1 with mag := p1.mag + x.mag * y.mag }
  else { p1 with msp := some (magAdd (p1.msp.getD Dy.zero) (magMul (x.magW fx) (y.magW fy))) }

/-! ## binary32 (R452) -/

/-- Rounds sign and magnitude to binary32, to nearest even; whether the result is inexact. -/
def f32Round (neg : Bool) (d : Dy) : Word × Bool :=
  let sg : Nat := if neg then 2 ^ 31 else 0
  let m := d.m.natAbs
  if m = 0 then (w32 sg, false)
  else
    let t := max (d.e + bitLen m - 24) (-149)
    let q := if t ≤ d.e then m * 2 ^ (d.e - t).toNat else cutBits .even m (t - d.e).toNat
    let ex := decide (t ≤ d.e) || decide (m % 2 ^ (t - d.e).toNat = 0)
    let w := (t + 149).toNat * 2 ^ 23 + q
    if 0x7F800000 ≤ w then (w32 (sg + 0x7F800000), true) else (w32 (sg + w), !ex)
def f32Neg (w : Word) : Bool := bitOf w 31
def f32Of (w : Word) : Elem := decodeElem 0x22 w.toNat
def f32Inf (neg : Bool) : Word := if neg then 0xFF800000 else 0x7F800000
/-- A quiet NaN whose sign and payload the spec does not fix (log entry 42). -/
def f32NaN (free : BitVec 512) : Word :=
  w32 (free.toNat % 2 * 2 ^ 31 + 0x7FC00000 + free.toNat / 2 % 2 ^ 22)
/-- A value as binary64, rounded to nearest even or up, for the DT words of a verdict record (Table 15-10). A magnitude above
the range becomes infinity; rounded up, a magnitude below the range is the smallest positive value. -/
def f64Of (c : Cut) (d : Dy) : Nat :=
  let sg : Nat := if d.m < 0 then 2 ^ 63 else 0
  let m := d.m.natAbs
  if m = 0 then 0
  else
    let t := max (d.e + bitLen m - 53) (-1074)
    let q := if t ≤ d.e then m * 2 ^ (d.e - t).toNat else cutBits c m (t - d.e).toNat
    let w := (t + 1074).toNat * 2 ^ 52 + q
    sg + Nat.min 0x7FF0000000000000 w

end Sys2Proof.Machine
end

