-- ==== Sys2Proof/Machine/Tensor.lean ====
section
/-! DEFINITION. Operation and run descriptors: dimensions, tensors and their places in memory, arithmetic declarations,
the acceptance checks of Tables 15-6 and R465, and the scratch cost (R388, R389, R412 to R416, R464, R465). -/
namespace Sys2Proof.Machine

/-! ## Declarations (Table 14-2) -/

/-- An arithmetic declaration. -/
structure Decl where
  fa : Nat
  fb : Nat
  fc : Nat
  facc : Nat
  model : Nat
  depth : Nat
  flA : Int
  flB : Int
  flC : Int
  rsv : Bool
deriving DecidableEq, Repr

def declOf (b : List Byte) : Decl :=
  { fa := le b 0 1, fb := le b 1 1, fc := le b 2 1, facc := le b 3 1, model := le b 4 1, depth := le b 6 2,
    flA := signedBits 16 (le b 8 2), flB := signedBits 16 (le b 10 2), flC := signedBits 16 (le b 12 2),
    rsv := decide (le b 5 1 = 0 ∧ le b 14 2 = 0 ∧ le b 4 1 < 8) }
def Decl.rz (d : Decl) : Bool := decide (d.model % 2 = 1)
def Decl.ftz (d : Decl) : Bool := decide (d.model / 2 % 2 = 1)
def Decl.sat (d : Decl) : Bool := decide (d.model / 4 % 2 = 1)
/-- p of u = 2^-p for a format's significand (Table 14-7). -/
def Decl.ulpExp (d : Decl) (f : Nat) : Nat := if d.rz then fmtSig f - 1 else fmtSig f
/-- A FLOOR field is in range where it is used and 0 where it is not. -/
def floorFieldOk (f : Nat) (v : Int) : Bool := if floorUsed f then decide (-256 ≤ v ∧ v ≤ 255) else decide (v = 0)
/-- R389. -/
def Decl.valid (d : Decl) : Bool :=
  roleAB d.fa && roleAB d.fb && roleC d.fc && roleAcc d.facc && d.rsv &&
  (if d.facc = 0x30 then decide (d.fa ≤ 2 ∧ d.fb ≤ 2 ∧ d.fc = 0x30 ∧ d.depth = 0)
   else decide (1 ≤ d.depth ∧ 2 * d.depth < 2 ^ d.ulpExp d.facc)) &&
  floorFieldOk d.fa d.flA && floorFieldOk d.fb d.flB && floorFieldOk d.fc d.flC
/-- The window floor of a tensor (Table 14-4). -/
def winFloor (f : Nat) (declared : Int) : Int := if floorUsed f then declared else (fmtTiny f).e

/-! ## Tensors (R413) -/

/-- A tensor in memory: its base, pitches, dimensions and format. `out`: the rows of C in Table 15-7 apply to it. -/
structure Tensor where
  base : Nat
  p1 : Nat
  p2 : Nat
  p3 : Nat
  d0 : Nat
  d1 : Nat
  d2 : Nat
  d3 : Nat
  fmt : Nat
  out : Bool
deriving DecidableEq, Repr

/-- Bit position of element i0 in its row. -/
def posBits (w i0 : Nat) : Nat := if w = 6 then 32 * (i0 / 5) + 6 * (i0 % 5) else i0 * w
/-- Bytes from the start of a row to the end of its last element. -/
def Tensor.rowBytes (t : Tensor) : Nat :=
  if t.d0 = 0 then 0 else (posBits (fmtWidth t.fmt) (t.d0 - 1) + fmtWidth t.fmt + 7) / 8
/-- The number of distinct D2 positions: one when its pitch is 0 (B_BROADCAST). -/
def Tensor.n2 (t : Tensor) : Nat := if t.p2 = 0 then Nat.min t.d2 1 else t.d2
/-- The rows (i3, i2, i1). -/
def Tensor.rows (t : Tensor) : List (Nat × Nat × Nat) :=
  (List.range t.d3).flatMap (fun a => (List.range t.n2).flatMap (fun b => (List.range t.d1).map (fun c => (a, b, c))))
def Tensor.rowBase (t : Tensor) (r : Nat × Nat × Nat) : Nat := t.base + r.1 * t.p3 + r.2.1 * t.p2 + r.2.2 * t.p1
/-- The address in bits of an element. -/
def Tensor.bitAddr (t : Tensor) (r : Nat × Nat × Nat) (i0 : Nat) : Nat := 8 * t.rowBase r + posBits (fmtWidth t.fmt) i0
/-- The byte spans [start, end) of the rows. -/
def Tensor.spans (t : Tensor) : List (Nat × Nat) := t.rows.map (fun r => (t.rowBase r, t.rowBase r + t.rowBytes))
/-- The 128-byte blocks touched, in ascending order. -/
def Tensor.blocks (t : Tensor) : List Nat :=
  (dedup (t.spans.flatMap (fun x => if x.2 ≤ x.1 then [] else
    (List.range ((x.2 - 1) / 128 + 1 - x.1 / 128)).map (fun i => x.1 / 128 + i))).reverse).reverse
/-- Whether a block is one of the tensor's. -/
def Tensor.touches (t : Tensor) (blk : Nat) : Bool :=
  t.spans.any (fun x => decide (x.1 < x.2 ∧ x.1 < 128 * (blk + 1) ∧ 128 * blk < x.2))
/-- An element's indices. -/
abbrev Ix := Nat × Nat × Nat × Nat
/-- The elements of a block, in address order, with the block's bit at which each begins. -/
def Tensor.elems (t : Tensor) (blk : Nat) : List (Ix × Nat) :=
  (t.rows.filter (fun r => decide (t.rowBase r < 128 * (blk + 1) ∧ 128 * blk < t.rowBase r + t.rowBytes))).flatMap (fun r =>
    ((List.range t.d0).filter (fun i => decide (t.bitAddr r i / 1024 = blk))).map (fun i =>
      ((r.1, r.2.1, r.2.2, i), t.bitAddr r i % 1024)))
/-- Two tensors share a byte. -/
def Tensor.meets (a b : Tensor) : Bool :=
  a.spans.any (fun x => b.spans.any (fun y => decide (x.1 < y.2 ∧ y.1 < x.2)))
/-- The shape checks of Table 15-6, check 2: `n` dimensions are present, `bcast` permits a P2 of 0. -/
def Tensor.shapeOk (t : Tensor) (n : Nat) (bcast : Bool) : Bool :=
  decide (t.base % 8 = 0 ∧ t.base < 2 ^ 52 ∧ t.p1 % 8 = 0 ∧ t.p2 % 8 = 0 ∧ t.p3 % 8 = 0) &&
  decide (0 < t.p1) && (decide (0 < t.p2) || decide (n < 3) || bcast) && (decide (0 < t.p3) || decide (n < 4)) &&
  (decide (3 ≤ n) || decide (t.p2 = 0)) && (decide (4 ≤ n) || decide (t.p3 = 0)) &&
  decide (t.d0 * fmtWidth t.fmt ≤ 8 * t.p1) && (decide (t.p2 = 0) || decide (t.d1 * t.p1 ≤ t.p2)) &&
  (decide (t.p3 = 0) || decide (t.d2 * t.p2 ≤ t.p3)) &&
  (!fmtMx t.fmt || decide (t.d0 % 32 = 0))
/-- No two tensors of a list share a byte. -/
def disjointAll : List Tensor → Bool
  | [] => true
  | t :: ts => ts.all (fun u => !t.meets u) && disjointAll ts

/-! ## Operation descriptors (Tables 15-2 to 15-5) -/

def oKind (d : List Byte) : Nat := le d 0 1
def oBands (d : List Byte) : Nat := le d 1 1
def oSample (d : List Byte) : Nat := le d 2 1
def oFlags (d : List Byte) : Nat := le d 3 1
def oTrig (d : List Byte) : Nat := le d 4 2
def oTally (d : List Byte) : Word := w32 (le d 6 2)
def oDim (d : List Byte) (i : Nat) : Nat := le d (8 + 4 * i) 4
def oParam (d : List Byte) (i : Nat) : Nat := le d (0x20 + i) 1
def oDecl (d : List Byte) (i : Nat) : Decl := declOf (slice d (0x30 + 16 * i) 16)
def oBcast (d : List Byte) : Bool := decide (oFlags d / 2 % 2 = 1)
/-- H_out and W_out of a CONV2D descriptor. -/
def oHout (d : List Byte) : Nat := oDim d 5 / 65536
def oWout (d : List Byte) : Nat := oDim d 5 % 65536
/-- The bytes of tensor descriptor `i`, and whether its slot is filled. -/
def oSlot (d : List Byte) (i : Nat) : List Byte := slice d (0x50 + 24 * i) 24
def slotFilled (b : List Byte) : Bool := b.any (fun x => decide (x ≠ 0))
def slotTrans (b : List Byte) : Bool := decide (le b 23 1 % 2 = 1)
/-- A tensor descriptor with its dimensions. -/
def tensorOf (b : List Byte) (fmt : Nat) (out : Bool) (d3 d2 d1 d0 : Nat) : Tensor :=
  { base := le b 0 8, p1 := le b 8 5, p2 := le b 13 5, p3 := le b 18 5, d0 := d0, d1 := d1, d2 := d2, d3 := d3, fmt := fmt, out := out }
/-- The scale slot of a data slot. -/
def scaleSlot (kind slot : Nat) : Nat := if kind = 4 then slot + 6 else slot + 3
/-- The number of data slots. -/
def dataSlots (kind : Nat) : Nat := if kind = 4 then 6 else 3
/-- The format of data slot `i`, and whether it is a result. -/
def slotFmt (d : List Byte) (i : Nat) : Nat × Bool :=
  let dc := oDecl d (if 3 ≤ i then 1 else 0)
  match i % 3 with
  | 0 => (dc.fa, false)
  | 1 => (dc.fb, false)
  | _ => (dc.fc, true)
/-- The dimensions D3 to D0 of data slot `i` (Table 15-5). -/
def slotDims (d : List Byte) (i : Nat) : Nat × Nat × Nat × Nat :=
  let tr := slotTrans (oSlot d i)
  match oKind d, i with
  | 1, 0 => if tr then (1, 1, oDim d 2, oDim d 0) else (1, 1, oDim d 0, oDim d 2)
  | 1, 1 => if tr then (1, 1, oDim d 1, oDim d 2) else (1, 1, oDim d 2, oDim d 1)
  | 1, _ => (1, 1, oDim d 0, oDim d 1)
  | 2, 0 => if tr then (1, oDim d 3, oDim d 2, oDim d 0) else (1, oDim d 3, oDim d 0, oDim d 2)
  | 2, 1 => if tr then (1, oDim d 3, oDim d 1, oDim d 2) else (1, oDim d 3, oDim d 2, oDim d 1)
  | 2, _ => (1, oDim d 3, oDim d 0, oDim d 1)
  | 3, 0 => (oDim d 0, oDim d 3, oDim d 4, oDim d 2)
  | 3, 1 => (oDim d 1, oParam d 0, oParam d 1, oDim d 2)
  | 3, _ => (oDim d 0, oHout d, oWout d, oDim d 1)
  | _, 0 => (1, oDim d 3, oDim d 0, oDim d 2)
  | _, 1 => (1, oDim d 3, oDim d 1, oDim d 2)
  | _, 2 => (1, oDim d 3, oDim d 0, oDim d 1)
  | _, 3 => (1, oDim d 3, oDim d 0, oDim d 1)
  | _, 4 => (1, oDim d 3, oDim d 1, oDim d 2)
  | _, _ => (1, oDim d 3, oDim d 0, oDim d 2)
/-- The tensor of data slot `i`. -/
def dataTensor (d : List Byte) (i : Nat) : Tensor :=
  let (d3, d2, d1, d0) := slotDims d i
  tensorOf (oSlot d i) (slotFmt d i).1 (slotFmt d i).2 d3 d2 d1 d0
/-- The scale tensor of data slot `i` (R414): 8-bit elements, D0 / 32. -/
def scaleTensor (d : List Byte) (i : Nat) : Tensor :=
  let (d3, d2, d1, d0) := slotDims d i
  tensorOf (oSlot d (scaleSlot (oKind d) i)) 0x40 (slotFmt d i).2 d3 d2 d1 (d0 / 32)
/-- The tensors of an operation with their slots. -/
def opTensors (d : List Byte) : List (Nat × Tensor) :=
  (List.range (dataSlots (oKind d))).map (fun i => (i, dataTensor d i)) ++
  ((List.range (dataSlots (oKind d))).filter (fun i => fmtMx (slotFmt d i).1)).map (fun i =>
    (scaleSlot (oKind d) i, scaleTensor d i))
/-- Dimensions present for each kind. -/
def kindDims (kind : Nat) : Nat := match kind with | 1 => 2 | 3 => 4 | _ => 3

/-- Which slots may set TRANS; ATTENTION requires it of K (Table 15-5). -/
def transOk (d : List Byte) (i : Nat) : Bool :=
  let tr := slotTrans (oSlot d i)
  decide (le (oSlot d i) 23 1 < 2) &&
  match oKind d, i with
  | 1, 0 | 1, 1 | 2, 0 | 2, 1 => true
  | 4, 1 => tr
  | _, _ => !tr
/-- H_out and W_out as Table 15-6 computes them. -/
def convOut (x pad dil r stride : Nat) : Int := ((x : Int) + 2 * pad - dil * (r - 1 : Int) - 1).fdiv stride + 1
def convOk (d : List Byte) : Bool :=
  let p := oParam d
  decide (1 ≤ p 0 ∧ 1 ≤ p 1 ∧ 1 ≤ p 2 ∧ 1 ≤ p 3 ∧ 1 ≤ p 4 ∧ 1 ≤ p 5) &&
  decide (convOut (oDim d 3) (p 6) (p 4) (p 0) (p 2) = oHout d) && decide (convOut (oDim d 4) (p 7) (p 5) (p 1) (p 3) = oWout d)
/-- The dimensions a kind uses are nonzero, the others 0. -/
def dimsOk (d : List Byte) : Bool :=
  match oKind d with
  | 1 => decide (0 < oDim d 0 ∧ 0 < oDim d 1 ∧ 0 < oDim d 2 ∧ oDim d 3 = 0 ∧ oDim d 4 = 0 ∧ oDim d 5 = 0)
  | 3 => decide (0 < oDim d 0 ∧ 0 < oDim d 1 ∧ 0 < oDim d 2 ∧ 0 < oDim d 3 ∧ 0 < oDim d 4) &&
      decide (0 < oHout d ∧ 0 < oWout d) && convOk d
  | _ => decide (0 < oDim d 0 ∧ 0 < oDim d 1 ∧ 0 < oDim d 2 ∧ 0 < oDim d 3 ∧ oDim d 4 = 0 ∧ oDim d 5 = 0)
/-- Check 2 of Table 15-6. -/
def opDescOk (d : List Byte) : Bool :=
  let k := oKind d
  decide (1 ≤ k ∧ k ≤ 4 ∧ 1 ≤ oBands d ∧ oBands d ≤ 64 ∧ oSample d ≤ 7 ∧ oFlags d < 4) &&
  (!oBcast d || decide (k = 2)) && decide (fld (oTally d) 14 11 = 0) && dimsOk d &&
  (decide (k = 3) || decide (le d 0x20 8 = 0)) && decide (le d 0x28 8 = 0) &&
  (decide (k = 4) || decide (le d 0x40 16 = 0)) &&
  (List.range 12).all (fun i =>
    if i < dataSlots k then slotFilled (oSlot d i) && transOk d i && (dataTensor d i).shapeOk (kindDims k) (i = 1 && oBcast d)
    else if i < 2 * dataSlots k && fmtMx (slotFmt d (i - dataSlots k)).1 then
      slotFilled (oSlot d i) && decide (le (oSlot d i) 23 1 < 2) &&
        (scaleTensor d (i - dataSlots k)).shapeOk (kindDims k) (i - dataSlots k = 1 && oBcast d)
    else !slotFilled (oSlot d i)) &&
  disjointAll ((opTensors d).map (fun t => t.2))
/-- Check 3. -/
def opDeclOk (d : List Byte) : Bool := (oDecl d 0).valid && (decide (oKind d ≠ 4) || (oDecl d 1).valid)

/-! ## The products of an operation (R414, R425, R426) -/

/-- One product checked: its first data slot, its declaration, batches, M, N, K and the offset of its v weights. -/
structure Product where
  slot : Nat
  decl : Decl
  t : Nat
  m : Nat
  n : Nat
  k : Nat
  v0 : Nat
deriving DecidableEq, Repr

def products (d : List Byte) : List Product :=
  match oKind d with
  | 1 => [{ slot := 0, decl := oDecl d 0, t := 1, m := oDim d 0, n := oDim d 1, k := oDim d 2, v0 := 0 }]
  | 2 => [{ slot := 0, decl := oDecl d 0, t := oDim d 3, m := oDim d 0, n := oDim d 1, k := oDim d 2, v0 := 0 }]
  | 3 => [{ slot := 0, decl := oDecl d 0, t := 1, m := oDim d 0 * oHout d * oWout d, n := oDim d 1,
            k := oDim d 2 * oParam d 0 * oParam d 1, v0 := 0 }]
  | _ => [{ slot := 0, decl := oDecl d 0, t := oDim d 3, m := oDim d 0, n := oDim d 1, k := oDim d 2, v0 := 0 },
          { slot := 3, decl := oDecl d 1, t := oDim d 3, m := oDim d 0, n := oDim d 2, k := oDim d 1, v0 := oDim d 1 }]
/-- Check 4. -/
def opLimitOk (d : List Byte) : Bool :=
  (products d).all (fun p => decide (p.m ≤ 2 ^ 24 ∧ p.n ≤ 2 ^ 24 ∧ p.k ≤ 2 ^ 24 ∧ p.m * p.n ≤ 2 ^ 40 ∧ p.t ≤ 2 ^ 16))
/-- Rows that bands divide: rows for GEMM and CONV2D, batch entries otherwise. -/
def bandUnits (d : List Byte) : Nat :=
  match (products d).head? with
  | some p => if oKind d = 1 ∨ oKind d = 3 then p.m else p.t
  | none => 0
def bandHeight (d : List Byte) : Nat := ceilDiv (bandUnits d) (oBands d)
/-- BANDS_e. -/
def bandsE (d : List Byte) : Nat := ceilDiv (bandUnits d) (bandHeight d)
/-- Row indices and column indices over all batches: the entries of u and of v that one form draws. -/
def uCount (d : List Byte) : Nat := match (products d).head? with | some p => p.t * p.m | none => 0
def vCount (d : List Byte) : Nat := listSum ((products d).map (fun p => p.n))
/-- Rounds bytes up to units of 4 KiB. -/
def units4k (n : Nat) : Nat := ceilDiv n 4096
/-- The scratch cost of an operation, in units of 4 KiB (R416). -/
def opCost (d : List Byte) : Nat :=
  let forms := match oKind d with
    | 1 | 3 => 128 * (match (products d).head? with | some p => p.k | none => 0) * (bandsE d + 1)
    | 2 => if oBcast d then 128 * oDim d 2 * (oDim d 3 + 1) else 128 * oDim d 2 * 2 * oDim d 3
    | _ => 256 * oDim d 3 * (oDim d 2 + oDim d 1)
  let blocks := listSum ((opTensors d).map (fun t => t.2.blocks.length))
  units4k (forms + ceilDiv (2 * blocks) 8 + uCount d + vCount d + 256 * bandsE d)

/-! ## Run descriptors (Table 16-8) -/

def rWindows (d : List Byte) : Nat := le d 0x0C 1
def rLm (d : List Byte) : Nat := le d 0x08 4
def rFuel (d : List Byte) : Nat := le d 0x10 8
def rClass (d : List Byte) : Nat := oFlags d / 2 % 4
def rWin (d : List Byte) (i : Nat) : List Byte := slice d (0xA0 + 48 * i) 48
/-- The tensor of window `i`. -/
def winTensor (d : List Byte) (i : Nat) : Tensor :=
  let b := rWin d i
  tensorOf b (le b 40 1) (decide (le b 41 1 = 1)) (le b 36 4) (le b 32 4) (le b 28 4) (le b 24 4)
def runTensors (d : List Byte) : List (Nat × Tensor) := (List.range (rWindows d)).map (fun i => (i, winTensor d i))
/-- The formats that DEC knows (R453). -/
def decFmt (f : Nat) : Bool := decide (fmtWidth f ≠ 0)
/-- The dimensions a window has: those whose size is above 1, and all below it. -/
def winDims (t : Tensor) : Nat := if 1 < t.d3 then 4 else if 1 < t.d2 then 3 else 2
/-- Check 2 of R465. -/
def runDescOk (d : List Byte) (lmMin : Nat) : Bool :=
  decide (oBands d ≤ 3 ∧ oSample d ≤ 7 ∧ oFlags d < 8 ∧ 1 ≤ rClass d) && decide (fld (oTally d) 14 11 = 0) &&
  decide (rLm d % 4096 = 0 ∧ 4096 ≤ rLm d ∧ lmMin ≤ rLm d ∧ rLm d ≤ 2 ^ 20) && decide (1 ≤ rWindows d ∧ rWindows d ≤ 4) &&
  decide (le d 0x0D 3 = 0 ∧ le d 0x18 8 = 0 ∧ 1 ≤ rFuel d ∧ rFuel d ≤ 2 ^ 40) &&
  (List.range 4).all (fun i =>
    let b := rWin d i
    let t := winTensor d i
    if i < rWindows d then
      decide (1 ≤ t.d0 ∧ 1 ≤ t.d1 ∧ 1 ≤ t.d2 ∧ 1 ≤ t.d3) && decFmt t.fmt && decide (le b 41 1 ≤ 1 ∧ le b 42 6 = 0 ∧ le b 23 1 = 0) &&
        decide (t.base % 8 = 0 ∧ t.base < 2 ^ 52 ∧ t.p1 % 8 = 0 ∧ t.p2 % 8 = 0 ∧ t.p3 % 8 = 0) &&
        (decide (0 < t.p1) || decide (t.d1 = 1)) && (decide (0 < t.p2) || decide (t.d2 = 1)) && (decide (0 < t.p3) || decide (t.d3 = 1)) &&
        (decide (t.p1 = 0) || decide (t.d0 * fmtWidth t.fmt ≤ 8 * t.p1)) && (decide (t.p2 = 0) || decide (t.d1 * t.p1 ≤ t.p2)) &&
        (decide (t.p3 = 0) || decide (t.d2 * t.p2 ≤ t.p3))
    else true) &&
  disjointAll ((runTensors d).map (fun t => t.2))
/-- Check 4 of R465. -/
def runLimitOk (d : List Byte) : Bool :=
  (runTensors d).all (fun t => decide (t.2.d0 * t.2.d1 * t.2.d2 * t.2.d3 ≤ 2 ^ 40))
/-- The scratch cost of a run (R465). -/
def runCost (d : List Byte) : Nat :=
  units4k (65536 + rLm d + ceilDiv (2 * listSum ((runTensors d).map (fun t => t.2.blocks.length))) 8 + 256)

end Sys2Proof.Machine
end

