-- ==== Sys2Proof/Machine/Forms.lean ====
section
/-! DEFINITION. The forms of an operation: weights, the feeding of counted elements, the scopes of its bands, the tolerance and
the comparison (R391 to R402, R420 to R422, R425 to R430). -/
namespace Sys2Proof.Machine

/-! ## Weights (R392) -/

/-- A weight drawn uniformly from -8 to -1 and 1 to 7: a free value. -/
def weightOf (n : Nat) : Int := let k := (Config.freeBits n).toNat % 15; if k < 8 then (k : Int) - 8 else (k : Int) - 7
/-- How the weights of an operation are laid out from its first free value: form 0 u then v, form 1 u then v. -/
structure Weights where
  base : Nat
  nu : Nat
  nv : Nat
def Weights.u (w : Weights) (form i : Nat) : Int := weightOf (w.base + form * (w.nu + w.nv) + i)
def Weights.v (w : Weights) (form j : Nat) : Int := weightOf (w.base + form * (w.nu + w.nv) + w.nu + j)
def weightsOf (d : List Byte) (base : Nat) : Weights := { base := base, nu := uCount d, nv := vCount d }

/-! ## Fed elements (R418, R420) -/

/-- A fed element: data slot, indices, port, value with its scale, the scale exponent, and the value before scaling. -/
structure Fe where
  slot : Nat
  ix   : Ix
  port : Nat
  val  : Elem
  sc   : Int
  raw  : Elem
deriving DecidableEq, Repr

/-- `w` bits from bit `b` of a block. -/
def blockBits (data : List Byte) (b w : Nat) : Nat := leVal ((data.drop (b / 8)).take 8) / 2 ^ (b % 8) % 2 ^ w
/-- Whether the half that holds bit `b` is marked. -/
def halfMarked (half b : Nat) : Bool := decide (half / 2 ^ (b / 512) % 2 = 1)
/-- The elements of a tensor that a counted block feeds: those in marked halves. -/
def fedElems (t : Tensor) (f : Fed) : List (Ix × Nat) :=
  ((t.elems f.block).filter (fun e => halfMarked f.half e.2)).map (fun e => (e.1, blockBits f.data e.2 (fmtWidth t.fmt)))
/-- An element without a scale. -/
def plainFe (slot : Nat) (t : Tensor) (port : Nat) (e : Ix × Nat) : Fe :=
  { slot := slot, ix := e.1, port := port, val := decodeElem t.fmt e.2, sc := 0, raw := decodeElem t.fmt e.2 }
/-- An MX element with its scale X. -/
def mxFe (slot : Nat) (t : Tensor) (port : Nat) (e : Ix × Nat) (x : Nat) : Fe :=
  { slot := slot, ix := e.1, port := port, val := (decodeElem t.fmt e.2).scaled x, sc := (x : Int) - 127, raw := decodeElem t.fmt e.2 }
/-- An element of an MX block whose scale is 0xFF (R387): not a number, whether or not its own block is counted. -/
def nanFe (slot : Nat) (port : Nat) (ix : Ix) : Fe := { slot := slot, ix := ix, port := port, val := .nan, sc := 128, raw := .nan }
/-- The index of an element's scale. -/
def scaleIx (i : Ix) : Ix := (i.1, i.2.1, i.2.2.1, i.2.2.2 / 32)
/-- The elements that a counted block feeds, given the blocks counted before it: an MX element is fed with the later of its own
block and its scale's. -/
def feedOf (d : List Byte) (seen : List Fed) (f : Fed) : List Fe :=
  let k := oKind d
  let n := dataSlots k
  if f.tensor < n then
    let t := dataTensor d f.tensor
    if fmtMx t.fmt then
      let sc := (seen.filter (fun g => decide (g.tensor = scaleSlot k f.tensor))).flatMap (fedElems (scaleTensor d f.tensor))
      (fedElems t f).filterMap (fun e => (sc.find? (fun x => decide (x.1 = scaleIx e.1))).map (fun x => mxFe f.tensor t f.port e x.2))
    else (fedElems t f).map (plainFe f.tensor t f.port)
  else
    let slot := f.tensor - n
    let t := dataTensor d slot
    let sc := fedElems (scaleTensor d slot) f
    (sc.filter (fun x => decide (x.2 = 255))).flatMap (fun x => (List.range 32).map (fun i =>
      nanFe slot f.port (x.1.1, x.1.2.1, x.1.2.2.1, 32 * x.1.2.2.2 + i))) ++
    (seen.filter (fun g => decide (g.tensor = slot))).flatMap (fun g =>
      (fedElems t g).filterMap (fun e => (sc.find? (fun x => decide (x.1 = scaleIx e.1))).map (fun x => mxFe slot t g.port e x.2)))
/-- Every element fed, in order. -/
def feeds (d : List Byte) : List Fed → List Fed → List Fe
  | _, [] => []
  | seen, f :: rest => feedOf d seen f ++ feeds d (seen ++ [f]) rest

/-! ## Where an element stands in its product -/

/-- The (batch, row, inner) positions of an element of A. An input element of CONV2D stands at each filter position that maps it
to an output in range. -/
def posA (d : List Byte) (ix : Ix) : List (Nat × Nat × Nat) :=
  let (i3, i2, i1, i0) := ix
  match oKind d with
  | 3 =>
    let p := oParam d
    (List.range (p 0)).flatMap (fun (r : Nat) => (List.range (p 1)).filterMap (fun (s : Nat) =>
      let y : Int := (i2 : Int) + p 6 - r * p 4
      let x : Int := (i1 : Int) + p 7 - s * p 5
      if 0 ≤ y ∧ 0 ≤ x ∧ y % (p 2) = 0 ∧ x % (p 3) = 0 ∧ y / p 2 < oHout d ∧ x / p 3 < oWout d then
        some (0, (i3 * oHout d + (y / p 2).toNat) * oWout d + (x / p 3).toNat, (i0 * p 0 + r) * p 1 + s)
      else none))
  | 4 => [(i2, i1, i0)]
  | _ => if slotTrans (oSlot d 0) then [(i2, i0, i1)] else [(i2, i1, i0)]
/-- The (batch, inner, column) position of an element of B. -/
def posB (d : List Byte) (slot : Nat) (ix : Ix) : Nat × Nat × Nat :=
  let (i3, i2, i1, i0) := ix
  match oKind d with
  | 3 => (0, (i0 * oParam d 0 + i2) * oParam d 1 + i1, i3)
  | 4 => if slot = 1 then (i2, i0, i1) else (i2, i1, i0)
  | _ => if slotTrans (oSlot d 1) then (i2, i0, i1) else (i2, i1, i0)
/-- The (batch, row, column) position of an element of C. -/
def posC (d : List Byte) (ix : Ix) : Nat × Nat × Nat :=
  let (i3, i2, i1, i0) := ix
  match oKind d with
  | 3 => (0, (i3 * oHout d + i2) * oWout d + i1, i0)
  | _ => (i2, i1, i0)
/-- Whether one B serves every batch entry (P2 of 0). -/
def oneB (d : List Byte) : Bool := oKind d = 2 && decide ((dataTensor d 1).p2 = 0)
/-- The band of a row. -/
def bandOf (d : List Byte) (t i : Nat) : Nat :=
  (if oKind d = 1 ∨ oKind d = 3 then i else t) / Nat.max 1 (bandHeight d)
/-- Whether band `b` uses B of batch entry `t`. -/
def bandUsesB (d : List Byte) (b t : Nat) : Bool :=
  oKind d = 1 || oKind d = 3 || oneB d || decide (bandOf d t 0 = b)

/-! ## One form over one band (R391, R397, R399) -/

/-- What a form has accumulated: x and y entries by key, r per port, H, and the sticky flags of special elements. -/
structure FormAcc where
  x : SMap Acc
  y : SMap Acc
  r : SMap Acc
  hN : Nat
  hS : Option Dy
  etaMax : Dy
  spOp : Bool
  spRes : Bool
  atMax : Bool
def FormAcc.zero : FormAcc :=
  { x := [], y := [], r := [], hN := 0, hS := none, etaMax := Dy.zero, spOp := false, spRes := false, atMax := false }

/-- Whether ρ is 0 (Table 14-7). -/
def Decl.noRho (d : Decl) : Bool := d.fc = d.facc || d.fc = 0x30
/-- η of an element: the output part at block scale 2^sc, and the accumulator part. -/
def Decl.eta (d : Decl) (sc : Int) : Dy :=
  let part (f : Nat) : Dy := if d.ftz then fmtNormal f else if d.rz then fmtTiny f else (fmtTiny f).shift (-1)
  let out := if d.noRho then Dy.zero else (part d.fc).shift sc
  let acc := if d.facc = 0x30 then Dy.zero else (dyInt d.depth).mul (part d.facc)
  out.add acc
/-- Adds to H of an MX result, with the window of r. -/
def FormAcc.addH (a : FormAcc) (fl : Int) (h : Dy) : FormAcc :=
  if inWin fl h then { a with hN := a.hN + (winUnits fl h).toNat } else { a with hS := some (magAdd (a.hS.getD Dy.zero) (up96 h)) }
/-- Feeds one element into a form over band `b` of product `p`. -/
def FormAcc.feed (d : List Byte) (p : Product) (w : Weights) (form b : Nat) (a : FormAcc) (e : Fe) : FormAcc :=
  let dc := p.decl
  if e.slot = p.slot then
    let pos := (posA d e.ix).filter (fun q => decide (bandOf d q.1 q.2.1 = b))
    if pos.isEmpty then a
    else match e.val with
    | .fin v => { a with x := pos.foldl (fun m q =>
        let k := q.1 * p.k + q.2.2
        smSet Acc.zero m k ((smGet Acc.zero m k).feed (winFloor dc.fa dc.flA) ((dyInt (w.u form (q.1 * p.m + q.2.1))).mul v))) a.x }
    | _ => { a with spOp := true }
  else if e.slot = p.slot + 1 then
    let (t, kk, j) := posB d e.slot e.ix
    if !bandUsesB d b t then a
    else match e.val with
    | .fin v =>
      let k := t * p.k + kk
      { a with y := smSet Acc.zero a.y k ((smGet Acc.zero a.y k).feed (winFloor dc.fb dc.flB) ((dyInt (w.v form (p.v0 + j))).mul v)) }
    | _ => { a with spOp := true }
  else if e.slot = p.slot + 2 then
    let (t, i, j) := posC d e.ix
    if bandOf d t i ≠ b then a
    else match e.val with
    | .fin v =>
      let fl := winFloor dc.fc dc.flC
      let wt := w.u form (t * p.m + i) * w.v form (p.v0 + j)
      let a1 := { a with r := smSet Acc.zero a.r e.port ((smGet Acc.zero a.r e.port).feed fl ((dyInt wt).mul v))
                         etaMax := a.etaMax.max (dc.eta e.sc) }
      let a2 := if fmtMx dc.fc then a1.addH fl ((dyInt wt.natAbs).mul (dc.eta e.sc)) else a1
      match e.raw with
      | .fin r => if r.abs.le (fmtMax dc.fc) && (fmtMax dc.fc).le r.abs then { a2 with atMax := true } else a2
      | _ => a2
    | _ => { a with spRes := true }
  else a

/-- The batch entries of band `b`. -/
def bandBatches (d : List Byte) (p : Product) (b : Nat) : List Nat :=
  if oKind d = 1 ∨ oKind d = 3 then [0] else (List.range p.t).filter (fun t => decide (bandOf d t 0 = b))
/-- The global row indices of band `b`. -/
def bandRows (d : List Byte) (p : Product) (b : Nat) : List Nat :=
  (List.range (p.t * p.m)).filter (fun g => decide (bandOf d (g / p.m) (g % p.m) = b))
/-- p: the sum over k of x_k y_k, for every batch entry of the band. -/
def formP (d : List Byte) (p : Product) (b : Nat) (a : FormAcc) : Acc :=
  let fx := winFloor p.decl.fa p.decl.flA
  let fy := winFloor p.decl.fb p.decl.flB
  (bandBatches d p b).foldl (fun acc t => (List.range p.k).foldl (fun acc k =>
    acc.feedProd fx fy (smGet Acc.zero a.x (t * p.k + k)) (smGet Acc.zero a.y ((if oneB d then 0 else t) * p.k + k))) acc) Acc.zero
/-- r: the 16 per-port partial sums (R422). -/
def formR (a : FormAcc) : Acc := (List.range 16).foldl (fun acc n => acc.join (smGet Acc.zero a.r n)) Acc.zero

/-! ## The tolerance and the outcome (R400 to R402) -/

/-- γ and ρ, rounded up (Table 14-7). -/
def Decl.gamma (d : Decl) : Dy := if d.facc = 0x30 then Dy.zero else divUp96 d.depth (2 ^ d.ulpExp d.facc - d.depth)
def Decl.rho (d : Decl) : Dy := if d.noRho then Dy.zero else divUp96 1 (2 ^ d.ulpExp d.fc - 1)
/-- H. -/
def formH (d : List Byte) (p : Product) (w : Weights) (form b : Nat) (a : FormAcc) : Dy :=
  if fmtMx p.decl.fc then
    let x := up96 { m := a.hN, e := winFloor p.decl.fc p.decl.flC }
    match a.hS with | none => x | some s => magAdd x s
  else
    let u := listSum ((bandRows d p b).map (fun g => (w.u form g).natAbs))
    let v := listSum ((List.range p.n).map (fun j => (w.v form (p.v0 + j)).natAbs))
    magMul (magMul (up96 (p.decl.eta 0)) (dyInt u)) (dyInt v)
/-- A comparison: outcome 0 WITHIN, 1 OUTSIDE, 2 UNDECIDED; its cause; D and T + ε_A. -/
structure Cmp where
  out : Nat
  cause : Nat
  dv : Dy
  tv : Dy
deriving DecidableEq, Repr

/-- OVF (R402). -/
def Decl.ovf (d : Decl) : Dy :=
  let a := if d.facc = 0x30 then dyInt (2 ^ 31) else fmtMax d.facc
  if fmtMx d.fc || d.fc = 0x30 then a else if a.le (fmtMax d.fc) then a else fmtMax d.fc
/-- The comparison of one form over one band. -/
def compareForm (d : List Byte) (p : Product) (w : Weights) (form b : Nat) (a : FormAcc) : Cmp :=
  let dc := p.decl
  let flP := winFloor dc.fa dc.flA + winFloor dc.fb dc.flB
  let flR := winFloor dc.fc dc.flC
  let pp := formP d p b a
  let rr := formR a
  let dw : W96 := if pp.sp.isNone && rr.sp.isNone then { v := (rr.exact flR).sub (pp.exact flP), e := Dy.zero }
    else (rr.w96 flR).add (pp.w96 flP).neg
  let bigP := pp.magW flP
  -- the maximum of η: for a format without block scales it is the same for every element of the scope
  let etaMax := if fmtMx dc.fc then a.etaMax else dc.eta 0
  let gp := magMul dc.gamma bigP
  let tol := magAdd (magAdd gp (magMul dc.rho (rr.magW flR))) (formH d p w form b a)
  let te := magAdd tol dw.e
  let exceeds := dc.ovf.le (magAdd (magAdd bigP gp) (up96 etaMax))
  let res (o c : Nat) : Cmp := { out := o, cause := c, dv := dw.v, tv := te }
  if a.spOp then res 2 2
  else if dc.facc = 0x30 && exceeds then res 2 4
  else if a.spRes then (if dc.sat || !exceeds then res 1 3 else res 2 4)
  else if dc.sat && a.atMax && exceeds then res 2 4
  else if (tol.add dw.e).lt dw.v.abs then res 1 1
  else if (dw.v.abs.add dw.e).le tol then res 0 0
  else res 2 5
/-- A form of product `p` over band `b`, from the fed elements. -/
def formOver (d : List Byte) (w : Weights) (es : List Fe) (b form : Nat) (p : Product) : Cmp :=
  compareForm d p w form b (es.foldl (FormAcc.feed d p w form b) FormAcc.zero)

/-! ## Bands (R426 to R431) -/

/-- The block that holds the scale of an element of data slot `i`, with its slot. -/
def scaleAt (d : List Byte) (i : Nat) (ix : Ix) : Nat × Nat :=
  let q := scaleIx ix
  (scaleSlot (oKind d) i, (scaleTensor d i).bitAddr (q.1, q.2.1, q.2.2.1) q.2.2.2 / 1024)
/-- The blocks that band `b` reads, as (slot, block): the elements of its rows, B, and their scales (R427). -/
def bandNeeds (d : List Byte) (b : Nat) : List (Nat × Nat) :=
  let need (slot : Nat) (ix : Ix) : Bool :=
    match slot % 3 with
    | 0 => (posA d ix).any (fun q => decide (bandOf d q.1 q.2.1 = b))
    | 1 => bandUsesB d b (posB d slot ix).1
    | _ => decide (bandOf d (posC d ix).1 (posC d ix).2.1 = b)
  (List.range (dataSlots (oKind d))).flatMap (fun i =>
    let t := dataTensor d i
    t.blocks.flatMap (fun blk =>
      let es := (t.elems blk).filter (fun e => need i e.1)
      (if es.isEmpty then [] else [(i, blk)]) ++
      (if fmtMx t.fmt then es.map (fun e => scaleAt d i e.1) else [])))

/-- Verdict codes of Table 15-16, and their precedence (R431). -/
def precedence (v : Nat) : Nat := match v with | 7 => 7 | 6 => 6 | 3 => 5 | 1 => 4 | 2 => 4 | 4 => 3 | 5 => 2 | _ => 1
/-- The verdict of a list of verdicts: FAIL_A and FAIL_B together give FAIL_BOTH. -/
def verdictMeet (a b : Nat) : Nat :=
  if (a = 1 ∧ b = 2) ∨ (a = 2 ∧ b = 1) then 3 else if precedence a < precedence b then b else a
def verdictOf (vs : List Nat) : Nat := vs.foldl verdictMeet 0

/-- A band as judged: its verdict, the gap cause, the bound cause, whether a recheck ran, and both comparisons. -/
structure Band where
  verdict : Nat
  gap : Nat
  bound : Nat
  rechecked : Bool
  /-- the arrays on which its rechecks disagreed -/
  dis : List Nat
  ca : Cmp
  cb : Cmp
deriving DecidableEq, Repr

/-- Table 15-8 with the recheck of R430, which repeats KX3's own arithmetic and gives OUTSIDE again unless `again` says otherwise
(log entry 43): the verdict, and whether a recheck ran. -/
def bandVerdict (a b : Cmp) (again : Option Recheck) : Nat × Bool :=
  if a.out = 0 && b.out = 0 then (0, false)
  else if a.out = 1 && b.out = 1 then (3, false)
  else if a.out = 1 || b.out = 1 then
    match again with
    | none => (if a.out = 1 then 1 else 2, true)
    | some r => (if r.cause = 0 && (a.out = 0 || b.out = 0) then 0 else 5, true)
  else (5, false)
/-- The first bound cause of a band: a form that was rechecked has the recheck's. -/
def boundCause (a b : Cmp) (again : Option Recheck) : Nat :=
  let of (c : Cmp) : Nat := if c.out = 2 then c.cause else if c.out = 1 then (match again with | some r => r.cause.toNat | none => 0) else 0
  if of a ≠ 0 then of a else of b
/-- A judged product over one band. -/
def judged (gap : Nat) (a b : Cmp) (again : Option Recheck) : Band :=
  let v := bandVerdict a b again
  { verdict := v.1, gap := gap, bound := boundCause a b again, rechecked := v.2,
    dis := if v.2 then (match again with | some r => [r.array.toNat] | none => []) else [], ca := a, cb := b }
/-- One product over one band, with or without its gaps. -/
def judge (covered : Bool) (gap : Nat) (a b : Cmp) (again : Option Recheck := none) : Band :=
  if covered then judged 0 a b again
  else
    let special (c : Cmp) : Bool := c.out = 1 && c.cause = 3
    if special a || special b then judged gap a b again
    else { verdict := 4, gap := gap, bound := 0, rechecked := false, dis := [], ca := a, cb := b }
/-- S and O of an ATTENTION band are combined by the precedence of verdicts. -/
def bandJoin (x y : Band) : Band :=
  let v := verdictMeet x.verdict y.verdict
  let z := if precedence x.verdict < precedence y.verdict then y else x
  { z with verdict := v, gap := if v = 4 then z.gap else 0, bound := if v = 5 then z.bound else 0,
           rechecked := x.rechecked || y.rechecked, dis := x.dis ++ y.dis }
/-- The recheck of a band's product that does not repeat OUTSIDE. -/
def recheckOf (rs : List Recheck) (b slot : Nat) : Option Recheck :=
  rs.find? (fun r => decide (r.band.toNat = b) && (r.second == decide (slot ≠ 0)))
/-- Band `b` of an operation: its coverage, then its comparisons. -/
def judgeBand (d : List Byte) (w : Weights) (es : List Fe) (counted : Nat → Nat → Bool) (gaps : List (Nat × Nat × Nat))
    (rs : List Recheck) (b : Nat) : Band :=
  let needs := bandNeeds d b
  let covered := needs.all (fun n => counted n.1 n.2)
  let gap := match gaps.find? (fun g => needs.contains (g.1, g.2.1)) with | some g => g.2.2 | none => 3
  let bands := (products d).map (fun p => judge covered gap (formOver d w es b 0 p) (formOver d w es b 1 p) (recheckOf rs b p.slot))
  match bands with
  | [] => judge covered gap { out := 0, cause := 0, dv := Dy.zero, tv := Dy.zero } { out := 0, cause := 0, dv := Dy.zero, tv := Dy.zero }
  | x :: rest => rest.foldl bandJoin x

end Sys2Proof.Machine
end

