-- ==== Sys2Proof/Machine/Rng.lean ====
section
/-! DEFINITION. The reseed of the DRBG (R217), and the Strongbox: slots, derivation and commands (R163 to R177). -/
namespace Sys2Proof.Machine

/-! ## Entropy and DRBG -/

/-- A reseed that has fallen due by count or time (R217). -/
def execDrbgReseed (s : State) : Host.Outcome State Fault Refusal :=
  .next (if coreOn s && reseedDue s false && s.rng.es ≠ 2 && !s.rng.dead then reseed s else s)

/-! ## Strongbox slots and staging (R163 to R165, R174) -/

def sboxPort (s : State) (w : Who) : SboxPort := smGet sboxPortReset s.sbox.ports w.num
def setSboxPort (s : State) (w : Who) (p : SboxPort) : State :=
  { s with sbox := { s.sbox with ports := smSet sboxPortReset s.sbox.ports w.num p } }
/-- Key bytes as material. -/
def keyOf (bs : List Byte) : BitVec 512 := BitVec.ofNat 512 (leVal bs)
/-- Staged attributes that R164 refuses. -/
def attrBad (a : Word) : Bool :=
  decide (fld a 2 0 = 0 ∨ 4 < fld a 2 0 ∨ fld a 29 28 = 3 ∨ fld a 27 24 = 0 ∨ 4 < fld a 27 24 ∨ 65 < fld a 15 8)
/-- Fills a slot. -/
def fillSlot (s : State) (n : Nat) (origin : Nat) (a : Word) (key : List Byte) : State :=
  setSlot s n { key := keyOf (slice key 0 (lenBytes (fld a 29 28))),
                attr := mkAttr origin (fld a 29 28) (fld a 27 24) (fld a 23 18) (fld a 15 8) (fld a 2 0) }
/-- A key slot serves a job (R166, R167): use, engine, PID, and the current generation. -/
def keyUsable (s : State) (n use engine pid : Nat) : Bool :=
  let v := slotOf s n
  decide (v.use = use ∧ v.engine = engine ∧ v.pid = pid) && (decide (v.pid = 0) || decide (v.gen = genOf s v.pid))

/-! ## Signatures that fail their verification (R200, Table 17-7) -/

/-- SIGN_FAULT of an Anvil OP: its record; whether the job is submitted once more, which a second one within 1 s is not: it leads
to SAFE. -/
def signFaultNote (s : State) (op : Nat) : Bool × State :=
  let s1 := fwEvent s (pgFw 4) 2
  let again := match s.tmp.signFault with | some t => decide (s.time < t + oneSecond) | none => false
  if again then (false, safeEntry (escNote (record s1 0x0024 0 5 0 op) 4) 0x0024 false)
  else (true, escNote (record { s1 with tmp := { s1.tmp with signFault := some s.time } } 0x0024 0 2 0 op) 1)
/-- A signing job that SC1 submits: its signature once it has been verified. `once` is one attempt, none when no job can run. -/
def signJob {α : Type} (op : Nat) (once : State → Option (α × Bool) × State) (s : State) : Option α × State :=
  match once s with
  | (none, s1) => (none, s1)
  | (some (g, true), s1) => (some g, s1)
  | (some (_, false), s1) =>
    match signFaultNote s1 op with
    | (false, s2) => (none, s2)
    | (true, s2) =>
      match once s2 with
      | (some (g, true), s3) => (some g, s3)
      | (some (_, false), s3) => (none, (signFaultNote s3 op).2)
      | (none, s3) => (none, s3)
/-- One ECDSA signature over digest `e` with the key of a seed: nonce from the DRBG, then verification. -/
def ecSignOnce (seed : List Byte) (e : Nat) (s : State) : Option ((Nat × Nat) × Bool) × State :=
  match drbgGrant s true with
  | none => (none, s)
  | some s1 =>
    let d := ecScalar (keyOf seed)
    let (g, n) := ecdsaDraw d e s1.free 7
    (some (g, ecdsaOk ((ecBase d).getD (0, 0)) e g.1 g.2), drew s1 n)
def ecSign (s : State) (seed : List Byte) (e : Nat) : Option (Nat × Nat) × State := signJob 0x10 (ecSignOnce seed e) s
/-- One ML-DSA-87 signature in pure mode with an empty context string. -/
def mlSignOnce (seed m : List Byte) (s : State) : Option (List Byte × Bool) × State :=
  match drbgGrant s true with
  | none => (none, s)
  | some s1 =>
    let sig := (List.range 4627).map (Config.mldsaSign seed [] m (BitVec.ofNat 256 (freeNow s1).toNat))
    (some (sig, Config.mldsaVerify ((List.range 2592).map (Config.mldsaPk seed)) [] m sig), drew s1)
def mlSign (s : State) (seed m : List Byte) : Option (List Byte) × State := signJob 0x20 (mlSignOnce seed m) s

/-! ## Derivation (R170 to R173) -/

/-- A key slot that may be delivered to an agent: USE ENCRYPT_ONLY, ENGINE CPB, of a length that Table 6-14 has a TYPE for, and of
the current generation (R167, R184). -/
def keyCarried (s : State) (n : Nat) : Bool :=
  let v := slotOf s n
  decide (v.use = 1 ∧ v.engine = 4 ∧ (v.len = 0 ∨ v.len = 2)) && (decide (v.pid = 0) || decide (v.gen = genOf s v.pid))

def lane (s : State) (n : Nat) : Lane := smGet laneReset s.hash.lanes n
def setLane (s : State) (n : Nat) (l : Lane) : State := { s with hash := { s.hash with lanes := smSet laneReset s.hash.lanes n l } }
/-- Whether a measurement of model weights reads through lane `n` (R234). -/
def laneMeasures (s : State) (n : Nat) : Bool :=
  s.att.weights.any (fun c => match c.2 with
    | some o => decide (o.status = 1 ∧ o.phase = 1 ∧ o.lane = some n)
    | none => false)
/-- Whether lane `n` has a job in progress. -/
def laneRuns (s : State) (n : Nat) : Bool := (lane s n).run.isSome || laneMeasures s n
/-- The lane that a DERIVE takes: the one that reaches a chunk boundary first (R209). A lane without a job stands at one, and the
lowest such lane is taken; among running lanes the order is open (log entry 76). -/
def deriveLane (s : State) : Nat × State :=
  let free := (List.range 16).filter (fun n => !(lane s n).shadow)
  match free.find? (fun n => !laneRuns s n) with
  | some n => (n, s)
  | none => (free.getD ((freeNow s).toNat % free.length) 0, drew s)
/-- A derivation runs: its lane keeps the open message in its shadow context (R209). -/
def takeLane (s : State) (w : Who) : State :=
  let (n, s1) := deriveLane s
  setSboxPort (setLane s1 n { lane s1 n with shadow := true }) w { sboxPort s1 w with lane := some n }
/-- It has ended: the lane's message is restored. -/
def freeLane (s : State) (w : Who) : State :=
  match (sboxPort s w).lane with
  | some n => setSboxPort (setLane s n { lane s n with shadow := false }) w { sboxPort s w with lane := none }
  | none => s
/-- MEAS_LANE.DERIVE: the lanes that derivations have taken. -/
def deriveLanes (s : State) : Nat := listSum ((List.range 16).map (fun n => b2n (lane s n).shadow * 2 ^ n))

/-- The pod master, once imported: a slot with the attributes of Table 6-16 step 5 and ORIGIN 3. -/
def isPodMaster (s : State) (n : Nat) : Bool :=
  let v := slotOf s n
  decide (8 ≤ n ∧ v.use = 4 ∧ v.engine = 3 ∧ v.pid = 0 ∧ v.len = 2 ∧ fld v.attr 31 30 = 3)
/-- Whether a label permits these sources (R172, Table 8-10): POD-TOKEN and SPDM-KS-08 take two, the session labels up to 0x4A one,
and integrator labels either. A reserved SRCKIND is no source of any label (DESIGN CHOICE, log entry 87). -/
def labelOk (s : State) (label kind src src2 : Nat) (two : Bool) : Bool :=
  match label with
  | 0x01 | 0x02 => kind = 1 && !two
  | 0x03 | 0x04 => kind = 2 && !two
  | 0x05 => kind = 0 && two && decide ((slotOf s src).pid = 0 ∧ (slotOf s src2).pid = 0)
  | 0x10 | 0x11 | 0x14 | 0x15 => kind = 0 && src = 1 && !two
  | 0x12 | 0x13 | 0x16 => kind = 0 && src = 0 && !two
  | 0x20 | 0x21 => kind = 0 && isPodMaster s src && !two
  | 0x48 => kind = 0 && two
  | l => kind = 0 && ((decide (0x40 ≤ l ∧ l ≤ 0x4A) && !two) || decide (0x80 ≤ l))

/-- The result that refuses one source slot, 0 when it serves a destination of `pid`: SOURCE_EMPTY, USE_DENIED, PID_DENIED,
SOURCE_STALE. -/
def sourceBad (s : State) (pid n : Nat) : Nat :=
  let v := slotOf s n
  if v.use = 0 then 2
  else if v.use ≠ 4 ∨ v.engine ≠ 3 then 3
  else if v.pid ≠ 0 ∧ v.pid ≠ pid then 4
  else if v.pid ≠ 0 ∧ v.gen ≠ genOf s v.pid then 12
  else 0

/-! ## Commands (Table 6-11) -/

/-- Whether slot `n` may be erased (R165). -/
def slotOpen (s : State) (n : Nat) : Bool := decide (8 ≤ n) || !s.sbox.lockFixed
/-- The derivation by which a fixed slot gets its content: SRCKIND, label and attributes (Table 6-2, R176). -/
def fixedContent (n : Nat) : Option (Nat × Nat × Word) :=
  match n with
  | 0 => some (1, 1, mkAttr 0 2 3 0 0 4)
  | 1 => some (1, 2, mkAttr 0 2 3 0 0 4)
  | 2 => some (3, 0, mkAttr 0 0 4 0 0 4)
  | 3 => some (2, 3, mkAttr 0 2 1 0 0 2)
  | 4 => some (2, 4, mkAttr 0 2 1 0 0 2)
  | _ => none
/-- Whether `w` may fill slot `p.sel` by DERIVE: a fixed slot only from BC, in S6, and with its content of Table 6-2. -/
def deriveOpen (s : State) (w : Who) (p : SboxPort) : Bool :=
  decide (8 ≤ p.sel) || (!s.sbox.lockFixed && w = .bc && decide (s.block = .boot ∧ s.boot.step = 6) &&
    (match fixedContent p.sel with
     | some (kind, label, a) => decide (fld p.derive 2 0 = kind ∧ p.attr = a) && (decide (kind = 3) || decide (fld p.derive 15 8 = label))
     | none => false))
/-- The data buffer of an initiator is zeroised. -/
def clearData (s : State) (w : Who) : State := setSboxPort s w { sboxPort s w with data := 0, mask := 0 }

/-- A command: ignored while BUSY, SHUTTER after the Shutter, otherwise its effect; the result is written at its end. -/
def sboxCmd (s : State) (w : Who) (long clear : Bool) (f : State → SboxPort → Nat × State) : State :=
  byCore s w (fun s =>
    let p := sboxPort s w
    if p.busy then setSboxPort s w { p with result := 9 }
    else
      let (r, s1) := if s.sbox.shutterFired then (10, s) else f s p
      let s2 := if clear || r ≠ 0 then clearData s1 w else s1
      let s3 := setSboxPort s2 w { sboxPort s2 w with busy := true, next := r, long := long, seq := s.sbox.seq % 4096 }
      { s3 with sbox := { s3.sbox with seq := (s3.sbox.seq + 1) % 2 ^ 20 } })

/-- INSTALL, in the order LOCKED, NOT_EMPTY, BAD_ATTR, DATA_INCOMPLETE (log entry 31). Table 6-2 gives no fixed slot a content
that is written in the clear. -/
def sboxInstall (s : State) (p : SboxPort) : Nat × State :=
  let words := lenBytes (fld p.attr 29 28) / 4
  if p.sel < 8 then (5, s)
  else if !slotEmpty s p.sel then (1, s)
  else if attrBad p.attr then (6, s)
  else if p.mask.toNat % 2 ^ words ≠ 2 ^ words - 1 then (8, s)
  else (0, fillSlot s p.sel 0 p.attr (leBytes 64 p.data.toNat))
def execInstall (w : Who) (s : State) : Host.Outcome State Fault Refusal := .next (sboxCmd s w false true sboxInstall)

def sboxErase (s : State) (p : SboxPort) : Nat × State :=
  if slotOpen s p.sel then (0, eraseSlot s p.sel) else (5, s)
def execErase (w : Who) (s : State) : Host.Outcome State Fault Refusal := .next (sboxCmd s w false true sboxErase)

/-- The K_IN of a DERIVE, or the result that refuses it. -/
def deriveSource (s : State) (p : SboxPort) : Except Nat (List Byte) :=
  let kind := fld p.derive 2 0
  let label := fld p.derive 15 8
  let src := fld p.derive 23 16
  let src2 := fld p.derive 31 24
  let two := bitOf p.derive 7
  let pid := fld p.attr 15 8
  if (kind = 1 ∨ kind = 2) ∧ s.sbox.lockRoot then .error 5
  else if !labelOk s label kind src src2 two then .error 11
  else if kind = 1 then (if s.sbox.rootValid then .ok (leBytes 64 s.sbox.root.toNat) else .error 7)
  else if kind = 2 then (if s.sbox.podRootValid then .ok (leBytes 64 s.sbox.podRoot.toNat) else .error 7)
  else
    let r1 := sourceBad s pid src
    let r2 := if two then sourceBad s pid src2 else 0
    if r1 ≠ 0 then .error r1
    else if r2 ≠ 0 then .error r2
    else .ok (keyBytes (slotOf s src) ++ (if two then keyBytes (slotOf s src2) else []))

/-- A DERIVE from the DRBG. Where the DRBG gives nothing its source is empty (DESIGN CHOICE, log entry 87). -/
def drbgFill (s : State) (n : Nat) (a : Word) : Nat × State :=
  match drbgGrant s true with
  | none => (2, s)
  | some s1 => (0, drew (fillSlot s1 n 2 a (drbgBytes s1.free 64)))
/-- DERIVE (R173). Its refusals come in the order LOCKED, NOT_EMPTY, BAD_ATTR, the destination's generation, then the label and
the source (DESIGN CHOICE, log entry 87). -/
def sboxDerive (w : Who) (s : State) (p : SboxPort) : Nat × State :=
  let pid := fld p.attr 15 8
  let ctx := (reg s (whoKey w 0x3054)).toNat + 2 ^ 32 * (reg s (whoKey w 0x3058)).toNat
  if !deriveOpen s w p then (5, s)
  else if !slotEmpty s p.sel then (1, s)
  else if attrBad p.attr then (6, s)
  else if pid ≠ 0 ∧ fld p.attr 23 18 ≠ genOf s pid then (12, s)
  else if fld p.derive 2 0 = 3 then
    if drbgWaits s true then (0, setSboxPort s w { p with await := some (p.sel, p.attr) }) else drbgFill s p.sel p.attr
  else match deriveSource s p with
    | .error r => (r, s)
    | .ok kin =>
    (0, takeLane (fillSlot s p.sel 1 p.attr (deriveKey s kin (fld p.derive 15 8) pid ctx (fld p.attr 29 28))) w)
def execDerive (w : Who) (s : State) : Host.Outcome State Fault Refusal := .next (sboxCmd s w false false (sboxDerive w))

/-- A DERIVE that waits for the entropy source goes on once it need not: the slot must still be EMPTY. -/
def sboxResume (s : State) (w : Who) : State :=
  match (sboxPort s w).await with
  | none => s
  | some (n, a) =>
    if drbgWaits s true then s
    else
      let (r, s1) := if slotEmpty s n then drbgFill s n a else (1, s)
      setSboxPort s1 w { sboxPort s1 w with await := none, next := r }
/-- Every request inside KX3 that waits for the entropy source goes on where it can. -/
def drbgResume (s : State) : State := [Who.bc, .sc1, .sc2, .sc3, .jtag].foldl sboxResume (fuseResume s)

def execErasePid (w : Who) (s : State) : Host.Outcome State Fault Refusal :=
  .next (sboxCmd s w true false (fun s p =>
    let pid := fld p.attr 15 8
    if pid = 0 then (4, s) else (0, erasePid s pid)))
def execEraseStale (w : Who) (s : State) : Host.Outcome State Fault Refusal :=
  .next (sboxCmd s w true false (fun s p =>
    let pid := fld p.attr 15 8
    if pid = 0 then (4, s) else (0, eraseStale s pid)))

/-! ## Roots (R168, R169) -/

/-- The bytes of 8 consecutive sensed rows, or none when one is blank or bad. -/
def sensedKey (s : State) (r : Nat) : Option (List Byte) :=
  let rows := (List.range 8).map (· + r)
  if rows.any (fun k => s.fuse.sensed.blank.contains k || s.fuse.sensed.bad.contains k) then none
  else some (rows.flatMap (fun k => leBytes 8 (smGet 0 s.fuse.sensed.rows k).toNat))
/-- A UDS row is uncorrectable, or blank in PROVISIONED, OWNED or RETURN: no root but the public test root (Table 4-5, R169). -/
def udsLost (z : Sensed) : Bool :=
  z.bad.any (fun r => decide (0x7F0 ≤ r)) || (decide (3 ≤ z.lcs ∧ z.lcs ≤ 5) && z.blank.any (fun r => decide (0x7F0 ≤ r)))
/-- A POD row is uncorrectable: the pod root is unavailable (Table 4-5). -/
def podLost (z : Sensed) : Bool := z.bad.any (fun r => decide (0x380 ≤ r ∧ r ≤ 0x388))
/-- K_IN and label of the life-cycle root (Table 6-4). -/
def rootInput (s : State) : Option (List Byte × String) :=
  if udsLost s.fuse.sensed then none
  else match s.fuse.sensed.lcs with
  | 2 | 3 => (sensedKey s 0x7F0).map (fun k => (k, "ROOT-MFG"))
  | 4 =>
    let e := smGet 0 s.fuse.sensed.counters 18
    if e = 0 ∨ 8 < e then none
    else match sensedKey s 0x7F8, sensedKey s (0x340 + 8 * (e - 1)) with
      | some u, some o => some (u ++ o, "ROOT-OWNER")
      | _, _ => none
  | 5 => (sensedKey s 0x7F8).map (fun k => (k, "ROOT-RETURN"))
  | _ => none
/-- ROOT and POD_ROOT as the ROOT command leaves them. -/
def rootDo (s : State) : Nat × State :=
  let pod := if s.fuse.sensed.podKeyed && !podLost s.fuse.sensed then sensedKey s 0x380 else none
  let s1 := match pod with
    | some k => { s with sbox := { s.sbox with podRoot := keyOf k, podRootValid := true } }
    | none => s
  if s.fuse.sensed.lcs = 1 then ((if s.sbox.rootValid then 0 else 7), s1)
  else match rootInput s with
    | none => (7, s1)
    | some (k, l) =>
      let ctx := [BitVec.ofNat 8 s.fuse.sensed.lcs, 3, 1, 0] ++ List.replicate 60 0
      (0, { s1 with sbox := { s1.sbox with root := keyOf (kdf k l ctx 512), rootValid := true } })
def execRootCmd (w : Who) (s : State) : Host.Outcome State Fault Refusal :=
  .next (sboxCmd s w false false (fun s _ => if w ≠ .bc || s.sbox.lockRoot then (5, s) else rootDo s))

/-- SBOX_LOCK is set-only (Table 6-10). -/
def execSboxLockSet (w : Who) (data : Word) (s : State) : Host.Outcome State Fault Refusal :=
  .next (byCore s w (fun s => answer { s with sbox := { s.sbox with
    lockRoot := s.sbox.lockRoot || bitOf data 0, lockFixed := s.sbox.lockFixed || bitOf data 1 } } .ok))

/-- A command ends: BUSY clears and RESULT is written; ERASE_PID and ERASE_STALE set the page's event as Table 19-14 gives. -/
def execSboxCommandDone (w : Who) (s : State) : Host.Outcome State Fault Refusal :=
  let p := sboxPort s w
  .next (if p.busy && p.await.isNone then
    let s1 := freeLane (setSboxPort s w { p with busy := false, result := p.next }) w
    if p.long then fwEvent s1 (pgFw 3) 2 else s1
  else s)

end Sys2Proof.Machine
end

