-- ==== Sys2Proof/Machine/Assay.lean ====
section
/-! DEFINITION. The Assay: taps and matching, acceptance, closing, verdicts and the verdict log (R407 to R445, R540, R541). -/
namespace Sys2Proof.Machine

/-! ## Taps (R407 to R411) -/

/-- The fields of TAPn_META (Table 15-1). -/
structure Meta where
  tag : BitVec 24
  block : Nat
  write : Bool
  half : Nat
  part : Bool
  pseq : Nat
  crc : Word
def metaOf (m : BitVec 128) : Meta :=
  let n := m.toNat
  { tag := BitVec.ofNat 24 (nfld n 127 104), block := nfld n 103 59, write := decide (nfld n 58 58 = 1), half := nfld n 57 56,
    part := decide (nfld n 55 55 = 1), pseq := nfld n 47 32, crc := w32 (nfld n 31 0) }
/-- The tap CRC (R409). -/
def tapCrc (m : BitVec 128) (data : BitVec 1024) : Word :=
  let n := m.toNat
  crc32c (leBytes 8 (nfld n 103 48) ++ beBytes 3 (nfld n 127 104) ++ beBytes 2 (nfld n 47 32) ++ leBytes 128 data.toNat)

def tapReset : Tap := { checker := none, disabled := false, pseq := none, faults := [] }
def tapPort (s : State) (n : Nat) : Tap := smGet tapReset s.asy.taps n
def setTap (s : State) (n : Nat) (t : Tap) : State := { s with asy := { s.asy with taps := smSet tapReset s.asy.taps n t } }
/-- Whether an enabled port mirrors checker `c`. -/
def checkerTapped (s : State) (c : Nat) : Bool := s.asy.taps.any (fun x => decide (x.2.checker = some c) && !x.2.disabled)
/-- The region that holds a 128-byte block. -/
def blockRegion (s : State) (blk : Nat) : Option Nat := s.part.active.regions.find? (fun i => inRegion s i (128 * blk) 128)
/-- The checkers that govern a block. -/
def blockCheckers (s : State) (blk : Nat) : List Nat :=
  match blockRegion s blk with
  | some i => regionCheckers s s.part.active i
  | none => []
/-- Whether a block is tapped (R411). -/
def blockTapped (s : State) (blk : Nat) : Bool :=
  let cs := blockCheckers s blk
  !cs.isEmpty && cs.all (checkerTapped s)

/-! ## Operations and runs -/

def AOp.isRun (o : AOp) : Bool := o.kind = 0x80
/-- The tensors of an operation or the windows of a run. -/
def AOp.tensors (o : AOp) : List (Nat × Tensor) := if o.isRun then runTensors o.desc else opTensors o.desc
def blockKey (slot blk : Nat) : Nat := 2 ^ 46 * slot + blk
/-- The state of a block: 0 NONE, 1 COUNTED, 2 LOST. -/
def AOp.block (o : AOp) (slot blk : Nat) : Nat := smGet 0 o.blocks (blockKey slot blk)
/-- Every block of an operation, with its slot. -/
def AOp.allBlocks (o : AOp) : List (Nat × Nat) := o.tensors.flatMap (fun t => t.2.blocks.map (fun b => (t.1, b)))
/-- Whether the PID may still read and write what the operation names (Table 15-6, check 5). -/
def tensorOwned (s : State) (pid : Nat) (t : Tensor) : Bool :=
  t.blocks.all (fun b => match blockRegion s b with
    | some i => s.part.active.rOwner i = pid || (!t.out && decide (s.part.active.rGt i % 2 = 1))
    | none => false)
def tensorsOwned (s : State) (pid : Nat) (ts : List (Nat × Tensor)) : Bool := ts.all (fun t => tensorOwned s pid t.2)
/-- Every byte of the tensors is tapped. -/
def allTapped (s : State) (ts : List (Nat × Tensor)) : Bool := ts.all (fun t => t.2.blocks.all (blockTapped s))
/-- Whether a counted beat of an MX tensor still waits for a scale block (R420). -/
def AOp.waits (o : AOp) (f : Fed) : Bool :=
  !o.isRun && decide (f.tensor < dataSlots o.kind) && fmtMx (slotFmt o.desc f.tensor).1 &&
  ((dataTensor o.desc f.tensor).elems f.block).any (fun e =>
    halfMarked f.half e.2 && decide (o.block (scaleAt o.desc f.tensor e.1).1 (scaleAt o.desc f.tensor e.1).2 = 0))
/-- The pending area of an operation with `more` further beats, in units of 4 KiB. -/
def AOp.pendUnits (o : AOp) (more : Nat) : Nat := ceilDiv ((o.fed.filter o.waits).length + more) 32
/-- Scratch held by a partition's operations and runs with their pending areas, in units of 4 KiB. -/
def scratchHeld (s : State) (pid : Nat) : Nat :=
  listSum ([0, 1, 2, 3].map (fun k => match opAt s pid k with | some o => o.cost + o.pendUnits 0 | none => 0))
/-- The beat buffer of a sealed partition: 256 KiB, taken from its quota as far as that goes (R438, log entry 95). -/
def beatBuffer (s : State) (pid : Nat) : Nat := if sealed s pid then Nat.min 64 (apart s pid).quota else 0
/-- What a partition's quota has given out: ASY_USED. -/
def scratchUsed (s : State) (pid : Nat) : Nat := scratchHeld s pid + beatBuffer s pid
/-- The units that the pending area of operation `o` may take: 256 KiB, within what the quota leaves (R420). -/
def pendRoom (s : State) (pid : Nat) (o : AOp) : Nat :=
  Nat.min 64 ((apart s pid).quota - (scratchUsed s pid - o.pendUnits 0))
/-- Beats that wait for the BLOCK handlers of a partition's runs. -/
def queuedBeats (s : State) (pid : Nat) : Nat :=
  listSum ([0, 1, 2, 3].map (fun k => match opAt s pid k with | some o => o.queue.length | none => 0))
/-- Whether a partition's beats find their buffer full: 256 KiB of its own when it is sealed, 64 KiB of the 1 MiB pool otherwise
(R435, R438, Table 16-9). -/
def bufferFull (s : State) (pid : Nat) : Bool :=
  if sealed s pid then decide (2048 ≤ queuedBeats s pid)
  else decide (512 ≤ queuedBeats s pid) ||
    decide (8192 ≤ listSum ((tenants.filter (fun p => !sealed s p)).map (queuedBeats s)))

/-! ## Verdict records (R439 to R443, R467) -/

/-- What a verdict reports. -/
structure Verdict where
  code : Nat
  flags : Nat
  failmap : Nat
  gapmap : Nat
  boundmap : Nat
  gap : Nat
  bound : Nat
  first : Nat
  dt : List Byte
  tail : List Byte
deriving DecidableEq, Repr
/-- A verdict without bands. -/
def plainVerdict (code : Nat) : Verdict :=
  { code := code, flags := 0, failmap := 0, gapmap := 0, boundmap := 0, gap := 0, bound := 0, first := 0xFFFF,
    dt := List.replicate 32 0, tail := List.replicate 32 0 }
/-- Every band INCONCLUSIVE_COVERAGE with one cause. -/
def gapVerdict (bands cause flags : Nat) : Verdict :=
  { plainVerdict 4 with flags := flags, gapmap := 2 ^ bands - 1, gap := cause, first := 0 }
/-- The DT words of a band. -/
def bandDt (b : Band) : List Byte :=
  leBytes 8 (f64Of .even b.ca.dv) ++ leBytes 8 (f64Of .up b.ca.tv) ++ leBytes 8 (f64Of .even b.cb.dv) ++ leBytes 8 (f64Of .up b.cb.tv)
/-- The verdict of a list of judged bands (R431, R432, R434). -/
def bandsVerdict (bs : List Band) : Verdict :=
  let ix := (List.range bs.length).zip bs
  let map (f : Band → Bool) : Nat := bitmap ((ix.filter (fun x => f x.2)).map (fun x => x.1))
  let first := ix.find? (fun x => decide (x.2.verdict ≠ 0))
  { code := verdictOf (bs.map (fun b => b.verdict))
    flags := (if bs.any (fun b => b.rechecked) then 2 else 0) + (if bs.any (fun b => !b.dis.isEmpty) then 4 else 0)
    failmap := map (fun b => decide (1 ≤ b.verdict ∧ b.verdict ≤ 3))
    gapmap := map (fun b => decide (b.verdict = 4))
    boundmap := map (fun b => decide (b.verdict = 5))
    gap := match bs.find? (fun b => decide (b.verdict = 4)) with | some b => b.gap | none => 0
    bound := match bs.find? (fun b => decide (b.verdict = 5)) with | some b => b.bound | none => 0
    first := match first with | some x => x.1 | none => 0xFFFF
    dt := match first with | some x => bandDt x.2 | none => List.replicate 32 0
    tail := List.replicate 32 0 }

/-- The record (Table 15-10). -/
def verdictRecord (s : State) (pid lseq : Nat) (o : AOp) (v : Verdict) (counted lost : Nat) : List Byte :=
  let flags := v.flags + (if o.byAuto then 8 else 0) + (if o.byAct then 16 else 0)
  let body := leBytes 4 lseq ++ leBytes 2 o.opno ++ leBytes 2 o.trig ++
    [BitVec.ofNat 8 v.code, BitVec.ofNat 8 o.kind, BitVec.ofNat 8 o.bandsE, BitVec.ofNat 8 flags] ++
    leBytes 6 (shownTime s pid o.opened) ++ leBytes 6 (shownTime s pid o.closedAt) ++
    leBytes 8 v.failmap ++ leBytes 8 v.gapmap ++ leBytes 8 v.boundmap ++ [BitVec.ofNat 8 v.gap, BitVec.ofNat 8 v.bound] ++
    leBytes 2 v.first ++ leBytes 4 (Nat.min 0xFFFFFFFF counted) ++ leBytes 4 (Nat.min 0xFFFFFFFF lost) ++ v.dt ++ v.tail
  body ++ leBytes 4 (crc32c body).toNat

/-- The ring is full while PROD minus CONS equals SLOTS. -/
def logFull (s : State) (pid : Nat) : Bool := decide (((apart s pid).prod - pReg s pid 0x5070).toNat = (apart s pid).size)
/-- Writes the oldest waiting record when the ring has room (R440, R441). -/
def pollLog (s : State) (pid : Nat) : State :=
  let a := apart s pid
  match a.backlog with
  | [] => s
  | r :: _ =>
    if a.ringOn && !a.writing && !logFull s pid then
      hipIssue (setApart s pid { a with writing := true }) (.log pid)
        (a.base + 128 * ((le r 0 4 - 1) % Nat.max 1 a.size)) 128 true r
    else s
/-- The verdict ring's use of its region ends here (R15). -/
def logLeaves (s : State) (pid : Nat) : State :=
  if (apart s pid).ringOn then pushJob s (.ringDrop pid (apart s pid).region) else s
/-- A record write has returned: OK advances LOG_PROD, signals the ring's Tally and sets VERDICT; anything else unregisters the
ring and keeps the record (R440, R441). -/
def logWritten (s : State) (pid : Nat) (ok : Bool) : State :=
  let a := apart s pid
  if !a.writing then s
  else if ok then
    let s1 := setApart s pid { a with writing := false, backlog := a.backlog.drop 1, prod := a.prod + 1 }
    pollLog (serviceDone s1 pid (some a.tally) 5 1 false) pid
  else setApart (logLeaves s pid) pid { a with writing := false, ringOn := false }
/-- A record joins the chain, and the ring or the backlog (R441, R442). -/
def logAppend (s : State) (pid : Nat) (rec : List Byte) : State :=
  let a := apart s pid
  let a1 := { a with lseq := a.lseq + 1, chain := sha384 (a.chain ++ rec) }
  if 64 ≤ a.backlog.length then winEvent (setApart s pid { a1 with lost := satAdd 65535 a1.lost 1 }) pid 5 2
  else pollLog (setApart s pid { a1 with backlog := a.backlog ++ [rec] }) pid

/-- An operation or run ends with a verdict: its place, the counts of the kx-assay claim, the Ledger record of a failure, the
verdict record, and the signal of its Tally (R439 to R443). Its weights and contexts are gone with it (R393, R456). -/
def opEnd (s : State) (pid k : Nat) (o : AOp) (v : Verdict) : State :=
  let bs := o.allBlocks
  let counted := (bs.filter (fun b => decide (o.block b.1 b.2 = 1))).length
  let s1 := setPlace s pid k { op := none, verdict := v.code, valid := true, bandsE := o.bandsE, opno := o.opno }
  let a := apart s1 pid
  let a1 := { a with
    counts := smSet 0 a.counts v.code (smGet 0 a.counts v.code + 1)
    blocks := a.blocks + counted
    lostB := a.lostB + (bs.length - counted)
    faults := a.faults + b2n (decide (v.code = 6)) }
  let s2 := setApart s1 pid a1
  let s3 := if [1, 2, 3, 6].contains v.code then
      record s2 0x0052 pid 1 1 (o.opno + 65536 * v.code) (v.failmap % 2 ^ 32) (v.failmap / 2 ^ 32) else s2
  let s4 := logAppend s3 pid (verdictRecord s3 pid ((apart s3 pid).lseq + 1) o v counted (bs.length - counted))
  match o.tally with
  | some t => serviceDone s4 pid (some t) 5 0 false
  | none => s4

/-! ## What happens to operations from outside -/

/-- Each operation and run that holds a place, in order of PID and place. -/
def openOps (s : State) : List (Nat × Nat × AOp) :=
  s.asy.places.filterMap (fun c => c.2.op.map (fun o => (c.1 / 4, c.1 % 4, o)))
/-- The bytes 92 to 123 of a run's record: its program's digest (R467). -/
def progDigest (s : State) (pid handle : Nat) : List Byte :=
  match s.asy.progs.find? (fun p => decide (p.pid = pid ∧ p.handle = handle)) with
  | some p => p.digest.take 32
  | none => List.replicate 32 0
/-- A run's verdict: meter units, end cause, result words and digest in their places (R467). -/
def runVerdict (s : State) (pid : Nat) (o : AOp) (code gap : Nat) : Verdict :=
  let fail := decide (1 ≤ code ∧ code ≤ 3)
  let c := o.ctx
  { code := code, flags := 0, failmap := b2n fail, gapmap := b2n (decide (code = 4)),
    boundmap := match c with | some c => c.used | none => 0
    gap := gap
    bound := match c with | some c => c.cause | none => 0
    first := if fail ∨ code = 4 ∨ code = 5 then 0 else 0xFFFF
    dt := (List.range 4).flatMap (fun n => leBytes 8 (match c with
      | some c => (match smGet none c.words n with | some w => w.toNat | none => 0)
      | none => 0))
    tail := progDigest s pid o.handle }
/-- An operation or run ends ABORTED; `cause` is the end cause of a run. -/
def opAbort (s : State) (pid k : Nat) (o : AOp) (cause : Nat) : State :=
  let o1 := { o with closedAt := if o.stage = 0 then s.time else o.closedAt, ctx := o.ctx.map (fun c => { c with cause := cause }) }
  opEnd s pid k o1 (if o.isRun then runVerdict s pid o1 7 0 else plainVerdict 7)
/-- A commit took a region that holds a tensor away from the PID: ABORTED, with a record (Table 15-12). -/
def opsLoseRegions (s : State) : State :=
  (openOps s).foldl (fun t x => if tensorsOwned t x.1 x.2.2.tensors then t else opAbort t x.1 x.2.1 x.2.2 0) s
/-- Quench step 5: ABORTED without a record, and the resident programs are discarded (R444, R463). -/
def asyFlush (s : State) (pid : Nat) : State :=
  let s1 := [0, 1, 2, 3].foldl (fun t k => match opAt t pid k with
    | some o => setPlace t pid k { op := none, verdict := 7, valid := true, bandsE := o.bandsE, opno := o.opno }
    | none => t) s
  { s1 with asy := { s1.asy with progs := s1.asy.progs.filter (fun p => decide (p.pid ≠ pid)) } }

/-! ## Beats (R418 to R420, Table 15-7) -/

/-- The transition of one block: its new state, the cause when it becomes LOST, and whether it is fed. -/
def blockStep (out write own part dropped : Bool) (st : Nat) : Nat × Nat × Bool :=
  if st = 2 then (2, 0, false)
  else if dropped then (if write then (2, 2, false) else (st, 0, false))
  else if !out then
    if write then (2, 5, false)
    else if own && st = 0 then (1, 0, true)
    else (st, 0, false)
  else if !write then (st, 0, false)
  else if own && !part && st = 0 then (1, 0, true)
  else (2, 4, false)
/-- One tensor of an operation meets a beat. `room`: the units its pending area may take; a beat that finds it full is dropped. -/
def beatTensor (o : AOp) (m : Meta) (own dropped : Bool) (room : Nat) (port : Nat) (data : List Byte) (t : Nat × Tensor) : AOp :=
  if !t.2.touches m.block then o
  else
    let st := o.block t.1 m.block
    let f : Fed := { tensor := t.1, block := m.block, port := port, half := m.half, data := data }
    let full := (blockStep t.2.out m.write own m.part dropped st).2.2 && o.sampled && o.waits f && decide (room < o.pendUnits 1)
    let (n, cause, feed) := blockStep t.2.out m.write own m.part (dropped || full) st
    let o1 := { o with blocks := smSet 0 o.blocks (blockKey t.1 m.block) n }
    let o2 := if feed && o.sampled then (if o.isRun then { o1 with queue := o1.queue ++ [f] } else { o1 with fed := o1.fed ++ [f] }) else o1
    if n = 2 && st ≠ 2 then { o2 with gaps := o2.gaps ++ [(t.1, m.block, cause)],
                                      queue := o2.queue.filter (fun q => decide (q.tensor ≠ t.1 ∨ q.block ≠ m.block)) }
    else o2
/-- AUTOCLOSE: every block of C and of its scale tensor is COUNTED (R423). -/
def autoReady (o : AOp) : Bool :=
  let ts := o.tensors.filter (fun t => t.2.out)
  !ts.isEmpty && ts.all (fun t => t.2.blocks.all (fun b => decide (o.block t.1 b = 1)))
/-- A beat at one operation or run whose counting goes on. A sealed partition without slots has every matched beat dropped (R438), and
so has one whose buffer is full (R435). -/
def beatOp (m : Meta) (port : Nat) (data : List Byte) (absorbed : Bool) (s : State) (x : Nat × Nat × AOp) : State :=
  let (pid, k, o) := x
  if 2 ≤ o.stage then s
  else
    let own := tagPid m.tag = pid && tagGen m.tag = o.gen
    let dropped := !absorbed || (sealed s pid && (apart s pid).slots = 0) || bufferFull s pid
    let o1 := o.tensors.foldl (fun o t => beatTensor o m own dropped (pendRoom s pid o) port data t) o
    let o2 := if o1.stage = 0 && o1.autoC && autoReady o1 then { o1 with stage := 1, closedAt := s.time, byAuto := true } else o1
    if o2 = o then s else setOp s pid k o2
/-- A tap fault marks the operations whose tensors the port's checker governs (R410). -/
def markTapFault (checker : Nat) (s : State) (x : Nat × Nat × AOp) : State :=
  let (pid, k, o) := x
  if 2 ≤ o.stage || !(o.allBlocks.any (fun b => (blockCheckers s b.2).contains checker)) then s
  else setOp s pid k { o with tapFault := true }
/-- A discarded beat: the fault is counted and recorded, and the seventeenth within a second disables the port. -/
def tapFault (s : State) (port pseq : Nat) (t : Tap) (checker : Nat) : State :=
  let fs := t.faults.filter (fun f => decide (s.time < f + oneSecond)) ++ [s.time]
  let dis := decide (16 < fs.length)
  let s1 := setTap s port { t with faults := fs, disabled := dis }
  let s2 := fwEvent { s1 with asy := { s1.asy with tapFaults := satInc s1.asy.tapFaults } } (pgFw 0x11) 1
  let s3 := (openOps s2).foldl (markTapFault checker) (record s2 0x0050 0 1 0 port pseq)
  if dis then fwEvent (record s3 0x0051 0 1 0 port) (pgFw 0x11) 2 else s3
/-- A beat on a tap port that a checker is mapped to. -/
def tapBeat (s : State) (port : Nat) (data : BitVec 1024) (info : BitVec 128) (absorbed : Bool) : State :=
  let t := tapPort s port
  match t.checker with
  | none => s
  | some c =>
    if t.disabled then s
    else
      let m := metaOf info
      let seqOk := match t.pseq with | some q => decide (m.pseq = (q + 1) % 65536) | none => true
      let t1 := { t with pseq := some m.pseq }
      if m.crc ≠ tapCrc info data || !seqOk then tapFault s port m.pseq t1 c
      else (openOps s).foldl (beatOp m port (leBytes 128 data.toNat) absorbed) (setTap s port t1)
/-- TAP_BEAT: `absorbed` says that the Assay had the capacity to take the beat (R435). -/
def execTapBeat (port : BitVec 4) (data : BitVec 1024) (info : BitVec 128) (absorbed : Bool) (s : State) :
    Host.Outcome State Fault Refusal :=
  .next (if s.block = .boot || serving s then tapBeat s port.toNat data info absorbed else s)

/-! ## Commands of P_ASY (Tables 15-13, 15-14) -/

def asyResult (s : State) (pid r : Nat) : State := setApart s pid { apart s pid with result := r }
/-- An access to a register of P_ASY by HCP, in the window of the tag's PID. -/
def asyCmd (s : State) (src : Src) (off : Nat) (k : State → Nat → State) : State :=
  match src with
  | .fab _ => s
  | .hcp tag _ =>
    let p := tagPid tag
    if !tenant p then refuseForeign s src (winBase p + 0x5000 + off)
    else access s src (.win p 5 off) (winBase p + 0x5000 + off) true (fun s => respond (k s p) src .ok)
/-- The descriptor buffer. -/
def asyDesc (s : State) (pid : Nat) : List Byte := (List.range 128).flatMap (fun i => leBytes 4 (pReg s pid (0x5100 + 4 * i)).toNat)
/-- The free place that SUBMIT and RUN take: the lowest (log entry 44). -/
def freePlace (s : State) (pid : Nat) : Option Nat := [0, 1, 2, 3].find? (fun k => (opAt s pid k).isNone)
/-- The draw of R392 and R437: granted with weights and selection, or refused. -/
def asyDraw (s : State) (sample n : Nat) : Bool × Bool × State :=
  match drbgGrant s false with
  | none => (false, false, s)
  | some s1 => (true, decide ((freeNow s1).toNat % 2 ^ sample = 0), drew s1 (1 + n))
/-- An accepted operation or run takes its place; one that cannot be drawn for, or that has an untapped byte, ends at once. -/
def opOpen (s : State) (pid k : Nat) (o : AOp) (nw : Nat) : State :=
  let (ok, sel, s1) := asyDraw s (oSample o.desc) nw
  let a := apart s1 pid
  let o1 := { o with opno := a.opno, opened := s1.time, gen := genOf s1 pid, sampled := sel, noDraw := !ok,
                     wbase := s1.free - nw, untapped := !allTapped s1 o.tensors, closedAt := s1.time }
  let s2 := setApart s1 pid { a with result := 0, opno := (a.opno + 1) % 65536, lastOp := a.opno, accepted := a.accepted + 1 }
  if !ok then opAbort s2 pid k o1 7
  else if o1.untapped then
    opEnd s2 pid k o1 (if o1.isRun then runVerdict s2 pid o1 4 1 else gapVerdict o1.bandsE 1 0)
  else setOp s2 pid k o1
/-- The part of an operation that its descriptor gives. -/
def opOfDesc (d : List Byte) (run : Bool) : AOp :=
  { opno := 0, trig := oTrig d, tally := tallySlot (oTally d), kind := if run then 0x80 else oKind d, desc := d,
    bandsE := if run then 1 else bandsE d, gen := 0, cost := if run then runCost d else opCost d, opened := 0, closedAt := 0,
    stage := 0, autoC := decide (oFlags d % 2 = 1), byAuto := false, byAct := false, sampled := true, untapped := false,
    tapFault := false, noDraw := false, wbase := 0, blocks := [], gaps := [], fed := [], handle := if run then oBands d else 0,
    cls := if run then rClass d else 0, queue := [], ctx := none }
/-- SUBMIT: the checks of Table 15-6 in order. -/
def asySubmit (s : State) (pid : Nat) : State :=
  let d := asyDesc s pid
  match freePlace s pid with
  | none => asyResult s pid 1
  | some k =>
    if !opDescOk d then asyResult s pid 2
    else if !opDeclOk d then asyResult s pid 3
    else if !opLimitOk d then asyResult s pid 4
    else if !tensorsOwned s pid (opTensors d) then asyResult s pid 5
    else if (apart s pid).quota < scratchUsed s pid + opCost d then asyResult s pid 6
    else opOpen s pid k (opOfDesc d false) (2 * (uCount d + vCount d))
/-- CLOSE. -/
def asyClose (s : State) (pid : Nat) : State :=
  let trig := fld (pReg s pid 0x5044) 15 0
  if hasTrig s pid trig then closeTrig (asyResult s pid 0) pid trig false else asyResult s pid 7
/-- CANCEL: an open operation, or a run whose verdict is not final (Tables 15-12, 16-9). -/
def asyCancel (s : State) (pid : Nat) : State :=
  let k := fld (pReg s pid 0x5044) 17 16
  match opAt s pid k with
  | some o => if o.stage = 0 || o.isRun then opAbort (asyResult s pid 0) pid k o 8 else asyResult s pid 7
  | none => asyResult s pid 7
/-- LOG_REGISTER: the ring lies in one region that the partition owns (R440). -/
def logRegister (s : State) (pid : Nat) : State :=
  let a := apart s pid
  let base := pReg64 s pid 0x5060
  let slots := fld (pReg s pid 0x5068) 12 0
  if a.ringBusy then asyResult s pid 8
  else match (if base % 4096 = 0 ∧ [2, 4, 8, 16, 32, 64, 128, 256, 512, 1024, 2048, 4096].contains slots then
      ownedRegion s pid base (128 * slots) else none) with
    | none => asyResult s pid 5
    | some i => pushJob (setApart (if a.region = i then s else logLeaves s pid) pid { a with
        ringOn := false, ringBusy := true, base := base, size := slots, tally := fld (pReg s pid 0x5068) 26 16, region := i,
        result := 0 }) (.log pid i)
/-- LOG_RELEASE. -/
def logRelease (s : State) (pid : Nat) : State :=
  let a := apart s pid
  if a.ringBusy then asyResult s pid 8
  else if !a.ringOn then asyResult s pid 9
  else pushJob (setApart s pid { a with ringOn := false, ringBusy := true, result := 0 }) (.logRelease pid a.region)
/-- The commit of a registration or release has ended. -/
def logDone (s : State) (pid : Nat) (reg ok : Bool) : State :=
  let a := apart s pid
  if !a.ringBusy then s
  else if reg && ok then pollLog (setApart s pid { a with ringBusy := false, ringOn := true, prod := 0 }) pid
  else setApart s pid { a with ringBusy := false }

/-- SUBMIT. -/
def execAsySubmit (src : Src) (s : State) : Host.Outcome State Fault Refusal := .next (asyCmd s src 0x40 asySubmit)
/-- CLOSE. -/
def execAsyClose (src : Src) (s : State) : Host.Outcome State Fault Refusal := .next (asyCmd s src 0x40 asyClose)
/-- CANCEL. -/
def execAsyCancel (src : Src) (s : State) : Host.Outcome State Fault Refusal := .next (asyCmd s src 0x40 asyCancel)

/-! ## Counting, verdicts, slots -/

/-- COUNTING_WINDOW_END: 20 us after the close (R423). -/
def execCountingWindowEnd (pid : Byte) (place : BitVec 2) (s : State) : Host.Outcome State Fault Refusal :=
  .next (match opAt s pid.toNat place.toNat with
    | some o => if o.stage = 1 then setOp s pid.toNat place.toNat { o with stage := 2 } else s
    | none => s)
/-- The bands of an operation, judged. -/
def opBands (o : AOp) (rs : List Recheck) : List Band :=
  (List.range o.bandsE).map (fun b => judgeBand o.desc (weightsOf o.desc o.wbase) (feeds o.desc [] o.fed)
    (fun t blk => decide (o.block t blk = 1)) o.gaps rs b)
/-- A self-check disagreement over band `b`, on an array (R430, R443, R480): counted, recorded, L1. The third on one array within 1 s
starts the array's logic BIST, whose end ARRAY_BIST_DONE reports. -/
def disagreed (s : State) (pid : Nat) (o : AOp) (b array : Nat) : State :=
  let a := apart s pid
  let old := smGet [] s.tmp.disagree array
  let ts := (if 3 ≤ old.length then old else old.filter (fun t => decide (s.time < t + oneSecond))) ++ [s.time]
  let s1 := setApart s pid { a with disagree := a.disagree + 1 }
  let s2 := { s1 with asy := { s1.asy with disagree := satInc s1.asy.disagree },
                      tmp := { s1.tmp with disagree := smSet [] s1.tmp.disagree array ts } }
  escNote (fwEvent (record s2 0x0053 pid 2 1 o.opno b) (pgFw 0x11) 4) 1
/-- The disagreements of an operation's bands, in their order. -/
def disagreements (s : State) (pid : Nat) (o : AOp) (bs : List Band) : State :=
  ((List.range bs.length).zip bs).foldl (fun t x => x.2.dis.foldl (fun t a => disagreed t pid o x.1 a) t) s
/-- The verdict of an operation whose counting has ended (R428 to R434, R437). -/
def opJudge (s : State) (pid k : Nat) (o : AOp) (rs : List Recheck) : State :=
  if o.tapFault then opEnd s pid k o (plainVerdict 6)
  else if !o.sampled then opEnd s pid k o (gapVerdict o.bandsE 6 1)
  else opEnd (disagreements s pid o (opBands o rs)) pid k o (bandsVerdict (opBands o rs))
/-- ASSAY_VERDICT: an operation, or a run that R437 did not select (R465). -/
def assayVerdict (s : State) (pid k : Nat) (rs : List Recheck) : State :=
  match opAt s pid k with
  | none => s
  | some o =>
    if o.stage ≠ 2 then s
    else if !o.isRun then opJudge s pid k o rs
    else if o.sampled then s
    else opEnd s pid k o (if o.tapFault then runVerdict s pid o 6 0 else { runVerdict s pid o 4 6 with flags := 1 })
def execAssayVerdict (pid : Byte) (judged : Judged) (s : State) : Host.Outcome State Fault Refusal :=
  .next (assayVerdict s pid.toNat judged.place.toNat judged.faults)

/-- The slot frame (R541): sealed partitions in ascending order, contiguously from slot 0. -/
def slotFrame (s : State) : List Nat :=
  let l := (tenants.filter (sealed s)).flatMap (fun p => List.replicate (apart s p).slots p)
  (l ++ List.replicate 16 0).take 16
/-- SLOT_FRAME_BOUNDARY. -/
def execSlotFrameBoundary (s : State) : Host.Outcome State Fault Refusal :=
  .next (if serving s then { s with asy := { s.asy with frame := slotFrame s } } else s)

/-- Quotas and slots of every partition. -/
def quotaTotal (s : State) : Nat := listSum (tenants.map (fun p => (apart s p).quota))
def slotTotal (s : State) : Nat := listSum (tenants.map (fun p => (apart s p).slots))
/-- R417: 0 when every new value is permitted, else the result code of Table 8-7. -/
def quotaCheck (s : State) (es : List (Nat × Nat × Nat)) : Nat :=
  let t := es.foldl (fun u e => setApart u e.1 { apart u e.1 with slots := e.2.1, quota := e.2.2 }) s
  if es.any (fun e => !tenant e.1 || decide (16 < e.2.1) || (decide (0 < e.2.1) && !sealed s e.1)) then 6
  else if decide (1536 < quotaTotal t) || decide (16 < slotTotal t) || es.any (fun e => decide (e.2.2 < scratchHeld s e.1)) then 4
  else 0
def setQuotas (s : State) (es : List (Nat × Nat × Nat)) : State :=
  es.foldl (fun u e => setApart u e.1 { apart u e.1 with slots := e.2.1, quota := e.2.2 }) s
/-- ASF_QUOTA: performed only when R417 permits it, otherwise EACCESS (R540). -/
def execAsfQuotaWrite (w : Who) (value : Word) (s : State) : Host.Outcome State Fault Refusal :=
  .next (byCore s w (fun s =>
    let es := [(fld (reg s 0x11040) 7 0, fld value 28 24, fld value 11 0)]
    if quotaCheck s es = 0 then answer (setQuotas s es) .ok else answer s .eaccess))
/-- ASY_CONFIG (R417): all of the message or none. -/
def asyConfig (s : State) (c tag : Nat) (body : List Word) : State :=
  match body with
  | [] => replyError s c tag 2 0x0401
  | n :: ws =>
    if n.toNat ≠ ws.length then replyError s c tag 2 0x0401
    else
      let es := ws.map (fun w => (fld w 31 24, fld w 20 16, fld w 11 0))
      let r := quotaCheck s es
      replyCode (if r = 0 then setQuotas s es else s) c tag 0x0401 r
/-- ASY_CONFIG. -/
def execAsyConfig (ch : Chan) (tag : BitVec 6) (s : State) : Host.Outcome State Fault Refusal :=
  .next (withRequest s ch tag 0x0401 (fun s _ body => asyConfig s ch.num tag.toNat body))

end Sys2Proof.Machine
end

