-- ==== Sys2Proof/Machine/Prog.lean ====
section
/-! DEFINITION. Assay program objects: their layout, the checks of a load, the commands of P_ASY that load them, and RUN (R449, R461
to R465, R469). -/
namespace Sys2Proof.Machine

/-! ## Instructions (Tables 16-2, 16-3) -/

/-- The fields of an instruction. -/
structure PIns where
  op : Nat
  rd : Nat
  ra : Nat
  rb : Nat
  pg : Nat
  pn : Bool
  ty : Nat
  imm : Nat
deriving DecidableEq, Repr

def insOf (w : Nat) : PIns :=
  { op := nfld w 63 56, rd := nfld w 55 50, ra := nfld w 49 44, rb := nfld w 43 38, pg := nfld w 37 35,
    pn := decide (nfld w 34 34 = 1), ty := nfld w 33 32, imm := nfld w 31 0 }
/-- IMM as a signed number. -/
def PIns.simm (i : PIns) : Int := signedBits 32 i.imm

/-- The class of a register operand: none, scalar, vector, predicate, tile, a scalar b or a vector b. -/
inductive RCls where
  | none | s | v | p | t | bs | bv
deriving DecidableEq, Repr
/-- What an immediate may hold: nothing, a field of some bits, a signed word, a branch offset, a tile floor, a DEC selector. -/
inductive ICls where
  | none | bits (n : Nat) | word | branch | floor | dec
deriving DecidableEq, Repr
/-- The lane types an opcode takes: none, either, I32 alone, F32 alone. -/
inductive TCls where
  | none | both | i32 | f32
deriving DecidableEq, Repr
/-- A row of Table 16-3: destination, sources, immediate, lane type, cost. -/
structure OpRow where
  rd : RCls
  ra : RCls
  rb : RCls
  imm : ICls
  ty : TCls
  cost : Nat
deriving DecidableEq, Repr

/-- Table 16-3. -/
def opRow (op : Nat) : Option OpRow :=
  let row (rd ra rb : RCls) (imm : ICls) (ty : TCls) (cost : Nat) : Option OpRow := some ⟨rd, ra, rb, imm, ty, cost⟩
  match op with
  | 0x00 | 0x01 | 0x04 | 0x0A => row .none .none .none .none .none 1
  | 0x02 | 0x03 => row .none .none .none .branch .none 1
  | 0x05 => row .none .s .none .branch .none 1
  | 0x06 => row .none .none .none (.bits 3) .none 1
  | 0x07 => row .s .none .none (.bits 2) .none 1
  | 0x08 => row .s .none .none (.bits 3) .none 1
  | 0x09 => row .s .none .none .none .none 1
  | 0x10 | 0x11 | 0x12 | 0x13 | 0x14 | 0x15 | 0x16 | 0x17 | 0x18 | 0x19 | 0x1A => row .s .s .bs .none .none 1
  | 0x1B => row .s .none .bs .none .none 1
  | 0x1C | 0x1D | 0x1E => row .p .s .bs .none .none 1
  | 0x1F => row .s .none .none .word .none 1
  | 0x20 | 0x21 => row .s .s .none .word .none 1
  | 0x22 | 0x23 | 0x24 => row .v .s .none .word .none 2
  | 0x25 => row .v .none .none .none .none 2
  | 0x30 | 0x31 | 0x32 | 0x34 | 0x35 => row .v .v .bv .none .both 1
  | 0x33 => row .v .v .bv .none .f32 1
  | 0x36 | 0x37 => row .v .v .none .none .both 1
  | 0x38 | 0x39 | 0x3A | 0x3B | 0x3C => row .v .v .bv .none .i32 1
  | 0x3D => row .v .v .none .none .both 1
  | 0x3E => row .v .none .bv .none .none 1
  | 0x3F => row .v .none .none .word .none 1
  | 0x40 | 0x41 | 0x42 => row .p .v .bv .none .both 1
  | 0x43 | 0x44 => row .v .v .none .none .f32 4
  | 0x45 => row .v .v .none .dec .none 2
  | 0x46 => row .v .v .v .none .none 1
  | 0x47 => row .s .v .none .none .i32 2
  | 0x48 | 0x49 => row .p .p .p .none .none 1
  | 0x4A => row .p .p .none .none .none 1
  | 0x50 | 0x54 => row .t .none .none .none .none (if op = 0x50 then 2 else 8)
  | 0x51 => row .t .none .none .floor .none 2
  | 0x52 => row .t .v .v .none .i32 4
  | 0x53 => row .t .v .none (.bits 8) .both 2
  | 0x55 => row .s .t .none (.bits 16) .none 1
  | 0x56 => row .s .t .none (.bits 8) .none 1
  | 0x57 | 0x58 => row .t .t .none .none .none 4
  | 0x59 => row .t .v .v (.bits 8) .i32 2
  | 0x60 | 0x61 => row .v .none .none .none .none 4
  | _ => none

/-- A register number is valid for its class; an unused field is 0. -/
def regOk (c : RCls) (n : Nat) (dest : Bool) : Bool :=
  match c with
  | .none => decide (n = 0)
  | .s => decide (n < 16)
  | .v => decide (n < 32)
  | .p => decide (n < 8) && !(dest && decide (n = 0))
  | .t => decide (n < 8)
  | .bs => decide (n < 16) || decide (n = 63)
  | .bv => decide (n < 48) || decide (n = 63)
/-- An immediate is valid for its class at address `pc` of `len` instructions; b may take it (RB 63). -/
def immOk (r : OpRow) (i : PIns) (pc len : Nat) : Bool :=
  match r.imm with
  | .none => decide (i.imm = 0) || ((r.rb = .bs || r.rb = .bv) && decide (i.rb = 63))
  | .bits n => decide (i.imm < 2 ^ n)
  | .word => true
  | .branch => decide (0 ≤ (pc : Int) + i.simm ∧ (pc : Int) + i.simm < len)
  | .floor => decide (-256 ≤ i.simm ∧ i.simm ≤ 255)
  | .dec => decide (i.imm < 2 ^ 24) && decFmt (i.imm % 256)
/-- Check 4 of the load checks for one instruction. -/
def insOk (i : PIns) (pc len : Nat) : Bool :=
  match opRow i.op with
  | none => false
  | some r =>
    regOk r.rd i.rd true && regOk r.ra i.ra false && regOk r.rb i.rb false && immOk r i pc len &&
    (match r.ty with | .none | .i32 => decide (i.ty = 0) | .both => decide (i.ty ≤ 1) | .f32 => decide (i.ty = 1))

/-! ## Program objects (Table 16-6) -/

def objWords (o : List Byte) : Nat := le o 0x08 2
def objEntry (o : List Byte) (n : Nat) : Nat := le o (0x0A + 2 * n) 2
def objIns (o : List Byte) (pc : Nat) : PIns := insOf (le o (0x40 + 8 * pc) 8)
/-- Check 2. -/
def objFormatOk (o : List Byte) : Bool :=
  decide (64 ≤ o.length ∧ o.length = 64 + 8 * objWords o ∧ 1 ≤ objWords o ∧ objWords o ≤ 2040) &&
  decide (le o 0 4 = 0x5041584B ∧ le o 4 1 = 1 ∧ le o 5 1 = 0 ∧ le o 7 1 = 0 ∧ le o 0x20 28 = 0) &&
  decide ((crc32c (slice o 0 60 ++ o.drop 64)).toNat = le o 0x3C 4)
/-- Check 3. -/
def objEntryOk (o : List Byte) : Bool :=
  let e := objEntry o
  let w := objWords o
  decide (le o 6 1 = 0) && (decide (e 0 < w) || decide (e 0 = 0xFFFF)) && (decide (e 1 < w) || decide (e 1 = 0xFFFF)) &&
  decide (e 2 < w) && decide (1 ≤ le o 0x14 4 ∧ le o 0x14 4 ≤ 2 ^ 24)
/-- Check 4: the first instruction that fails. -/
def objBad (o : List Byte) : Option Nat := (List.range (objWords o)).find? (fun pc => !insOk (objIns o pc) pc (objWords o))

/-! ## Loading (R462, R463, R469) -/

/-- The program of a handle. -/
def progOf (s : State) (pid handle : Nat) : Option Prog :=
  s.asy.progs.find? (fun p => decide (p.pid = pid ∧ p.handle = handle))
def prgResult (s : State) (pid r : Nat) : State := setApart s pid { apart s pid with prgRes := r }
/-- Open or closing runs of a handle. -/
def runsOf (s : State) (pid handle : Nat) : Nat :=
  ([0, 1, 2, 3].filter (fun k => match opAt s pid k with
    | some o => o.isRun && decide (o.handle = handle)
    | none => false)).length
/-- OPEN. -/
def prgOpen (s : State) (pid : Nat) : State := setApart s pid { apart s pid with loadBuf := [], prgRes := 0 }
/-- The free handle that a load takes: the lowest. -/
def freeHandle (s : State) (pid : Nat) : Option Nat := [0, 1, 2, 3].find? (fun h => (progOf s pid h).isNone)
/-- LOAD: the load checks in order; LOADED is set when the command ends. -/
def prgLoad (s : State) (pid : Nat) : State :=
  let a := apart s pid
  let o := a.loadBuf
  let fin (t : State) : State := winEvent t pid 5 4
  match freeHandle s pid with
  | none => fin (prgResult s pid 5)
  | some h =>
    if !objFormatOk o then fin (prgResult s pid 1)
    else if !objEntryOk o then fin (prgResult s pid 2)
    else match objBad o with
      | some n => fin (setApart s pid { a with prgRes := 3, badIndex := n })
      | none =>
        if 32 ≤ s.asy.progs.length then fin (prgResult s pid 4)
        else
          let p : Prog := { pid := pid, handle := h, obj := o, digest := sha384 o }
          let s1 := setApart s pid { a with prgRes := 0, prgHandle := h, loadBuf := [] }
          fin { s1 with asy := { s1.asy with progs := s1.asy.progs ++ [p] } }
/-- UNLOAD. -/
def prgUnload (s : State) (pid : Nat) : State :=
  let h := fld (pReg s pid 0x5304) 1 0
  if (progOf s pid h).isNone then prgResult s pid 7
  else if 0 < runsOf s pid h then prgResult s pid 6
  else
    let s1 := prgResult s pid 0
    { s1 with asy := { s1.asy with progs := s1.asy.progs.filter (fun p => decide (p.pid ≠ pid ∨ p.handle ≠ h)) } }
/-- INFO loads PRG_INFO and PRG_DIGEST. -/
def prgInfo (s : State) (pid : Nat) : State :=
  let h := fld (pReg s pid 0x5304) 1 0
  match progOf s pid h with
  | none => setApart s pid { apart s pid with prgRes := 7, info := 0, infoDig := [] }
  | some p => setApart s pid { apart s pid with
      prgRes := 0, info := 2 ^ 31 + runsOf s pid h * 2 ^ 24 + objWords p.obj, infoDig := p.digest }
/-- A write to PRG_WINDOW appends its bytes (R462). -/
def prgAppend (s : State) (src : Src) (pid : Nat) (bytes : List Byte) : State :=
  let a := apart s pid
  if 16384 < a.loadBuf.length + bytes.length then refuse s src (.win pid 5 0x400) (winBase pid + 0x5400) .efull
  else respond (setApart s pid { a with loadBuf := a.loadBuf ++ bytes }) src .ok

def execPrgOpen (src : Src) (s : State) : Host.Outcome State Fault Refusal := .next (asyCmd s src 0x300 prgOpen)
def execPrgLoad (src : Src) (s : State) : Host.Outcome State Fault Refusal := .next (asyCmd s src 0x300 prgLoad)
def execPrgUnload (src : Src) (s : State) : Host.Outcome State Fault Refusal := .next (asyCmd s src 0x300 prgUnload)
def execPrgInfo (src : Src) (s : State) : Host.Outcome State Fault Refusal := .next (asyCmd s src 0x300 prgInfo)
/-- A write to PRG_WINDOW. -/
def execPrgWindowWrite (src : Src) (bytes : List Byte) (s : State) : Host.Outcome State Fault Refusal :=
  .next (match src with
  | .fab _ => s
  | .hcp tag _ =>
    let p := tagPid tag
    if !tenant p then refuseForeign s src (winBase p + 0x5400)
    else access s src (.win p 5 0x400) (winBase p + 0x5400) true (fun s => prgAppend s src p bytes))

/-! ## RUN (R448, R464, R465) -/

/-- The context at the start of INIT: local memory bytes 0 to 127 hold PARAM (Table 16-1). -/
def ctxStart (d : List Byte) : Ctx :=
  let lm := ((List.range 128).zip (slice d 0x20 128)).foldl (fun m b => smSet 0 m b.1 b.2) ([] : SMap Byte)
  { v := [], s := [], p := [], t := [], floor := [], flags := 0, stack := [], lm := lm, lmSize := rLm d, handler := 0,
    initDone := false, pc := 0, cur := none, presented := 0, fuel := rFuel d, used := 0, hUsed := 0, verdict := none, words := [],
    cause := 0 }
/-- RUN: the checks of Table 15-6 with the changes of R465. The handle is looked up first, since LM_MIN of its program bounds
LM_SIZE; a handle that is not resident fails check 3 alone. -/
def asyRun (s : State) (pid : Nat) : State :=
  let d := asyDesc s pid
  match freePlace s pid with
  | none => asyResult s pid 1
  | some k =>
    let prog := progOf s pid (oBands d)
    let lmMin := match prog with | some p => le p.obj 0x10 4 | none => 0
    if oKind d ≠ 0x80 || !runDescOk d lmMin then asyResult s pid 2
    else if prog.isNone then asyResult s pid 10
    else if !runLimitOk d then asyResult s pid 4
    else if !tensorsOwned s pid (runTensors d) then asyResult s pid 5
    else if (apart s pid).quota < scratchUsed s pid + runCost d then asyResult s pid 6
    else opOpen s pid k { opOfDesc d true with ctx := some (ctxStart d) } 0
def execAsyRun (src : Src) (s : State) : Host.Outcome State Fault Refusal := .next (asyCmd s src 0x40 asyRun)

end Sys2Proof.Machine
end

