-- ==== Sys2Proof/Machine/Keys.lean ====
section
/-! DEFINITION. Keys sealed for deep sleep (R178, R179, R503), and keys delivered to agents over CPB (R183 to R187). -/
namespace Sys2Proof.Machine

/-! ## Sealing -/

/-- A slot wrapped as item `n`: the attribute semiblock and the key material. -/
def sealSlot (s : State) (n : Nat) (v : Slot) : List Byte := kwWrap (sealKey s n) (beBytes 8 v.attr.toNat ++ keyBytes v)
/-- The attributes and key material of item `n`, where the KW integrity value and R164 hold. -/
def unsealSlot (s : State) (n : Nat) (blob : List Byte) : Option (Word × List Byte) :=
  match kwUnwrap (sealKey s n) blob with
  | none => none
  | some pt =>
    let a := w32 (beVal (slice pt 4 4))
    if attrBad a || decide (pt.length ≠ 8 + lenBytes (fld a 29 28)) then none else some (a, pt.drop 8)

/-! ## Delivery -/

def bootCount (s : State) (a : Nat) : Nat := smGet 0 s.sbox.bootCnt a
/-- The wrap key of an agent at its current bootstrap count (R183). -/
def wrapKey (s : State) (a : Nat) : List Byte :=
  kdf (keyBytes (slotOf s 2)) "CPB-WRAP" (kdfContext s 0x22 0 (a + 65536 * bootCount s a)) 256
/-- The bootstrap key of an agent (R187). -/
def bootstrapKey (a : Nat) : List Byte := leBytes 2 a ++ List.replicate 30 0

/-- A KEY descriptor (Table 6-14). -/
structure KeyDesc where
  type  : Nat
  index : Nat
  pid   : Nat
  gen   : Nat
  dir   : Nat
  keyId : Nat
/-- CHUNKS for each TYPE. -/
def chunksOf (type : Nat) : Nat := match type with | 1 | 2 => 7 | 3 => 12 | _ => 0
/-- The descriptor's payload. -/
def KeyDesc.payload (d : KeyDesc) : BitVec 56 :=
  BitVec.ofNat 56 (d.type * 2 ^ 52 + chunksOf d.type * 2 ^ 48 + (d.index % 256) * 2 ^ 40 + (d.pid % 256) * 2 ^ 32 +
    (d.gen % 64) * 2 ^ 26 + (d.dir % 4) * 2 ^ 24 + d.keyId % 2 ^ 24)
/-- The chunk payloads of a wrapped key (R184). -/
def keyChunks (d : KeyDesc) (kek key : List Byte) : List (BitVec 56) :=
  let out := kwWrap kek (beBytes 7 d.payload.toNat ++ [0] ++ key)
  (List.range (chunksOf d.type)).map (fun i => BitVec.ofNat 56 (beVal (slice out (7 * i) 7)))

/-- Sends a delivery: the descriptor, then its chunks. Nothing else goes to the agent in between, since its frames keep their
order (R49, R186). -/
def keySend (s : State) (a : Nat) (d : KeyDesc) (kek key : List Byte) : State :=
  if !addressable s a then s
  else
    let pays := d.payload :: (if d.type = 0 then [] else keyChunks d kek key)
    pays.foldl (fun t p => cpbSend t { agent := a, op := 0x0A, payload := p, use := .key a })
      (setAgent s a { agent s a with delivering := true })

/-- WRAP_SET under the bootstrap key, after the bootstrap count has advanced; without slot 2 there is no wrap key. -/
def wrapSet (s : State) (a : Nat) : State :=
  if slotEmpty s 2 then s
  else
    let s1 := { s with sbox := { s.sbox with bootCnt := smSet 0 s.sbox.bootCnt a (bootCount s a + 1) } }
    keySend (setAgent s1 a { agent s1 a with kekValid := false }) a
      { type := 1, index := 0, pid := 0, gen := 0, dir := 0, keyId := 0 } (bootstrapKey a) (wrapKey s1 a)
/-- WRAP_SET to each agent of kinds 4, 5 and 8 in a list (R187). -/
def wrapSets (s : State) (as : List Nat) : State :=
  as.foldl (fun t a => if [4, 5, 8].contains (agent t a).kind then wrapSet t a else t) s

/-- Delivers the key in a Strongbox slot to an agent's index: PID and GEN come from the slot (R184). -/
def keyDeliverFrames (s : State) (k : DKey) : State :=
  let v := slotOf s k.slot
  if keyCarried s k.slot then
    keySend s k.agent { type := if v.len = 0 then 2 else 3, index := k.index, pid := v.pid, gen := v.gen, dir := k.dir,
                        keyId := k.keyId } (wrapKey s k.agent) (keyBytes v)
  else s
/-- ERASE of an agent's index. -/
def keyErase (s : State) (a index keyId : Nat) : State :=
  keySend s a { type := 0, index := index, pid := 0, gen := 0, dir := 0, keyId := keyId } [] []

/-- The keys that the current version references at an agent: in force, or until the commit that removes them. -/
def keysAt (s : State) (a : Nat) : List DKey := s.att.keys.filter (fun k => decide (k.agent = a ∧ (k.phase = 2 ∨ k.phase = 3)))
/-- Whether the agent's active table references an index (R186). -/
def indexUsed (s : State) (a i : Nat) : Bool := (keysAt s a).any (fun k => decide (k.index = i))
def setKeys (s : State) (ks : List DKey) : State := { s with att := { s.att with keys := ks } }
/-- The keys of some purpose are erased at their agents and forgotten. -/
def dropKeys (s : State) (q : DKey → Bool) : State :=
  let ks := s.att.keys.filter q
  let s1 := ks.foldl (fun t k => eraseSlot (keyErase t k.agent k.index k.keyId) k.slot) s
  setKeys s1 (s1.att.keys.filter (fun k => !q k))
/-- WRAP_SET and then the referenced keys, for agents that have just left reset (Table 11-7 step 4). -/
def rekeyAgents (s : State) (as : List Nat) : State :=
  as.foldl (fun t a => (keysAt t a).foldl keyDeliverFrames t) (wrapSets s as)

/-- After a NAK to a descriptor its chunks are not sent (R185). -/
def dropChunks (s : State) (a n : Nat) : State :=
  let go := s.cpb.waiting.foldl (fun (acc : List Frame × Nat) f =>
    if f.use = .key a && decide (0 < acc.2) then (acc.1, acc.2 - 1) else (acc.1 ++ [f], acc.2)) ([], n)
  { s with cpb := { s.cpb with waiting := go.1 } }

/-- No KEY frame for an agent is left: its delivery has ended, and the first one since its reset has set its wrap key. -/
def keyDone (s : State) (a : Nat) (ok : Bool) : State :=
  if cpbIdle s (.key a) then
    setAgent s a { agent s a with delivering := false, kekValid := (agent s a).kekValid || ok }
  else s
/-- No KEY frame is on the bus or waits for the agents of a list. -/
def keysIdle (s : State) (as : List Nat) : Bool := as.all (fun a => cpbIdle s (.key a))

end Sys2Proof.Machine
end

