-- ==== Sys2Proof/Machine/Power.lean ====
section
/-! DEFINITION. The handshake with the hub power controller, and the domain sequences: reset, power off and on (R61, R68, R69,
R319 to R321, R498, R499). -/
namespace Sys2Proof.Machine

/-! ## The four-phase handshake (R69) -/

/-- Puts the oldest request on the pins when none is there. -/
def pwrPoll (s : State) : State :=
  if s.pwr.asked then s
  else match s.pwr.queue with
    | [] => s
    | r :: _ =>
      let pw := { s.pwr with asked := true, domReq := if r.dom < 40 then smSet 0 s.pwr.domReq r.dom r.state else s.pwr.domReq }
      { s with pwr := pw, pins := { s.pins with pwrReq := true, pwrDom := BitVec.ofNat 6 r.dom, pwrState := BitVec.ofNat 2 r.state } }
/-- Queues a request. -/
def pwrAsk (s : State) (dom state : Nat) : State :=
  pwrPoll { s with pwr := { s.pwr with queue := s.pwr.queue ++ [{ dom := dom, state := state }] } }

/-! ## Domain sequences (Table 11-7) -/

def domSet (s : State) (q : DomSeq) (step : Nat) : State :=
  { s with pwr := { s.pwr with doms := s.pwr.doms.map (fun x => if x = q then { q with step := step } else x) } }
def domDrop (s : State) (q : DomSeq) : State := { s with pwr := { s.pwr with doms := s.pwr.doms.filter (fun x => x ≠ q) } }
def domStart (s : State) (d : Nat) (why : DomWhy) : State :=
  { s with pwr := { s.pwr with doms := s.pwr.doms ++ [{ dom := d, why := why, step := 0 }] } }
/-- Whether a sequence runs for a Quench. -/
def DomWhy.quenchPid : DomWhy → Option Nat
  | .quench p => some p
  | _ => none
/-- The power state a sequence asks for, and whether it ends there. -/
def DomWhy.state : DomWhy → Option Nat
  | .power st _ _ _ => some st
  | .powerFw st => some st
  | _ => none
/-- A Quench performs each step for all of its domains together (R321). -/
def domTogether (s : State) (q : DomSeq) : Bool :=
  match q.why.quenchPid with
  | some _ => s.pwr.doms.all (fun x => decide (x.why ≠ q.why ∨ q.step ≤ x.step))
  | none => true
/-- Another sequence of the same domain goes first (R330). -/
def domTurn (s : State) (q : DomSeq) : Bool :=
  match s.pwr.doms.find? (fun x => decide (x.dom = q.dom)) with
  | some x => x = q
  | none => false

/-- A domain is reset or has lost power: its agents lose tables, keys and SEQ (R61, R551). -/
def domLost (s : State) (d : Nat) : State :=
  (domainAgents s d).foldl (fun t a => let t1 := clearTables (cpbResetSeq t a) a; setAgent t1 a { agent t1 a with kekValid := false }) s
/-- Agents of a domain whose reset has completed step 5 are no longer marked faulted (R543). -/
def domHeal (s : State) (d : Nat) : State :=
  let as := (domainAgents s d).filter (fun a => (agent s a).faulted)
  if as.isEmpty then s
  else
    let s1 := as.foldl (fun t a => setAgent t a { agent t a with faulted := false, cause := 0 }) s
    topEvent { s1 with part := { s1.part with withheld := s1.part.withheld.filter (fun a => !as.contains a) } } 4

/-- The roots of every partition bound to a translation unit of the domain (R288). -/
def domRoots (s : State) (d : Nat) : State :=
  let us := (domainAgents s d).filter (fun a => decide ((agent s a).kind = 3))
  if us.isEmpty then s
  else s.part.active.pids.foldl (fun t p => sendRoots t p ((xlUnits t p).filter us.contains)) s

/-- The end of a sequence: its requester's answer. -/
def domEnd (s : State) (q : DomSeq) (ok : Bool) : State :=
  let s1 := domDrop s q
  match q.why with
  | .reset ch tag _ => replyCode s1 ch tag 0x0308 (if ok then 0 else 11)
  | .power _ ch tag _ => replyCode s1 ch tag 0x0603 (if ok then 0 else 11)
  | .powerFw _ => { s1 with pwr := { s1.pwr with result := 0, busy := false } }
  | .quench _ | .recover => s1
/-- A domain's agents hold a version again: healed where step 5 completed, and with their roots, which a rollback's COMMIT calls for
as well (R288, R320). -/
def domBack (s : State) (d : Nat) (ok : Bool) : State :=
  if ok then domRoots (domHeal s d) d else if s.epoch.rolledBack then domRoots s d else s
/-- The commit of step 5 has ended for these domains. -/
def domCommitted (s : State) (ds : List Nat) (ok : Bool) : State :=
  (s.pwr.doms.filter (fun q => decide (q.step = 5) && ds.contains q.dom)).foldl (fun t q => domEnd (domBack t q.dom ok) q ok) s

/-- One step of a domain sequence, when what it waits for has come. -/
def domStep (s : State) (q : DomSeq) : State :=
  let as := (domainAgents s q.dom).filter (fun a => (agent s a).present)
  match q.step with
  | 0 =>
    if s.epoch.window || !domTurn s q || (q.why = .recover && decide (s.pwr.phase ≠ 0)) then s
    else if q.why.state = some 1 then pwrAsk (domSet s q 6) q.dom 1
    else if q.why = .recover then domSet s q 3
    else cpbSendAll (domSet s q 1) (as.filter (addressable s)) 0x0B (payPid 0xFF 0) (.domain q.dom 1)
  | 1 =>
    if !cpbIdle s (.domain q.dom 1) || !domTogether s q then s
    else
      let s1 := domLost (setHubRst s q.dom false) q.dom
      match q.why.state with
      | some st => pwrAsk (domSet s1 q 6) q.dom st
      | none => domSet s1 q 2
  | 2 => if domTogether s q then domSet s q 3 else s
  | 3 =>
    if !s.pins.pdStatus.getLsbD q.dom then s
    else
      let s1 := domSet (setHubRst s q.dom true) q 4
      rekeyAgents s1 (as.filter (addressable s1))
  | 4 =>
    if !keysIdle s as || !domTogether s q then s
    else match q.why with
      | .quench _ => s
      | _ => pushJob (domSet s q 5) (.domain [q.dom])
  | _ => s
/-- One step of every domain sequence. -/
def pollDoms (s : State) : State := s.pwr.doms.foldl domStep s

/-- A request of the handshake has been acknowledged in full. -/
def pwrAnswered (s : State) (r : PwrReq) : State :=
  match s.pwr.doms.find? (fun q => decide (q.dom = r.dom ∧ q.step = 6)) with
  | some q => if r.state = 1 then domSet s q 3 else domEnd s q true
  | none => s

/-! ## Power status (R61, R68) -/

/-- PD_STATUS[d] falls: HUB_RST_N[d] is driven to 0 and the agents count as reset. A sequence that had released the domain goes back to
step 3, so that steps 3 to 5 release it again (R61). -/
def pdFall (s : State) (d : Nat) : State :=
  let s1 := { s with
    pins := { s.pins with pdStatus := s.pins.pdStatus &&& ~~~ BitVec.ofNat 40 (2 ^ d) },
    pwr := { s.pwr with doms := s.pwr.doms.map (fun q => if q.dom = d ∧ (q.step = 4 ∨ q.step = 5) then { q with step := 3 } else q) } }
  domLost (setHubRst s1 d false) d
/-- PD_STATUS[d] rises: a domain that lost its power is released by steps 3 to 5; during a sleep entry they wait for its end. -/
def pdRise (s : State) (d : Nat) : State :=
  let s1 := { s with pins := { s.pins with pdStatus := s.pins.pdStatus ||| BitVec.ofNat 40 (2 ^ d) } }
  if serving s && !s.pins.pdStatus.getLsbD d && !s.pins.hubRstN.getLsbD d && !s.pwr.doms.any (fun q => decide (q.dom = d)) then domStart s1 d .recover
  else s1
/-- The 100 ms of step 3 pass without PD_STATUS: the agents are marked faulted, and the sequence goes on without them. -/
def domPowerTimeout (s : State) (d : Nat) : State :=
  match s.pwr.doms.find? (fun q => decide (q.dom = d ∧ q.step = 3)) with
  | some q =>
    if s.pins.pdStatus.getLsbD d then s
    else
      let as := (domainAgents s d).filter (fun a => (agent s a).present)
      domSet (as.foldl (fun t a => markFaulted t a 4) s) q 4
  | none => s

/-! ## Requests (R320, R498) -/

/-- A tenant's own domain. -/
def ownsDomain (s : State) (pid d : Nat) : Bool := decide (s.part.active.pResets pid / 2 ^ d % 2 = 1)
/-- A domain that no tenant owns. -/
def hubDomain (s : State) (d : Nat) : Bool := s.part.active.pids.all (fun p => !ownsDomain s p d)

/-- DOMAIN_RESET (R320); a domain without power is answered DOWN (R375). -/
def domainReset (s : State) (c tag cls : Nat) (body : List Word) : State :=
  let d := fld (body.headD 0) 5 0
  if body.length ≠ 1 then replyError s c tag 2 0x0308
  else if !operChan c && pstate s (chanPid c) = .quenching then replyCode s c tag 0x0308 1
  else if 40 ≤ d || (if operChan c then !hubDomain s d else (pstate s (chanPid c) ≠ .running || !ownsDomain s (chanPid c) d)) then
    replyCode s c tag 0x0308 6
  else if !s.pins.pdStatus.getLsbD d then replyError s c tag 6 0x0308
  else domStart s d (.reset c tag cls)

/-- DOMAIN_POWER and its firmware form: the code that refuses it, or 0 (R498). -/
def domainPowerCheck (s : State) (sender : Option Nat) (d st : Nat) : Nat :=
  let foreign : Bool := match sender with | some p => !ownsDomain s p d | none => false
  let idle : Bool := match sender with | some p => decide (pstate s p ≠ .running) | none => false
  if decide (40 ≤ d ∨ st = 3) || foreign then 6
  else if idle then 1
  else if s.epoch.window || !s.pwr.doms.isEmpty || decide (s.pwr.phase ≠ 0) then 8
  else 0
def domainPower (s : State) (c tag cls : Nat) (body : List Word) : State :=
  let w := body.headD 0
  if body.length ≠ 1 then replyError s c tag 2 0x0603
  else
    let r := domainPowerCheck s (if operChan c then none else some (chanPid c)) (fld w 5 0) (fld w 9 8)
    if r ≠ 0 then replyCode s c tag 0x0603 r
    else domStart s (fld w 5 0) (.power (fld w 9 8) c tag cls)
/-- PWR_CMD DOMAIN (Table 18-9). -/
def pwrDomain (s : State) (d st : Nat) : State :=
  let s := setReg s 0x14040 (putFld (putFld (reg s 0x14040) 12 7 d) 6 5 st)
  if s.pwr.busy then { s with pwr := { s.pwr with result := 3 } }
  else
    let r := domainPowerCheck s none d st
    if r = 6 then { s with pwr := { s.pwr with result := 2 } }
    else if r = 8 then { s with pwr := { s.pwr with result := 3 } }
    else domStart { s with pwr := { s.pwr with busy := true } } d (.powerFw st)

end Sys2Proof.Machine
end

