-- ==== Sys2Proof/Machine/Epoch.lean ====
section
/-! DEFINITION. The epoch sequencer: write lists, PREPARE, COMMIT and CLOSE, and the rollback (R271 to R276, R532 to R535). -/
namespace Sys2Proof.Machine

/-! ## Write lists (Table 20-10) -/

/-- One entry, or none when its kind or a reserved field is not permitted. -/
def readWEntry (s : State) (off : Nat) : Option WEntry :=
  let w0 := sramWord s off
  let w1 := sramWord s (off + 4)
  let w2 := sramWord s (off + 8)
  if 4 < fld w0 31 28 ∨ fld w0 27 20 ≠ 0 ∨ fld w0 15 10 ≠ 0 ∨ fld w1 31 20 ≠ 0 ∨ sramWord s (off + 12) ≠ 0 then none
  else some { kind := fld w0 31 28, sel := fld w0 19 16, agent := fld w0 9 0, index := fld w1 19 0, data := w2 }
/-- `n` entries from `off`. -/
def readWList (s : State) : Nat → Nat → Option (List WEntry)
  | 0, _ => some []
  | n + 1, off => match readWEntry s off, readWList s n (off + 16) with
    | some e, some es => some (e :: es)
    | _, _ => none
/-- Entries of one kind for an agent. -/
def wEntries (es : List WEntry) (kind a : Nat) : List WEntry := es.filter (fun e => decide (e.kind = kind ∧ e.agent = a))
/-- Every agent that is present and not faulted has exactly one CRC and one RB_CRC entry (R534); one whose domain is held or
without power counts as neither (R274). -/
def listCovers (s : State) (es : List WEntry) : Bool :=
  (s.cpb.agents.filter (fun c => c.2.present && !c.2.faulted && !agentHeld s c.1)).all (fun c =>
    decide ((wEntries es 1 c.1).length = 1 ∧ (wEntries es 3 c.1).length = 1))
/-- The list that EPOCH_LIST and EPOCH_LIST_LEN name, when it is well formed. -/
def epochList (s : State) : Option (List WEntry) :=
  let off := fld (reg s 0xA050) 21 4 * 16
  let n := fld (reg s 0xA054) 16 0
  if n = 0 ∨ 65536 < n ∨ !sramIn off (16 * n) then none
  else match readWList s n off with
    | some es => if listCovers s es then some es else none
    | none => none

/-! ## The run -/

def setEpoch (s : State) (e : Epoch) : State := { s with epoch := e }
/-- EPOCH_STAGED's fields. -/
def stagedValid (s : State) : Bool := bitOf (reg s 0xA044) 31
def stagedEp (s : State) : Bool := bitOf (reg s 0xA044) 16
def stagedVersion (s : State) : Nat := fld (reg s 0xA044) 15 0
/-- Whether EPOCH_STAGED may be prepared (R534). -/
def stageOk (s : State) : Bool :=
  stagedValid s && (!s.epoch.curValid || (decide (stagedVersion s ≠ s.epoch.curVersion) && stagedEp s != s.epoch.curEp))
/-- The agents a phase addresses: in the boot-layout commit the NIs of the boot directory, which no census has found yet
(R145, R274). -/
def epochAgents (s : State) : List Nat :=
  if s.block = .boot && s.boot.pos = .layout then
    (s.boot.dirAgents.filter (fun c => decide (c.2 = 1) && !agentHeld s c.1)).map (fun c => c.1)
  else liveAgents s
/-- Agents of one kind among those of the run that can still be addressed. -/
def epochKind (s : State) (k : Nat) : List Nat :=
  if s.block = .boot && s.boot.pos = .layout then (if k = 1 then epochAgents s else [])
  else (agentsOfKind s k).filter s.epoch.agents.contains

/-- Sends WRITE or RB_WRITE entries to the agents of a list. -/
def sendWrites (s : State) (kind : Nat) (as : List Nat) (use : CpbUse) : State :=
  s.epoch.list.foldl (fun t e =>
    if e.kind = kind && as.contains e.agent then
      cpbSend t { agent := e.agent, op := 2, payload := tblPay e.sel e.index e.data, use := use }
    else t) s
/-- Sends PREPARE with the CRC of each agent's entry. -/
def sendPrepare (s : State) (kind : Nat) (as : List Nat) (v : Nat) (ep : Bool) (use : CpbUse) : State :=
  as.foldl (fun t a =>
    let crc := match wEntries s.epoch.list kind a with | e :: _ => e.data | [] => 0
    cpbSend t { agent := a, op := 4, payload := versionPay v ep crc, use := use }) s
/-- COMMIT and CLOSE carry the version alone. -/
def sendVersion (s : State) (op : Nat) (as : List Nat) (v : Nat) (use : CpbUse) : State :=
  cpbSendAll s as op (BitVec.ofNat 56 (v * 2 ^ 40)) use

/-- Step 4 begins. -/
def epochBegin (s : State) (runAll : Bool) (es : List WEntry) : State :=
  let as := epochAgents s
  let s1 := setEpoch s { s.epoch with
    result := 0, running := true, runAll := runAll, phase := .writing, rolledBack := false, prepFailed := false,
    failOp := 0, failReason := 0, firstFail := 0, list := es, agents := as, acked := [], committed := [], kindStep := 0,
    rbPhase := 0, ended := false, resent := 0, addressed := as.length }
  sendWrites s1 0 as .epoch
/-- The first failing frame of a run. -/
def epochFail (s : State) (op reason a : Nat) : State :=
  if s.epoch.failOp ≠ 0 then s else setEpoch s { s.epoch with failOp := op, failReason := reason, firstFail := a }

/-- The end of a run: PHASE DONE, its event, and the window is over, so that the frames it barred go out (R273). -/
def epochDone (s : State) : State :=
  let e := s.epoch
  let s1 := setEpoch s { e with
    phase := .done, running := false, window := false, hmkWait := false, ended := true,
    time := if e.window then Nat.min 0xFFFFFFFF (s.time - e.started) else e.time }
  cpbPump (fwEvent s1 (pgFw 0xA) 1)
/-- R535: the banks are exchanged and EPOCH_CUR takes EPOCH_STAGED. -/
def epochExchange (s : State) : State :=
  epochDone { s with
    part := { s.part with active := s.part.staged, staged := s.part.active }
    epoch := { s.epoch with curValid := true, curEp := stagedEp s, curVersion := stagedVersion s } }

/-- Step 5 begins: PREPARE to the agents that have not acknowledged it. -/
def epochPrepareNow (s : State) : State :=
  let s1 := setEpoch s { s.epoch with
    phase := .preparing, window := true, hmkWait := false,
    started := if s.epoch.window then s.epoch.started else s.time }
  let as := s1.epoch.agents.filter (fun a => (epochAgents s1).contains a && !s1.epoch.acked.contains a)
  sendPrepare s1 1 as (stagedVersion s1) (stagedEp s1) .epoch
/-- Step 6 for one kind in the order of R274. -/
def epochCommitKind (s : State) : State :=
  let k := kindOrder.getD s.epoch.kindStep 0
  sendVersion (setEpoch s { s.epoch with kindStep := s.epoch.kindStep + 1 }) 5 (epochKind s k) (stagedVersion s) .epoch
/-- Step 6 begins. -/
def epochCommitNow (s : State) : State :=
  setEpoch s { s.epoch with phase := .committing, running := true, kindStep := 0, started := s.epoch.started }

/-- R276: the rollback begins with the rewriting of the shadows of agents that did not acknowledge COMMIT. -/
def rollbackNow (s : State) : State :=
  let s1 := cpbDropUse s .epoch
  let s2 := setEpoch s1 { s1.epoch with phase := .rollingBack, rolledBack := true, window := true, rbPhase := 0, kindStep := 0 }
  let s3 := record s2 0x0032 0 1 0 (stagedVersion s2) s2.epoch.firstFail
  sendWrites s3 2 ((epochAgents s3).filter (fun a => !s3.epoch.committed.contains a)) .rollback
/-- The phases of the rollback: writes (0), PREPARE (1), COMMIT by kind (2), CLOSE (3), FENCE (4). -/
def rollbackStep (s : State) : State :=
  let e := s.epoch
  match e.rbPhase with
  | 0 => sendPrepare (setEpoch s { e with rbPhase := 1 }) 3 (epochAgents s) e.curVersion e.curEp .rollback
  | 1 => setEpoch s { e with rbPhase := 2, kindStep := 0 }
  | 2 =>
    if e.kindStep < 8 then
      sendVersion (setEpoch s { e with kindStep := e.kindStep + 1 }) 5 (epochKind s (kindOrder.getD e.kindStep 0)) e.curVersion .rollback
    else sendVersion (setEpoch s { e with rbPhase := 3 }) 6 (epochAgents s) e.curVersion .rollback
  | 3 =>
    (e.list.filter (fun x => decide (x.kind = 4))).foldl (fun t x =>
      if addressable t x.agent then
        cpbSend t { agent := x.agent, op := 8, payload := fencePay (x.index % 8192) (fld x.data 5 0), use := .rollback }
      else t) (setEpoch s { e with rbPhase := 4 })
  | _ => epochDone s

/-- Whether the first PREPARE may go out: no Hallmark place is ASSEMBLING (R526), and no GEN_SET or FENCE awaits its reply
(Table 20-27). -/
def prepareClear (s : State) : Bool :=
  !hmkAssembling s && !s.cpb.flights.any (fun f => f.frame.op = 7 || f.frame.op = 8)

/-- An agent of the run has been marked faulted by a frame that was not the sequencer's. -/
def runFaulted (s : State) : Option Nat := s.epoch.agents.find? (fun a => (agent s a).faulted && !recovering s a)
/-- One step of the sequencer, when what it waits for has come. -/
def pollEpoch (s : State) : State :=
  let e := s.epoch
  match e.phase with
  | .writing =>
    if !cpbIdle s .epoch then s
    else if e.window || prepareClear s then epochPrepareNow s
    else setEpoch s { e with hmkWait := hmkAssembling s }
  | .preparing =>
    if !cpbIdle s .epoch then s
    else if e.failOp ≠ 0 then fwEvent (setEpoch s { e with phase := .prepareHalt, running := false }) (pgFw 0xA) 2
    else if e.runAll then epochCommitNow s
    else setEpoch s { e with phase := .prepared, running := false }
  | .committing =>
    if e.failOp ≠ 0 then rollbackNow s
    else if (runFaulted s).isSome then rollbackNow (epochFail s 5 0xF ((runFaulted s).getD 0))
    else if !cpbIdle s .epoch then s
    else if e.kindStep < 8 then epochCommitKind s
    else sendVersion (setEpoch s { e with phase := .closing }) 6 (e.agents.filter (epochAgents s).contains) (stagedVersion s) .epoch
  | .closing =>
    if !cpbIdle s .epoch then s
    else if e.prepFailed then epochDone s
    else epochExchange s
  | .rollingBack => if cpbIdle s .rollback then rollbackStep s else s
  | _ => s

/-! ## Replies -/

/-- A reply to a frame of the sequencer: ACK, or NAK with its reason. A NAK in a rollback marks its agent faulted (R276 step 5). -/
def epochReply (s : State) (f : Frame) (ack : Bool) (reason : Nat) : State :=
  let e := s.epoch
  if f.use = .rollback then
    (if !ack then withhold (markFaulted s f.agent 3) f.agent else if f.op = 5 then exchangeTables s f.agent else s)
  else if !ack then (if f.op = 4 ∨ f.op = 5 ∨ f.op = 6 then epochFail s f.op reason f.agent else s)
  else if f.op = 4 then setEpoch s { e with acked := e.acked ++ [f.agent] }
  else if f.op = 5 then exchangeTables (setEpoch s { e with committed := e.committed ++ [f.agent] }) f.agent
  else s
/-- No reply came to a frame of the sequencer, and its agent has been marked faulted. -/
def epochNoReply (s : State) (f : Frame) : State :=
  if f.use = .epoch then epochFail s (if f.op = 2 then 4 else f.op) 0xF f.agent else withhold s f.agent

/-! ## EPOCH_CMD (Table 20-8, R534) -/

def epochResult (s : State) (r : Nat) : State := setEpoch s { s.epoch with result := r }
/-- PREPARE and RUN. -/
def epochStart (s : State) (runAll : Bool) : State :=
  if s.epoch.running then epochResult s 1
  else if s.epoch.phase ≠ .idle ∧ s.epoch.phase ≠ .done then epochResult s 4
  else if !stageOk s then epochResult s 3
  else match epochList s with
    | none => epochResult s 2
    | some es => epochBegin s runAll es
/-- COMMIT. -/
def epochCommitCmd (s : State) : State :=
  if s.epoch.running then epochResult s 1
  else if s.epoch.phase ≠ .prepared then epochResult s 4
  else epochCommitNow (epochResult s 0)
/-- ROLLBACK: CLOSE for the current version to the agents that acknowledged PREPARE. -/
def epochAbandon (s : State) : State :=
  if s.epoch.running then epochResult s 1
  else if s.epoch.phase ≠ .prepared ∧ s.epoch.phase ≠ .prepareHalt then epochResult s 4
  else
    let s1 := setEpoch s { s.epoch with result := 0, running := true, phase := .closing, prepFailed := true }
    sendVersion s1 6 (s1.epoch.acked.filter (epochAgents s1).contains) s1.epoch.curVersion .epoch
/-- REPREPARE: the WRITE and CRC entries of the list that EPOCH_LIST now names, for agents that have not acknowledged. -/
def epochReprepare (s : State) : State :=
  if s.epoch.running then epochResult s 1
  else if s.epoch.phase ≠ .prepareHalt then epochResult s 4
  else match epochList s with
    | none => epochResult s 2
    | some es =>
      let s1 := setEpoch s { s.epoch with
        result := 0, running := true, phase := .writing, list := es, failOp := 0,
        failReason := 0, firstFail := 0 }
      sendWrites s1 0 ((epochAgents s1).filter (fun a => !s1.epoch.acked.contains a)) .epoch
/-- The 2 ms limit from the first COMMIT passes (R276). -/
def commitTimeout (s : State) : State := if s.epoch.phase = .committing then rollbackNow s else s

end Sys2Proof.Machine
end

