-- ==== Sys2Proof/Machine/Image.lean ====
section
/-! DEFINITION. KXI images: the fields of their header, and the acceptance checks (R134 to R137). -/
namespace Sys2Proof.Machine

/-! ## Layout (Table 5-4) -/

/-- Payload blocks that the reader of a head allows for: the most that any kind has. -/
def headBlocks (bs : List Byte) : Nat := Nat.min (le bs 0x0C 4) 1024
/-- Where the parts of an image with `n` blocks lie. -/
def pkOff (n : Nat) : Nat := 0x100 + 48 * n
def sigOff (n : Nat) : Nat := pkOff n + 2689
def headEnd (n : Nat) : Nat := sigOff n + 4723
def payOff (n : Nat) : Nat := (headEnd n + 4095) / 4096 * 4096
/-- The longest image of a kind with at most `n` blocks. -/
def imageMax (n : Nat) : Nat := payOff n + 65536 * n
/-- The length of the head of the image that begins with these bytes, once its header is there. -/
def headLen (bs : List Byte) : Nat := if bs.length < 0x100 then 0x100 else headEnd (headBlocks bs)

/-- The image that a head describes. -/
def parseImage (bs : List Byte) : Image :=
  let n := headBlocks bs
  let tbs := slice bs 0 (pkOff n)
  { kind := le bs 6 1, keyset := le bs 7 1, svn := le bs 8 2, cls := le bs 0x0A 1, flags := le bs 0x0B 1, blocks := n,
    lastLen := le bs 0x10 4, entryBc := le bs 0x14 4, siteMask := BitVec.ofNat 16 (le bs 0x24 4), loadOff := le bs 0x28 8,
    payloadOff := payOff n, dirOff := le bs 0x4C 4, tbs := tbs,
    manifest := (List.range n).map (fun i => slice bs (0x100 + 48 * i) 48), meas := sha384 tbs }
/-- The length of block `i`, and of the payload. -/
def Image.blockLen (m : Image) (i : Nat) : Nat := if i + 1 = m.blocks then m.lastLen else 65536
def Image.payloadLen (m : Image) : Nat := 65536 * (m.blocks - 1) + m.lastLen

/-! ## Key sets (Table 4-4, R136) -/

/-- The sets from which a stage 1 image is accepted. -/
def keysetsOf (lcs : Nat) : List Nat :=
  match lcs with
  | 1 => [0xFE] | 2 => [0] | 3 => [0, 1] | 4 => [1, 2, 3] | 5 => [0, 1] | 6 => [1] | _ => []
def keyRow (k i : Nat) : Nat := 0x300 + 12 * k + i
/-- A set of OTP is present when its rows are not blank, and not revoked. -/
def keysetLive (s : State) (k : Nat) : Bool :=
  k = 0xFE || (decide (k < 4) && !(List.range 12).all (fun i => s.fuse.sensed.blank.contains (keyRow k i)) &&
    !s.fuse.sensed.revoked.getLsbD k)
def keysetPermitted (s : State) (k : Nat) : Bool := (keysetsOf s.fuse.sensed.lcs).contains k && keysetLive s k
/-- Some set can be used in the sensed state; otherwise S3 halts with 0x21. -/
def anyKeyset (s : State) : Bool := (keysetsOf s.fuse.sensed.lcs).any (keysetLive s)
/-- 48 digest bytes from six rows: digest byte 8i + j in bits [8j + 7:8j] of row i. -/
def rowDigest (s : State) (r : Nat) : List Byte := (List.range 6).flatMap (fun i => leBytes 8 (smGet 0 s.fuse.sensed.rows (r + i)).toNat)
/-- The two keys that an image carries are those of its set. -/
def keysetConfirmed (s : State) (k : Nat) (ec ml : List Byte) : Bool :=
  if k = 0xFE then decide (ec ++ ml = (List.range 2689).map Config.testKeys)
  else decide (sha384 ec = rowDigest s (keyRow k 0)) && decide (sha384 ml = rowDigest s (keyRow k 6))

/-! ## Acceptance (Table 5-5) -/

/-- Check 6. -/
def fieldsOk (s : State) (bs : List Byte) : Bool :=
  let kind := le bs 6 1
  let n := le bs 0x0C 4
  let last := le bs 0x10 4
  let max := if kind = 4 then 1024 else 32
  let entries := [le bs 0x14 4, le bs 0x18 4, le bs 0x1C 4, le bs 0x20 4]
  decide (1 ≤ n ∧ n ≤ max ∧ 1 ≤ last ∧ last ≤ 65536 ∧ le bs 8 2 ≤ 384) &&
  (if kind = 4 then decide (le bs 0x0A 1 ≤ 15) else decide (le bs 0x0A 1 = 0)) &&
  decide (le bs 0x30 4 = 0x100 ∧ le bs 0x34 4 = 48 * n ∧ le bs 0x38 4 = pkOff n ∧ le bs 0x3C 4 = 2689 ∧
    le bs 0x40 4 = sigOff n ∧ le bs 0x44 4 = 4723 ∧ le bs 0x48 4 = payOff n) &&
  entries.all (fun e => decide (e % 4 = 0 ∧ e < 65536 * (n - 1) + last)) &&
  (decide (le bs 0x0B 1 % 2 = 0) || [1, 2, 5].contains s.fuse.sensed.lcs)

/-- The first check of Table 5-5 that the head of an image fails, as its reason (Table 5-12); 0 for none. `kind` is the one
that the context requires. -/
def imageReason (s : State) (kind : Nat) (bs : List Byte) : Nat :=
  let n := headBlocks bs
  let k := le bs 7 1
  let ec := slice bs (pkOff n) 97
  let ml := slice bs (pkOff n + 97) 2592
  let tbs := slice bs 0 (pkOff n)
  let floor := smGet 0 s.fuse.sensed.counters (if kind = 4 then 1 + Nat.min (le bs 0x0A 1) 15 else 0)
  if slice bs 0 5 ≠ [0x4B, 0x58, 0x49, 0x03, 1] then 1
  else if le bs 6 1 ≠ kind then 2
  else if !keysetPermitted s k then 3
  else if !keysetConfirmed s k ec ml then 4
  else if le bs 8 2 < floor then 5
  else if !fieldsOk s bs then 6
  else match ecPoint ec with
    | none => 7
    | some q =>
      if !ecdsaOk q (beVal (sha384 tbs)) (beVal (slice bs (sigOff n) 48)) (beVal (slice bs (sigOff n + 48) 48)) then 7
      else if !Config.mldsaVerify ml [] tbs (slice bs (sigOff n + 96) 4627) then 8
      else 0

/-- A header with the right magic and format (R130). -/
def headerOk (bs : List Byte) : Bool := decide (slice bs 0 5 = [0x4B, 0x58, 0x49, 0x03, 1])

/-! ## Reading the flash (R130, R139) -/

/-- The first flash byte of a slot: slot B begins at half the density. -/
def slotBase (s : State) (slot : Nat) : Nat := if slot = 1 then s.boot.density / 2 else 0
/-- Asks the xSPI controller for bytes of a slot: `offset` from the slot's base. -/
def flashRead (s : State) (slot offset length : Nat) : State :=
  { s with boot := { s.boot with flash := some { addr := slotBase s slot + offset, length := length } } }

/-! ## Push messages to the host (Table 5-3) -/

/-- A message of KX3 in O_MBOX0; an exchange through JTAG has none. -/
def pushSend (s : State) (words : List Word) : State :=
  if s.boot.viaJtag then s else queueFrames s 64 [{ words := words, answers := false }]

end Sys2Proof.Machine
end

