-- ==== Sys2Proof/Machine/Load.lean ====
section
/-! DEFINITION. Loading and releasing sites (R145 to R147, R160, R262; Tables 5-9 and 5-10): one group at a time, in the order in
which the groups were asked for. -/
namespace Sys2Proof.Machine

/-! ## Sites -/

def siteEnt (s : State) (k : Nat) : Option SiteEnt := smGet none s.boot.siteEnts k
def siteInfoReset : SiteInfo := { released := false, reason := 0, cls := 0, svn := 0, meas := [] }
def siteInfo (s : State) (k : Nat) : SiteInfo := smGet siteInfoReset s.boot.sites k
def setSiteInfo (s : State) (k : Nat) (v : SiteInfo) : State :=
  { s with boot := { s.boot with sites := smSet siteInfoReset s.boot.sites k v } }
/-- The slot that the accepted image came from, or slot A for an image that came from elsewhere (log entry 33). -/
def loadSlot (s : State) : Nat :=
  let src := if s.boot.src = 5 then (match s.boot.wakeRec with | some (_, _, _, _, _, x) => x | none => 0) else s.boot.src
  if src = 1 then 1 else 0
/-- The tenant that owns a site. -/
def siteOwner (s : State) (k : Nat) : Option Nat := s.part.active.pids.find? (fun p => (sitesOf s p).contains k)

/-! ## The queue of loads -/

def setLoad (s : State) (l : Load) : State :=
  { s with boot := { s.boot with loads := match s.boot.loads with | [] => [] | _ :: rest => l :: rest } }
/-- The load that is being performed. -/
def curLoad (s : State) : Option Load := if s.boot.loading then s.boot.loads.head? else none
/-- An agent whose resources are withheld is wired to the site or controls it (R148, R276). -/
def siteWithheld (s : State) (k : Nat) : Bool := s.part.withheld.any (fun a => (agentSites s a).contains k)
/-- S8 of a start: its records go to the journal and to BOOT_STEP (R127; log entry 34). -/
def loadJournal (s : State) (l : Load) (event src site reason : Nat) : State :=
  if l.why = .boot then
    let s1 := if reason = 0 then s else { s with boot := { s.boot with reason := reason } }
    journal s1 8 event src site reason
  else s
/-- SITE_NOTICE to the tenant that owns a site loaded after a fast wake (R160). -/
def siteNotice (s : State) (l : Load) (k held reason : Nat) : State :=
  if l.why = .wake then
    match siteOwner s k with
    | some p => notice s (p - 2) 0x0101 [w32 (reason * 65536 + held * 256 + k)]
    | none => s
  else s

/-- Whether a load still serves its purpose. -/
def loadValid (s : State) (l : Load) : Bool :=
  match l.why with
  | .partStart pid _ _ _ => pstate s pid = .configured
  | .quench pid => pstate s pid = .quenching
  | _ => true
/-- The sites of a partition that are held. -/
def heldMask (s : State) (pid : Nat) : Nat := bitmap (heldSites s pid)
/-- Every load of a purpose has ended: a PART_START sets its partition RUNNING and is answered with the held sites (R262). -/
def loadsEnd (s : State) (why : LoadWhy) : State :=
  match why with
  | .partStart pid ch tag _ =>
    if pstate s pid = .configured then
      let s1 := setState s pid .running
      reply s1 ch tag 0x0303 [w32 (heldMask s1 pid)]
    else replyCode s ch tag 0x0303 1
  | _ => s
/-- The load in progress leaves the queue. -/
def loadDrop (s : State) (l : Load) : State :=
  let rest := s.boot.loads.drop 1
  let s1 := { s with boot := { s.boot with loads := rest, loading := false, flash := none } }
  if rest.any (fun x => x.why = l.why) then s1 else loadsEnd s1 l.why

/-! ## Alternatives (Table 5-10) -/

/-- A host push of origin 1 or 2 is not refused by a CRIT flag (R129). -/
def originOk (s : State) (origin : Nat) : Bool :=
  (origin = 1 && !s.fuse.sensed.noHostpush) || (origin = 2 && !s.fuse.sensed.noPeer)
/-- The next alternative for a site after alternative `alt`. -/
def nextAlt (s : State) (k alt : Nat) : Option Nat :=
  match siteEnt s k with
  | none => none
  | some e =>
    if alt = 0 && s.boot.flashOk && decide (e.offset ≠ 0) then some 1
    else if alt < 2 && e.push && (originOk s 1 || originOk s 2) && decide (0 < s.boot.stageSize) then some 2
    else none
/-- A site fails: its reason is kept, and its next alternative comes next, for it alone; without one it stays held. -/
def failSite (l : Load) (reason : Nat) (s : State) (k : Nat) : State :=
  let s1 := setSiteInfo (loadJournal s l 3 s.boot.src k reason) k { siteInfo s k with released := false, reason := reason }
  match nextAlt s k l.alt with
  | some a =>
    let l2 : Load := { sites := [k], why := l.why, pos := if a = 1 then .probe else .staged, alt := a, image := none, length := 0,
                       buf := [], num := 0 }
    let s2 := loadJournal s1 l 5 (if a = 1 then 1 - loadSlot s else 2) k 0
    { s2 with boot := { s2.boot with loads := match s2.boot.loads with | [] => [l2] | x :: rest => x :: l2 :: rest } }
  | none => siteNotice (loadJournal s1 l 4 s.boot.src k reason) l k 1 reason
/-- The sites of the load that satisfy `ok` stay in it; the others fail. With none left the load ends. -/
def keepSites (s : State) (l : Load) (reason : Nat) (ok : Nat → Bool) : State :=
  let bad := l.sites.filter (fun k => !ok k)
  let l1 := { l with sites := l.sites.filter ok }
  let s1 := bad.reverse.foldl (failSite l reason) (setLoad s l1)
  if l1.sites.isEmpty then loadDrop s1 l else s1
/-- Every site of the load fails. -/
def failAll (s : State) (l : Load) (reason : Nat) : State := keepSites s l reason (fun _ => false)

/-! ## Steps of Table 5-9 -/

/-- The image's offset in its slot. -/
def loadOffset (s : State) (l : Load) : Nat := match siteEnt s (l.sites.headD 0) with | some e => e.offset | none => 0
/-- Asks for `n` more bytes of the image from `off` on: from flash, or from the staging region over HIP (R41). -/
def loadRead (s : State) (l : Load) (off n : Nat) : State :=
  if l.alt < 2 then flashRead s (if l.alt = 1 then 1 - loadSlot s else loadSlot s) (loadOffset s l + off) n
  else
    let a := s.boot.stageBase + off
    hipIssue s (.staging l.num) a (Nat.min n (4096 - a % 4096)) false []
/-- A load begins: BOOT_STEP.SITE, its record, and for a host push the request to stage the image. -/
def loadBegin (s : State) (l : Load) : State :=
  let k := l.sites.headD 0
  let l1 := { l with num := s.boot.loadNo + 1 }
  let s1 := setLoad { s with boot := { s.boot with loading := true, loadNo := s.boot.loadNo + 1 } } l1
  let s2 := { s1 with boot := { s1.boot with site := k } }
  let s3 := if l.alt = 0 then loadJournal s2 l 1 s.boot.src k 0 else s2
  match l.pos with
  | .probe => flashRead s3 (1 - loadSlot s) 0 0x100
  | .staged =>
    let cls := match siteEnt s k with | some e => e.cls | none => 0
    pushSend { s3 with boot := { s3.boot with hostWait := true } }
      [w32 (0x84 * 2 ^ 24 + k * 65536 + (cls % 16) * 256), w32 s.boot.stageSize, w32 (s.boot.stageSize / 2 ^ 32)]
  | _ => s3
/-- Steps 1 and 2: every site is ready, and the head of the image is read. -/
def loadReady (s : State) (l : Load) : State :=
  if l.alt = 0 && (!s.boot.flashOk || decide (loadOffset s l = 0)) then failAll s l 1
  else
    let l1 := { l with pos := .head, buf := [] }
    if l.alt = 2 && decide (l.length < 0x100) then failAll s l 1
    else loadRead (setLoad s l1) l1 0 0x100
/-- Whether a site may receive the image (step 3). -/
def siteFits (s : State) (m : Image) (k : Nat) : Bool :=
  match siteEnt s k with
  | some e => decide (m.cls = e.cls ∧ m.loadOff + m.payloadLen ≤ e.size) && m.siteMask.getLsbD k
  | none => false
/-- Asks for block `i`. -/
def loadBlock (s : State) (l : Load) (m : Image) (i : Nat) : State :=
  let l1 := { l with pos := .block i, image := some m, buf := [] }
  loadRead (setLoad s l1) l1 (m.payloadOff + 65536 * i) (m.blockLen i)
/-- Step 3, once the head is there. -/
def loadCheck (s : State) (l : Load) : State :=
  let r := imageReason s 4 l.buf
  if r ≠ 0 then failAll s l r
  else
    let m := parseImage l.buf
    if l.alt = 2 && decide (l.length < m.payloadOff + m.payloadLen) then failAll s l 6
    else
      let s1 := keepSites s l 15 (siteFits s m)
      match curLoad s1 with
      | some l1 => if l1.num = l.num then loadBlock s1 l1 m 0 else s1
      | none => s1
/-- The HIP writes of `n` bytes from address `a`, none across a 4 KiB boundary. -/
def hipWrites (use : HipUse) : Nat → State → Nat → List Byte → State
  | 0, s, _, _ => s
  | fuel + 1, s, a, bs =>
    if bs.isEmpty then s
    else
      let n := Nat.min bs.length (4096 - a % 4096)
      hipWrites use fuel (hipIssue s use a n true (bs.take n)) (a + n) (bs.drop n)
/-- Step 4: the block has matched and goes to every window. -/
def loadWrite (s : State) (l : Load) (m : Image) (i : Nat) : State :=
  let before := s.hip.out.length + s.hip.waiting.length
  let s1 := l.sites.foldl (fun t k => match siteEnt t k with
    | some e => hipWrites (.load l.num) 18 t (e.window + m.loadOff + 65536 * i) l.buf
    | none => t) s
  setLoad s1 { l with pos := .write i (s1.hip.out.length + s1.hip.waiting.length - before) [], buf := [] }
/-- Steps 5 and 6. A site that is released takes its SITE_READY back (DEDUCED from R64). -/
def loadRelease (s : State) (l : Load) (m : Image) : State :=
  let s1 := l.sites.foldl (fun t k =>
    let t1 := setSiteInfo t k { released := true, reason := 0, cls := m.cls, svn := m.svn, meas := m.meas }
    let t2 := if t1.pins.sitePresent.getLsbD k then setSiteHold t1 k true else t1
    let t3 := { t2 with pins := { t2.pins with siteReady := t2.pins.siteReady &&& ~~~ BitVec.ofNat 16 (2 ^ k) } }
    siteNotice (loadJournal t3 l 2 t.boot.src k 0) l k 0 0) s
  loadDrop s1 l
/-- Every write of block `i` has been answered. -/
def loadWritten (s : State) (l : Load) (i : Nat) (bad : List Nat) : State :=
  match l.image with
  | none => s
  | some m =>
    let s1 := if bad.isEmpty then s else keepSites s l 14 (fun k => !bad.contains k)
    match curLoad s1 with
    | some l1 =>
      if l1.num ≠ l.num then s1
      else if i + 1 < m.blocks then loadBlock s1 l1 m (i + 1)
      else loadRelease s1 l1 m
    | none => s1

/-! ## What arrives -/

/-- Bytes of the read in progress, or its failure. -/
def loadBytes (s : State) (ok : Bool) (bytes : List Byte) : State :=
  match curLoad s with
  | none => s
  | some l =>
    match l.pos with
    | .probe =>
      if ok && headerOk bytes then setLoad s { l with pos := .ready }
      else match nextAlt s (l.sites.headD 0) 1 with
        | some _ =>
          let l1 := { l with alt := 2, pos := .staged }
          loadBegin (setLoad s l1) l1
        | none =>
          let k := l.sites.headD 0
          let r := (siteInfo s k).reason
          loadDrop (siteNotice (loadJournal s l 4 s.boot.src k r) l k 1 r) l
    | .head =>
      if !ok then failAll s l (if l.alt < 2 then 10 else 1)
      else
        let l1 := { l with buf := l.buf ++ bytes }
        let want := headLen l1.buf
        if 0x100 ≤ l1.buf.length && !headerOk l1.buf then failAll s l 1
        else if l1.buf.length < want then
          if l.alt = 2 && decide (l.length < want) then failAll s l 1
          else loadRead (setLoad s l1) l1 l1.buf.length (want - l1.buf.length)
        else loadCheck (setLoad s l1) l1
    | .block i =>
      match l.image with
      | none => s
      | some m =>
        if !ok then failAll s l (if l.alt < 2 then 10 else 1)
        else
          let l1 := { l with buf := l.buf ++ bytes }
          if l1.buf.length < m.blockLen i then
            loadRead (setLoad s l1) l1 (m.payloadOff + 65536 * i + l1.buf.length) (m.blockLen i - l1.buf.length)
          else if sha384 l1.buf ≠ m.manifest.getD i [] then failAll s l1 9
          else loadWrite (setLoad s l1) l1 m i
    | _ => s
/-- A read of the staging region has returned. -/
def stagingDone (s : State) (num : Nat) (ok : Bool) (bytes : List Byte) : State :=
  match curLoad s with
  | some l => if l.num = num && l.alt = 2 then loadBytes s ok bytes else s
  | none => s
/-- A write to a site window has been answered. -/
def loadWriteDone (s : State) (num addr : Nat) (ok : Bool) : State :=
  match curLoad s with
  | some l =>
    if l.num ≠ num then s
    else match l.pos with
      | .write i pending bad =>
        let k := l.sites.find? (fun k => match siteEnt s k with
          | some e => decide (e.window ≤ addr ∧ addr < e.window + e.size)
          | none => false)
        let bad1 := if ok then bad else match k with | some k => if bad.contains k then bad else bad ++ [k] | none => bad
        if pending ≤ 1 then loadWritten (setLoad s { l with pos := .write i 0 bad1 }) { l with pos := .write i 0 bad1 } i bad1
        else setLoad s { l with pos := .write i (pending - 1) bad1 }
      | _ => s
  | none => s
/-- STAGED: the image lies in the staging region (R131, Table 5-10). A length above the region's is refused with reason 6 (DESIGN
CHOICE, log entry 85: Table 5-12 names no case of it). -/
def stagedAnswer (s : State) (origin length : Nat) : State :=
  match curLoad s with
  | some l =>
    if l.pos ≠ .staged then s
    else
      let s1 := { s with boot := { s.boot with hostWait := false } }
      if !originOk s origin then failAll s1 l 11
      else if s.boot.stageSize < length then failAll s1 l 6
      else setLoad s1 { l with pos := .ready, length := length }
  | none => s
/-- The 30 s for STAGED have passed. -/
def stagedTimeout (s : State) : State :=
  match curLoad s with
  | some l => if l.pos = .staged then failAll { s with boot := { s.boot with hostWait := false } } l 12 else s
  | none => s
/-- The 50 ms for SITE_READY of a site have passed: it leaves its group (Table 5-9 step 1). -/
def siteReadyTimeout (s : State) (k : Nat) : State :=
  match curLoad s with
  | some l =>
    if l.pos = .ready && l.sites.contains k && !s.pins.siteReady.getLsbD k then keepSites s l 13 (fun x => decide (x ≠ k)) else s
  | none => s

/-- One step of the loads: the next one begins, or the sites of the current one have become ready. -/
def pollLoads (s : State) : State :=
  match s.boot.loads with
  | [] => s
  | l :: _ =>
    if !loadValid s l then loadDrop s l
    else if !s.boot.loading then loadBegin s l
    else if l.pos = .ready && l.sites.all (fun k => s.pins.siteReady.getLsbD k) then loadReady s l
    else s

/-! ## Asking for loads -/

/-- Groups of sites with one offset, in order of their lowest site (R146). -/
def siteGroups (s : State) (ks : List Nat) : List (List Nat) :=
  let off (k : Nat) : Nat := match siteEnt s k with | some e => e.offset | none => 0
  (dedup (ks.map off).reverse).reverse.map (fun o => ks.filter (fun k => decide (off k = o)))
/-- Loads the present sites of a list that have a directory entry and are held, given in ascending order; a site that is
released has its firmware already (DEDUCED from Table 5-9 step 1 and R64: log entry 66). With none, the purpose has ended
already. -/
def startLoads (s : State) (ks : List Nat) (why : LoadWhy) : State :=
  let here := ks.filter (fun k => s.pins.sitePresent.getLsbD k && !s.pins.siteHoldN.getLsbD k && (siteEnt s k).isSome && !siteWithheld s k)
  let new : List Load := (siteGroups s here).map (fun g =>
    { sites := g, why := why, pos := .ready, alt := 0, image := none, length := 0, buf := [], num := 0 })
  if new.isEmpty then loadsEnd s why else { s with boot := { s.boot with loads := s.boot.loads ++ new } }
/-- No load of a purpose is left. -/
def loadsDone (s : State) (why : LoadWhy) : Bool := !s.boot.loads.any (fun l => l.why = why)

end Sys2Proof.Machine
end

