-- ==== Sys2Proof/Machine/Anvil.lean ====
section
/-! DEFINITION. The Anvil: operand memory, job queues, operations, yields and completion (R192 to R204). -/
namespace Sys2Proof.Machine

/-! ## Descriptors -/

/-- A byte and a word of a descriptor. -/
def dB (d : List Byte) (o : Nat) : Nat := le d o 1
def dW (d : List Byte) (o : Nat) : Nat := le d o 4
/-- Where a descriptor may lie. -/
def descOk (off size : Nat) : Bool := decide (off % size = 0) && sramIn off size
/-- A job that leaves nothing, with a result. -/
def jobFails (r : Nat) (s : State) : Nat × Nat × Outs × State := (r, 0, outsNone, s)
/-- A job that ends OK and leaves bytes in memory. -/
def jobMem (s : State) (m : List (Nat × List Byte)) : Nat × Nat × Outs × State := (0, 0, { outsNone with mem := m }, s)
/-- The bytes a finished job leaves go to main SRAM. -/
def putOuts (s : State) (m : List (Nat × List Byte)) : State := m.foldl (fun t c => sramWrite t c.1 c.2) s

/-! ## Operand memory (R192) -/

def slotArea (s : State) : Nat := if s.anvil.latRes then 2048 else 6144
/-- The number of slots. -/
def slotCount (s : State) : Nat := Nat.min 256 (slotArea s / s.anvil.words)
def opWord (s : State) (i : Nat) : DWord := smGet 0 s.anvil.mem i
/-- The number in the first `n` words of a slot. -/
def opRead (s : State) (slot n : Nat) : Nat :=
  leVal ((List.range n).flatMap (fun i => leBytes 8 (opWord s (slot * s.anvil.words + i)).toNat))
/-- The words that put a number into the first `n` words of a slot. -/
def opPut (s : State) (slot n v : Nat) : List (Nat × DWord) :=
  (List.range n).map (fun i => (slot * s.anvil.words + i, BitVec.ofNat 64 (v / 2 ^ (64 * i))))
def setOpWords (s : State) (ws : List (Nat × DWord)) : State :=
  { s with anvil := { s.anvil with mem := ws.foldl (fun m c => smSet 0 m c.1 c.2) s.anvil.mem } }

/-! ## Kinds and arbitration (Table 7-3, R202, R333) -/

def pLattice (op : Nat) : Bool := decide (0x20 ≤ op ∧ op ≤ 0x23)
/-- A SHORT job has no yield point. -/
def pShort (op words : Nat) : Bool := [0x01, 0x02, 0x06, 0x08, 0x09, 0x14].contains op || (op = 3 && decide (words ≤ 64))
def pKnown (op : Nat) : Bool :=
  [0x01, 0x02, 0x03, 0x04, 0x05, 0x06, 0x08, 0x09, 0x10, 0x11, 0x12, 0x14, 0x20, 0x21, 0x22, 0x23].contains op
/-- The OP, PID and length in words of a queued job. -/
def qOp (s : State) (off : Nat) : Nat := (sramByte s off).toNat
def qPid (s : State) (off : Nat) : Nat := (sramByte s (off + 2)).toNat
def qWords (s : State) (off : Nat) : Nat := (sramByte s (off + 3)).toNat + 1
/-- Whether a queued job may start in place of the running job `j` at a yield point (R202). -/
def mayPreempt (s : State) (j : PJob) (e : Nat × Nat) : Bool :=
  (decide (e.1 < j.cls) || (decide (e.1 = j.cls) && pShort (qOp s e.2) (qWords s e.2))) &&
  !(pLattice (qOp s e.2) && pLattice (dB j.desc 0))
/-- The jobs that the arbiter may start now: Master before every other class; the order among the other classes and among
PIDs is the sender's (log entry 36). Within a PID and class, jobs go in order. -/
def arbiterPool (q : List (Nat × Nat)) (pid : Nat → Nat) : List (Nat × Nat) :=
  let pool := if q.any (fun e => decide (e.1 = 0)) then q.filter (fun e => decide (e.1 = 0)) else q
  pool.filter (fun e => (pool.find? (fun x => decide (x.1 = e.1) && decide (pid x.2 = pid e.2))) = some e)
def anvilPool (s : State) : List (Nat × Nat) :=
  match s.anvil.run, s.anvil.susp with
  | some _, _ => []
  | none, some j => arbiterPool (s.anvil.queue.filter (mayPreempt s j)) (qPid s)
  | none, none => arbiterPool s.anvil.queue (qPid s)

/-! ## Starting a job -/

/-- The descriptor's general checks: its length in words. -/
def pDescBad (s : State) (d : List Byte) : Bool := decide (s.anvil.words < dB d 3 + 1)
/-- Starts job `e`, which takes the arbiter's next sequence number (R9, R21), and computes what it will leave. -/
def anvilBegin (s : State) (e : Nat × Nat) (f : State → List Byte → Nat × Nat × Outs × State) : State :=
  let d := sramRead s e.2 64
  let (r, it, o, s1) := if pDescBad s d then jobFails 4 s else f s d
  { s1 with anvil := { s1.anvil with
      queue := s.anvil.queue.erase e
      seq := (s.anvil.seq + 1) % 2 ^ 32
      run := some { addr := e.2, desc := d, cls := e.1, seq := s.anvil.seq, byYield := s.anvil.susp.isSome, yields := 0,
                    result := r, iters := it, outs := o } } }
/-- An OP that draws from the DRBG has to wait for the entropy source (R217). -/
def opWaits (s : State) (op : Nat) : Bool :=
  ((op = 0x10 || op = 0x20) && drbgWaits s true) || (op = 0x22 && drbgWaits s false)
/-- The row of one OP starts a job with that OP, if the arbiter may start one. -/
def anvilRow (op : Nat) (f : State → List Byte → Nat × Nat × Outs × State) (s : State) : State :=
  if !coreOn s || opWaits s op then s
  else match (anvilPool s).find? (fun e => decide (qOp s e.2 = op)) with
    | some e => anvilBegin s e f
    | none => s

/-! ## Modular arithmetic -/

/-- Operands of the modular operations: their lengths and whether their slots exist. -/
def slotsBad (s : State) (ks : List Nat) : Bool := ks.any (fun k => decide (slotCount s ≤ k))
/-- Trial division. -/
def isPrime (m : Nat) : Bool := decide (2 ≤ m) && (List.range m).all (fun k => decide (k < 2 ∨ m % k ≠ 0))
/-- A modular operation on A, B where it has one, M and D: the value in its domain, an open value outside it (R198). -/
def modOp (op : Nat) (useB : Bool) (ok : Nat → Nat → Nat → Bool) (val : Nat → Nat → Nat → Nat) (s : State) (d : List Byte) :
    Nat × Nat × Outs × State :=
  let n := dB d 3 + 1
  if slotsBad s ([dB d 4, dB d 6, dB d 7] ++ (if useB then [dB d 5] else [])) then jobFails 4 s
  else
    let a := opRead s (dB d 4) n
    let b := if useB then opRead s (dB d 5) n else 0
    let m := opRead s (dB d 6) n
    let v := if ok a b m then val a b m else Config.anvilOpen op n [a, b, m, le d 0x0C 2]
    (0, 0, { outsNone with opnd := opPut s (dB d 7) n v }, s)
def execModAdd (s : State) : Host.Outcome State Fault Refusal :=
  .next (anvilRow 1 (modOp 1 true (fun a b m => decide (a < m ∧ b < m)) (fun a b m => (a + b) % m)) s)
def execModSub (s : State) : Host.Outcome State Fault Refusal :=
  .next (anvilRow 2 (modOp 2 true (fun a b m => decide (a < m ∧ b < m)) (fun a b m => (a + m - b) % m)) s)
def execModMul (s : State) : Host.Outcome State Fault Refusal :=
  .next (anvilRow 3 (modOp 3 true (fun a b m => decide (a < m ∧ b < m ∧ m % 2 = 1)) (fun a b m => a * b % m)) s)
/-- MOD_EXP: the exponent is the low EXP_BITS bits of B, which is not 0. -/
def modExp (s : State) (d : List Byte) : Nat × Nat × Outs × State :=
  let e := le d 0x0C 2
  if e = 0 ∨ 16384 < e then jobFails 4 s
  else modOp 4 true (fun a b m => decide (a < m ∧ m % 2 = 1 ∧ b % 2 ^ e ≠ 0)) (fun a b m => powMod a (b % 2 ^ e) m e) s d
def execModExp (s : State) : Host.Outcome State Fault Refusal := .next (anvilRow 4 modExp s)
/-- MOD_INV: A^(M-2) mod M for prime M, and some value otherwise (R198). -/
def modInvVal (a m : Nat) : Nat := powMod a (m - 2) m 16384
def execModInv (s : State) : Host.Outcome State Fault Refusal :=
  .next (anvilRow 5 (modOp 5 false (fun a _ m => decide (a < m ∧ m % 2 = 1) && isPrime m) (fun a _ m => modInvVal a m)) s)
def slotClear (s : State) (d : List Byte) : Nat × Nat × Outs × State :=
  if slotsBad s [dB d 7] then jobFails 4 s else (0, 0, { outsNone with opnd := opPut s (dB d 7) (dB d 3 + 1) 0 }, s)
def execSlotClear (s : State) : Host.Outcome State Fault Refusal := .next (anvilRow 6 slotClear s)
def slotLoad (s : State) (d : List Byte) : Nat × Nat × Outs × State :=
  let n := dB d 3 + 1
  if slotsBad s [dB d 7] then jobFails 4 s
  else if !sramIn (dW d 0x10) (8 * n) then jobFails 5 s
  else (0, 0, { outsNone with opnd := opPut s (dB d 7) n (leVal (sramRead s (dW d 0x10) (8 * n))) }, s)
def execPkeLoad (s : State) : Host.Outcome State Fault Refusal := .next (anvilRow 8 slotLoad s)
def slotStore (s : State) (d : List Byte) : Nat × Nat × Outs × State :=
  let n := dB d 3 + 1
  if slotsBad s [dB d 4] then jobFails 4 s
  else if !sramIn (dW d 0x28) (8 * n) then jobFails 5 s
  else jobMem s [(dW d 0x28, leBytes (8 * n) (opRead s (dB d 4) n))]
def execStore (s : State) : Host.Outcome State Fault Refusal := .next (anvilRow 9 slotStore s)

/-! ## P-384 -/

def pubOut (d : List Byte) : Bool := decide (dB d 1 / 8 % 2 = 1)
def pubOnly (d : List Byte) : Bool := decide (dB d 1 / 16 % 2 = 1)
/-- The key of a job, in ANVIL use `use` and of length code `len` (R166, R167). -/
def jobKey (s : State) (d : List Byte) (use len : Nat) : Option Slot :=
  if keyUsable s (dB d 8) use 1 (dB d 2) && decide ((slotOf s (dB d 8)).len = len) then some (slotOf s (dB d 8)) else none
/-- The public point of a scalar. -/
def ecPublic (k : Nat) : List Byte := ecBytes (ecBase k)
/-- ECDSA_SIGN by Table 7-4: the nonce from the DRBG with prediction resistance, and verification before release. -/
def ecdsaSignJob (s : State) (d : List Byte) : Nat × Nat × Outs × State :=
  if !sramIn (dW d 0x10) 48 || !sramIn (dW d 0x28) 96 || (pubOut d && !sramIn (dW d 0x18) 97) then jobFails 5 s
  else match jobKey s d 1 2 with
    | none => jobFails 3 s
    | some v =>
      match drbgGrant s true with
      | none => jobFails (if s.rng.dead then 6 else 3) s
      | some s1 =>
        let e := beVal (sramRead s (dW d 0x10) 48)
        let k := ecScalar v.key
        let ((r, t), n) := ecdsaDraw k e s1.free 7
        let pub := ecBase k
        if ecdsaOk (pub.getD (0, 0)) e r t then
          jobMem (drew s1 n) ((dW d 0x28, beBytes 48 r ++ beBytes 48 t) :: (if pubOut d then [(dW d 0x18, ecBytes pub)] else []))
        else jobFails 2 (drew s1 n)
def execEcdsaSign (s : State) : Host.Outcome State Fault Refusal := .next (anvilRow 0x10 ecdsaSignJob s)
/-- ECDSA_VERIFY. With a key off the curve the verdict is open (R198). -/
def ecdsaVerifyJob (s : State) (d : List Byte) : Nat × Nat × Outs × State :=
  if !sramIn (dW d 0x10) 48 || !sramIn (dW d 0x18) 97 || !sramIn (dW d 0x20) 96 then jobFails 5 s
  else
    let m := sramRead s (dW d 0x10) 48
    let aux := sramRead s (dW d 0x18) 97
    let g := sramRead s (dW d 0x20) 96
    let r := beVal (g.take 48)
    let t := beVal (g.drop 48)
    let range := decide (0 < r ∧ r < p384n ∧ 0 < t ∧ t < p384n)
    match ecPoint aux with
    | some q =>
      if !range then jobFails 1 s
      else if ecOn q then jobFails (if ecdsaOk q (beVal m) r t then 0 else 1) s
      else jobFails (if (Config.ecdhOpen r (m ++ aux ++ g)).getLsbD 0 then 0 else 1) s
    | none => jobFails (if range && (Config.ecdhOpen r (m ++ aux ++ g)).getLsbD 0 then 0 else 1) s
def execEcdsaVerify (s : State) : Host.Outcome State Fault Refusal := .next (anvilRow 0x11 ecdsaVerifyJob s)
/-- DST_SLOT and DST_ATTR for a shared secret of length code `len`: 0, or the result that refuses them (R195). A fixed slot as
DST_SLOT gives BAD_DESC (DESIGN CHOICE, log entry 87). -/
def dstBad (s : State) (d : List Byte) (len : Nat) (srcPid : Nat) : Nat :=
  let a := w32 (dW d 0x34)
  if fld a 29 28 ≠ len ∨ attrBad a ∨ dB d 9 < 8 ∨ fld a 15 8 ≠ dB d 2 ∨ (srcPid ≠ 0 ∧ srcPid ≠ fld a 15 8) then 4
  else if !slotEmpty s (dB d 9) then 8
  else 0
/-- ECDH, or under PUBONLY the public key of KEY_SLOT (R195, R196). -/
def ecdhJob (s : State) (d : List Byte) : Nat × Nat × Outs × State :=
  if pubOnly d then
    if !sramIn (dW d 0x28) 97 then jobFails 5 s
    else match jobKey s d 2 2 with
      | none => jobFails 3 s
      | some v => jobMem s [(dW d 0x28, ecPublic (ecScalar v.key))]
  else if !sramIn (dW d 0x18) 97 then jobFails 5 s
  else match jobKey s d 2 2 with
    | none => jobFails 3 s
    | some v =>
      let r := dstBad s d 1 v.pid
      if r ≠ 0 then jobFails r s
      else
        let aux := sramRead s (dW d 0x18) 97
        let k := ecScalar v.key
        let x := match ecPoint aux with
          | some q => if ecOn q then ((ecMul k q).map (fun p => p.1)).getD 0 else (Config.ecdhOpen k aux).toNat
          | none => (Config.ecdhOpen k aux).toNat
        (0, 0, { outsNone with slot := some (dB d 9, w32 (dW d 0x34), beBytes 48 x) }, s)
def execEcdh (s : State) : Host.Outcome State Fault Refusal := .next (anvilRow 0x12 ecdhJob s)
/-- EC_CHECK: on P-384 and not the point at infinity (R199; the refusing code is DEDUCED, log entry 37). -/
def ecCheckJob (s : State) (d : List Byte) : Nat × Nat × Outs × State :=
  if !sramIn (dW d 0x18) 97 then jobFails 5 s
  else match ecPoint (sramRead s (dW d 0x18) 97) with
    | some q => jobFails (if ecOn q then 0 else 7) s
    | none => jobFails 7 s
def execEcCheck (s : State) : Host.Outcome State Fault Refusal := .next (anvilRow 0x14 ecCheckJob s)

/-! ## Lattice operations -/

/-- `n` bytes of a byte function. -/
def bytesOf (f : Nat → Byte) (n : Nat) : List Byte := (List.range n).map f
/-- A lattice job without the lattice workspace ends with BAD_DESC. -/
def lattice (f : State → List Byte → Nat × Nat × Outs × State) (s : State) (d : List Byte) : Nat × Nat × Outs × State :=
  if s.anvil.latRes then f s d else jobFails 4 s
def mldsaSignJob (s : State) (d : List Byte) : Nat × Nat × Outs × State :=
  let n := dW d 0x14
  if 65536 < n then jobFails 4 s
  else if !sramIn (dW d 0x10) n || !sramIn (dW d 0x30) (dB d 0x0E) || !sramIn (dW d 0x28) 4627 ||
      (pubOut d && !sramIn (dW d 0x18) 2592) then jobFails 5 s
  else match jobKey s d 1 0 with
    | none => jobFails 3 s
    | some v =>
      match drbgGrant s true with
      | none => jobFails (if s.rng.dead then 6 else 3) s
      | some s1 =>
        let seed := keyBytes v
        let m := sramRead s (dW d 0x10) n
        let ctx := sramRead s (dW d 0x30) (dB d 0x0E)
        let rnd := BitVec.ofNat 256 (freeNow s1).toNat
        let sig := bytesOf (Config.mldsaSign seed ctx m rnd) 4627
        let pk := bytesOf (Config.mldsaPk seed) 2592
        let it := Nat.min 255 (Config.mldsaIters seed ctx m rnd)
        if Config.mldsaVerify pk ctx m sig then
          (0, it, { outsNone with mem := (dW d 0x28, sig) :: (if pubOut d then [(dW d 0x18, pk)] else []) }, drew s1)
        else (2, it, outsNone, drew s1)
def execMldsaSign (s : State) : Host.Outcome State Fault Refusal := .next (anvilRow 0x20 (lattice mldsaSignJob) s)
def mldsaVerifyJob (s : State) (d : List Byte) : Nat × Nat × Outs × State :=
  let n := dW d 0x14
  if !sramIn (dW d 0x10) n || !sramIn (dW d 0x30) (dB d 0x0E) || !sramIn (dW d 0x18) 2592 || !sramIn (dW d 0x20) 4627 then
    jobFails 5 s
  else
    jobFails (if Config.mldsaVerify (sramRead s (dW d 0x18) 2592) (sramRead s (dW d 0x30) (dB d 0x0E)) (sramRead s (dW d 0x10) n)
      (sramRead s (dW d 0x20) 4627) then 0 else 1) s
def execMldsaVerify (s : State) : Host.Outcome State Fault Refusal := .next (anvilRow 0x21 (lattice mldsaVerifyJob) s)
/-- MLKEM_ENCAPS: the encapsulation key check, then a secret drawn from the DRBG. -/
def mlkemEncapsJob (s : State) (d : List Byte) : Nat × Nat × Outs × State :=
  if !sramIn (dW d 0x18) 1568 || !sramIn (dW d 0x28) 1568 then jobFails 5 s
  else
    let ek := sramRead s (dW d 0x18) 1568
    let r := dstBad s d 0 0
    if r ≠ 0 then jobFails r s
    else if !Config.mlkemKeyOk ek then jobFails 7 s
    else match drbgGrant s false with
      | none => jobFails (if s.rng.dead then 6 else 3) s
      | some s1 =>
        let m := BitVec.ofNat 256 (freeNow s1).toNat
        (0, 0, { mem := [(dW d 0x28, bytesOf (Config.mlkemCipher ek m) 1568)], opnd := [],
                 slot := some (dB d 9, w32 (dW d 0x34), leBytes 32 (Config.mlkemSecret ek m).toNat) }, drew s1)
def execMlkemEncaps (s : State) : Host.Outcome State Fault Refusal := .next (anvilRow 0x22 (lattice mlkemEncapsJob) s)
/-- MLKEM_DECAPS with implicit rejection, or under PUBONLY the encapsulation key of KEY_SLOT. -/
def mlkemDecapsJob (s : State) (d : List Byte) : Nat × Nat × Outs × State :=
  if pubOnly d then
    if !sramIn (dW d 0x28) 1568 then jobFails 5 s
    else match jobKey s d 2 2 with
      | none => jobFails 3 s
      | some v => jobMem s [(dW d 0x28, bytesOf (Config.mlkemPk (keyBytes v)) 1568)]
  else if !sramIn (dW d 0x10) 1568 then jobFails 5 s
  else match jobKey s d 2 2 with
    | none => jobFails 3 s
    | some v =>
      let r := dstBad s d 0 v.pid
      if r ≠ 0 then jobFails r s
      else
        let k := Config.mlkemDecaps (keyBytes v) (sramRead s (dW d 0x10) 1568)
        (0, 0, { outsNone with slot := some (dB d 9, w32 (dW d 0x34), leBytes 32 k.toNat) }, s)
def execMlkemDecaps (s : State) : Host.Outcome State Fault Refusal := .next (anvilRow 0x23 (lattice mlkemDecapsJob) s)

/-! ## Yield points (R201, R202) -/

/-- The running job passes a yield point `stretch` times 10 ns after its last one, and yields when R202 says so. -/
def anvilYield (s : State) (stretch : Nat) : State :=
  match s.anvil.run with
  | none => s
  | some j =>
    if pShort (dB j.desc 0) (dB j.desc 3 + 1) then s
    else
      let s1 := { s with anvil := { s.anvil with maxStretch := Nat.max s.anvil.maxStretch stretch } }
      if j.byYield || s.anvil.susp.isSome || !s.anvil.queue.any (mayPreempt s j) then s1
      else { s1 with anvil := { s1.anvil with run := none, susp := some { j with yields := satAdd 255 j.yields 1 },
                                              yields := satAdd 65535 s1.anvil.yields 1 } }
def execAnvilYield (stretch : BitVec 16) (s : State) : Host.Outcome State Fault Refusal := .next (anvilYield s stretch.toNat)

/-! ## Completion (R203, R204) -/

/-- A SIGN_FAULT: the job is submitted once more, and a second one within 1 s leads to SAFE (Table 17-7). -/
def signFault (s : State) (j : PJob) : State :=
  match signFaultNote s (dB j.desc 0) with
  | (true, s1) => { s1 with anvil := { s1.anvil with queue := s1.anvil.queue ++ [(j.cls, j.addr)] } }
  | (false, s1) => s1
/-- A slot that a job fills, with ORIGIN 1 for a shared secret and 3 for an import; a slot that was filled meanwhile is left. -/
def putSlot (s : State) (origin : Nat) (o : Option (Nat × Word × List Byte)) : Bool × State :=
  match o with
  | none => (true, s)
  | some (n, a, key) => if slotEmpty s n then (true, fillSlot s n origin a key) else (false, s)
/-- The running job ends: its outputs, SEQ, then STATUS, the Tally and the DONE event. A suspended job resumes after the job
that took its place. -/
def anvilEnd (s : State) (j : PJob) : State :=
  let (ok, s1) := putSlot s 1 j.outs.slot
  let r := if ok then j.result else 8
  let s2 := setOpWords (if ok then putOuts s1 j.outs.mem else s1) j.outs.opnd
  let back := j.byYield
  let s3 := { s2 with anvil := { s2.anvil with run := if back then s2.anvil.susp else none,
                                               susp := if back then none else s2.anvil.susp } }
  let s4 := sramWrite (sramWrite s3 (j.addr + 0x38) (leBytes 4 j.seq)) (j.addr + 0x3C)
    (leBytes 4 (r * 2 ^ 28 + 2 ^ 27 + j.yields * 256 + j.iters))
  let s5 := if dB j.desc 1 / 4 % 2 = 1 then fwSignal s4 (le j.desc 0x0A 2) else s4
  let s6 := fwEvent s5 (pgFw 4) 1
  if r = 2 then signFault s6 j else s6
/-- ANVIL_JOB_DONE. A job whose OP is not of Table 7-3 has no row of its own: it is started and ended here with BAD_DESC. -/
def anvilDone (s : State) : State :=
  match s.anvil.run with
  | some j => anvilEnd s j
  | none =>
    match (anvilPool s).find? (fun e => !pKnown (qOp s e.2)) with
    | some e =>
      let s1 := anvilBegin s e (fun s _ => jobFails 4 s)
      match s1.anvil.run with
      | some j => anvilEnd s1 j
      | none => s1
    | none => s
def execAnvilJobDone (s : State) : Host.Outcome State Fault Refusal := .next (if coreOn s then anvilDone s else s)

/-! ## PKE_JOB and PKE_SLOT_LEN -/

/-- A write to PKE_JOB (R194). The class is read from the descriptor's FLAGS at the write (DEDUCED, log entry 36). -/
def pkeJob (s : State) (w : Who) (off : Nat) : State :=
  let cls := (sramByte s (off + 1)).toNat % 4
  if !descOk off 64 then refuse s (.fab w) (.fw 4 0x44) 0x4044 .edecode
  else if 16 ≤ (s.anvil.queue.filter (fun e => decide (e.1 = cls))).length then respond s (.fab w) .efull
  else respond { s with anvil := { s.anvil with queue := s.anvil.queue ++ [(cls, off)] } } (.fab w) .ok
def execPkeJob (w : Who) (offset : Word) (s : State) : Host.Outcome State Fault Refusal :=
  .next (byCore s w (fun s => pkeJob s w offset.toNat))

/-- A write to PKE_SLOT_LEN (R193). -/
def pkeSlotLen (s : State) (w : Who) (data : Word) : State :=
  let n := fld data 8 0
  if n = 0 ∨ 256 < n ∨ s.anvil.run.isSome ∨ s.anvil.susp.isSome ∨ !s.anvil.queue.isEmpty then respond s (.fab w) .eaccess
  else respond { s with anvil := { s.anvil with mem := [], words := n, latRes := bitOf data 16 } } (.fab w) .ok
def execPkeSlotLenWrite (w : Who) (data : Word) (s : State) : Host.Outcome State Fault Refusal :=
  .next (byCore s w (fun s => pkeSlotLen s w data))

end Sys2Proof.Machine
end

