-- ==== Sys2Proof/Machine/Lanes.lean ====
section
/-! DEFINITION. The measurement hash lanes (R205 to R209, R520). -/
namespace Sys2Proof.Machine

/-- The fields of Table 7-8. -/
def hFirst (d : List Byte) : Bool := decide (dB d 1 % 2 = 1)
def hLast (d : List Byte) : Bool := decide (dB d 1 / 2 % 2 = 1)
def hHub (d : List Byte) : Bool := decide (dB d 1 / 4 % 2 = 1)
/-- Whether a descriptor's fields are out of their ranges. -/
def hashBad (d : List Byte) : Bool :=
  let kmac := decide (dB d 0 = 3)
  decide (dB d 0 = 0 ∨ 3 < dB d 0 ∨ 2 ^ 24 < dW d 0x10) ||
  (kmac && (!([32, 48, 64].contains (dB d 2)) || decide (64 < dB d 4 ∨ 64 < dB d 5) || !sramIn (dW d 0x14) (dB d 4 + dB d 5))) ||
  (!hHub d && !sramIn (le d 8 8) (dW d 0x10)) || (hLast d && !sramIn (dW d 0x18) (if kmac then dB d 2 else 48))

/-- The next HIP read of a lane (R207). -/
def laneRead (s : State) (n : Nat) : State :=
  let l := lane s n
  if l.hubLeft = 0 then s
  else hipIssue s (.lane n) (l.hubAddr % 2 ^ 52) (Nat.min l.hubLeft (4096 - l.hubAddr % 4096)) false []
/-- The message that a job belongs to: a new one with FIRST, the open one of the same operation without it. -/
def laneMessage (s : State) (l : Lane) (d : List Byte) : Option (Nat × List Byte × List Byte × Nat × List Byte) :=
  if hFirst d then
    let ks := sramRead s (dW d 0x14) (dB d 4 + dB d 5)
    if dB d 0 = 3 then some (3, ks.take (dB d 4), ks.drop (dB d 4), dB d 2, []) else some (dB d 0, [], [], 48, [])
  else match l.msg with
    | some m => if m.1 = dB d 0 then some m else none
    | none => none
/-- A job starts: it reads its descriptor, and its segment joins the message. A FIRST abandons an open message, and the next
job without FIRST ends with ABANDONED (R206; log entry 35). -/
def laneStart (s : State) (n : Nat) (off : Nat) : State :=
  let l := lane s n
  let d := sramRead s off 32
  let l0 := { l with queue := l.queue.drop 1 }
  let ends (l : Lane) (r : Nat) : State := setLane s n { l with run := some (off, d, r) }
  if hashBad d then ends l0 2
  else if !hFirst d && l.abandon then ends { l0 with abandon := false } 4
  else match laneMessage s l d with
    | none => ends l0 2
    | some (op, key, cust, len, data) =>
      let l1 := { l0 with abandon := l.abandon || (hFirst d && l.msg.isSome), run := some (off, d, 0) }
      if hHub d then laneRead (setLane s n { l1 with msg := some (op, key, cust, len, data), hubAddr := le d 8 8, hubLeft := dW d 0x10 }) n
      else setLane s n { l1 with msg := some (op, key, cust, len, data ++ sramRead s (le d 8 8) (dW d 0x10)) }
/-- The row of one OP starts the oldest job of a lane when it has that OP. -/
def laneRow (op n : Nat) (s : State) : State :=
  let l := lane s n
  match l.queue with
  | off :: _ => if coreOn s && !laneRuns s n && !l.shadow && decide (qOp s off = op) then laneStart s n off else s
  | [] => s
def execSha384 (lane : BitVec 4) (s : State) : Host.Outcome State Fault Refusal := .next (laneRow 1 lane.toNat s)
def execSha3384 (lane : BitVec 4) (s : State) : Host.Outcome State Fault Refusal := .next (laneRow 2 lane.toNat s)
def execKmac256 (lane : BitVec 4) (s : State) : Host.Outcome State Fault Refusal := .next (laneRow 3 lane.toNat s)

/-- Bytes of a lane's HIP read, or its refusal, which zeroises the message (R207). -/
def laneHip (s : State) (n : Nat) (ok : Bool) (len : Nat) (bytes : List Byte) : State :=
  let l := lane s n
  match l.run with
  | none => s
  | some (off, d, _) =>
    if l.hubLeft = 0 then s
    else if !ok then setLane s n { l with msg := none, hubLeft := 0, run := some (off, d, 1) }
    else laneRead (setLane s n { l with
      msg := l.msg.map (fun m => (m.1, m.2.1, m.2.2.1, m.2.2.2.1, m.2.2.2.2 ++ slice bytes 0 len))
      hubAddr := l.hubAddr + len, hubLeft := l.hubLeft - len }) n

/-- The digest of a message. -/
def laneDigest (m : Nat × List Byte × List Byte × Nat × List Byte) : List Byte :=
  match m.1 with
  | 1 => sha384 m.2.2.2.2
  | 2 => sha3_384 m.2.2.2.2
  | _ => kmac256 m.2.1 m.2.2.2.2 (8 * m.2.2.2.1) m.2.2.1
/-- The job of a lane ends: with LAST its output, then STATUS, the Tally and the event. -/
def laneEnd (s : State) (n off : Nat) (d : List Byte) (r : Nat) : State :=
  let l := lane s n
  let closes := r = 0 && hLast d
  let s1 := match l.msg with
    | some m => if closes then sramWrite s (dW d 0x18) (laneDigest m) else s
    | none => s
  let s2 := setLane s1 n { l with run := none, msg := if closes then none else l.msg }
  let s3 := sramWrite s2 (off + 0x1C) (leBytes 4 (r * 2 ^ 28 + 2 ^ 27))
  let s4 := if dB d 1 / 8 % 2 = 1 then fwSignal s3 (le d 6 2) else s3
  let s5 := if hLast d || r ≠ 0 then fwEvent s4 (pgFw 5) (2 ^ n) else s4
  if r = 0 then s5 else { s5 with hash := { s5.hash with err := satInc s5.hash.err } }
/-- HASH_JOB_DONE. A job whose OP is not of Table 7-8 is started and ended here with BAD_DESC. -/
def hashDone (s : State) (n : Nat) : State :=
  let l := lane s n
  match l.run, l.queue with
  | some (off, d, r), _ => if l.hubLeft = 0 then laneEnd s n off d r else s
  | none, off :: _ =>
    if qOp s off = 0 ∨ 3 < qOp s off then laneEnd (laneStart s n off) n off (sramRead s off 32) 2 else s
  | none, [] => s
def execHashJobDone (lane : BitVec 4) (s : State) : Host.Outcome State Fault Refusal :=
  .next (if coreOn s && !(Sys2Proof.Machine.lane s lane.toNat).shadow && !laneMeasures s lane.toNat then hashDone s lane.toNat else s)

/-- A write to MEAS_JOBn: 8 jobs per lane (R205, R520). -/
def measJob (s : State) (w : Who) (n off : Nat) : State :=
  let l := lane s n
  if !descOk off 32 then refuse s (.fab w) (.fw 5 (0x40 + 4 * n)) (0x5040 + 4 * n) .edecode
  else if 8 ≤ l.queue.length + b2n l.run.isSome then respond s (.fab w) .efull
  else respond (setLane s n { l with queue := l.queue ++ [off] }) (.fab w) .ok
def execMeasJob (w : Who) (lane : BitVec 4) (offset : Word) (s : State) : Host.Outcome State Fault Refusal :=
  .next (byCore s w (fun s => measJob s w lane.toNat offset.toNat))

end Sys2Proof.Machine
end

