-- ==== Sys2Proof/Machine/Aes.lean ====
section
/-! DEFINITION. The AES engine (R210 to R213, R521) and DRBG_GEN (R218). -/
namespace Sys2Proof.Machine

/-! ## Arbitration and completion -/

/-- The jobs that the engine's arbiter may start now (R333; log entry 36). -/
def aesPool (s : State) : List (Nat × Nat) :=
  match s.aes.run with
  | some _ => []
  | none => arbiterPool s.aes.queue (qPid s)
/-- Starts job `e`, which takes the arbiter's next sequence number (R9, R21). -/
def aesBegin (s : State) (e : Nat × Nat) (f : State → List Byte → Nat × Outs × State) : State :=
  let d := sramRead s e.2 64
  let (r, o, s1) := f s d
  { s1 with aes := { s1.aes with
      queue := s.aes.queue.erase e, seq := (s.aes.seq + 1) % 2 ^ 32
      run := some { addr := e.2, desc := d, seq := s.aes.seq, result := r, outs := o } } }
/-- The row of one MODE starts a job with that MODE, if the arbiter may start one. -/
def aesRow (mode : Nat) (f : State → List Byte → Nat × Outs × State) (s : State) : State :=
  if !coreOn s then s
  else match (aesPool s).find? (fun e => decide (qOp s e.2 = mode)) with
    | some e => aesBegin s e f
    | none => s
/-- The job ends: its outputs, SEQ, then STATUS, the Tally and the DONE event. -/
def aesEnd (s : State) (j : AJob) : State :=
  let (ok, s1) := putSlot s 3 j.outs.slot
  let s2 := if ok then putOuts s1 j.outs.mem else s1
  let s3 := sramWrite (sramWrite { s2 with aes := { s2.aes with run := none } } (j.addr + 0x38) (leBytes 4 j.seq)) (j.addr + 0x3C)
    (leBytes 4 ((if ok then j.result else 8) * 2 ^ 28 + 2 ^ 27))
  let s4 := if dB j.desc 1 / 4 % 2 = 1 then fwSignal s3 (le j.desc 6 2) else s3
  fwEvent s4 (pgFw 6) 1
/-- AES_JOB_DONE. A job whose MODE is not of Table 7-9 is started and ended here with BAD_DESC. -/
def aesDone (s : State) : State :=
  match s.aes.run with
  | some j => aesEnd s j
  | none =>
    match (aesPool s).find? (fun e => decide (qOp s e.2 = 0 ∨ 9 < qOp s e.2)) with
    | some e =>
      let s1 := aesBegin s e (fun s _ => (3, outsNone, s))
      match s1.aes.run with
      | some j => aesEnd s1 j
      | none => s1
    | none => s
def execAesJobDone (s : State) : Host.Outcome State Fault Refusal := .next (if coreOn s then aesDone s else s)

/-- A write to SYM_JOB (R210, R521). -/
def symJob (s : State) (w : Who) (off : Nat) : State :=
  let cls := (sramByte s (off + 1)).toNat % 4
  if !descOk off 64 then refuse s (.fab w) (.fw 6 0x40) 0x6040 .edecode
  else if 16 ≤ (s.aes.queue.filter (fun e => decide (e.1 = cls))).length then respond s (.fab w) .efull
  else respond { s with aes := { s.aes with queue := s.aes.queue ++ [(cls, off)] } } (.fab w) .ok
def execSymJob (w : Who) (offset : Word) (s : State) : Host.Outcome State Fault Refusal :=
  .next (byCore s w (fun s => symJob s w offset.toNat))

/-! ## Modes (Table 7-9) -/

def aFail (r : Nat) (s : State) : Nat × Outs × State := (r, outsNone, s)
/-- The key of a job in AES use `use` and of length code `len` (R166, R167). -/
def aesKey (s : State) (d : List Byte) (use len : Nat) : Option (List Byte) :=
  if keyUsable s (dB d 3) use 2 (dB d 2) && decide ((slotOf s (dB d 3)).len = len) then some (keyBytes (slotOf s (dB d 3))) else none
/-- AAD, source and destination of a job. -/
def aAad (s : State) (d : List Byte) : List Byte := sramRead s (dW d 0x18) (dW d 0x1C)
def aSrc (s : State) (d : List Byte) : List Byte := sramRead s (dW d 0x20) (dW d 0x24)
def aIv (d : List Byte) (n : Nat) : List Byte := slice d 8 n
/-- Whether GCM's ranges lie in main SRAM. -/
def gcmIn (d : List Byte) (dst : Bool) : Bool :=
  sramIn (dW d 0x18) (dW d 0x1C) && sramIn (dW d 0x20) (dW d 0x24) && (!dst || sramIn (dW d 0x28) (dW d 0x24)) && sramIn (dW d 0x30) 16

def gcmEncJob (s : State) (d : List Byte) : Nat × Outs × State :=
  if 65536 < dW d 0x1C then aFail 3 s
  else if !gcmIn d true then aFail 4 s
  else match aesKey s d 1 0 with
    | none => aFail 2 s
    | some k =>
      let ks := aesKeys k
      let c := gcmCrypt ks (aIv d 12) (aSrc s d)
      (0, { outsNone with mem := [(dW d 0x28, c), (dW d 0x30, gcmTag ks (aIv d 12) (aAad s d) c)] }, s)
def execGcmEnc (s : State) : Host.Outcome State Fault Refusal := .next (aesRow 1 gcmEncJob s)
/-- GCM_DEC: on a tag mismatch the destination range is zeros (R212). -/
def gcmDecJob (s : State) (d : List Byte) : Nat × Outs × State :=
  if 65536 < dW d 0x1C then aFail 3 s
  else if !gcmIn d true then aFail 4 s
  else match aesKey s d 2 0 with
    | none => aFail 2 s
    | some k =>
      let ks := aesKeys k
      let c := aSrc s d
      if gcmTag ks (aIv d 12) (aAad s d) c = sramRead s (dW d 0x30) 16 then
        (0, { outsNone with mem := [(dW d 0x28, gcmCrypt ks (aIv d 12) c)] }, s)
      else (1, { outsNone with mem := [(dW d 0x28, List.replicate c.length 0)] }, s)
def execGcmDec (s : State) : Host.Outcome State Fault Refusal := .next (aesRow 2 gcmDecJob s)
/-- GCM_DEC_SLOT (R179): the plaintext fills DST_SLOT with the PID of the decrypting slot, once the staged attributes meet R164. A
fixed slot as DST_SLOT gives BAD_DESC (DESIGN CHOICE, log entry 87). -/
def gcmDecSlotJob (s : State) (d : List Byte) : Nat × Outs × State :=
  let n := dW d 0x24
  let a := putFld (w32 (dW d 0x34)) 15 8 (slotOf s (dB d 3)).pid
  if 65536 < dW d 0x1C || !(n = 32 || n = 64) || attrBad (w32 (dW d 0x34)) || decide (lenBytes (fld a 29 28) ≠ n ∨ dB d 4 < 8) then aFail 3 s
  else if !gcmIn d false then aFail 4 s
  else match aesKey s d 2 0 with
    | none => aFail 2 s
    | some k =>
      if !slotEmpty s (dB d 4) then aFail 8 s
      else
        let ks := aesKeys k
        let c := aSrc s d
        if gcmTag ks (aIv d 12) (aAad s d) c = sramRead s (dW d 0x30) 16 then
          (0, { outsNone with slot := some (dB d 4, a, gcmCrypt ks (aIv d 12) c) }, s)
        else aFail 1 s
def execGcmDecSlot (s : State) : Host.Outcome State Fault Refusal := .next (aesRow 3 gcmDecSlotJob s)
/-- Data units in order, the tweak rising by 1 (R211). -/
def xtsUnits (k : List Byte) (enc : Bool) (unit : Nat) : Nat → Nat → List Byte → List Byte
  | 0, _, _ => []
  | n + 1, t, d =>
    xtsMode (k.take 32) (k.drop 32) enc (leBytes 16 (t % 2 ^ 128)) (d.take unit) ++ xtsUnits k enc unit n (t + 1) (d.drop unit)
def xtsJob (enc : Bool) (s : State) (d : List Byte) : Nat × Outs × State :=
  let unit := dW d 0x2C
  let n := dW d 0x24
  if !(unit = 512 || unit = 4096) || decide (n = 0 ∨ n % unit ≠ 0) then aFail 3 s
  else if !sramIn (dW d 0x20) n || !sramIn (dW d 0x28) n then aFail 4 s
  else match aesKey s d (if enc then 1 else 2) 2 with
    | none => aFail 2 s
    | some k => (0, { outsNone with mem := [(dW d 0x28, xtsUnits k enc unit (n / unit) (le d 8 16) (aSrc s d))] }, s)
def execXtsEnc (s : State) : Host.Outcome State Fault Refusal := .next (aesRow 4 (xtsJob true) s)
def execXtsDec (s : State) : Host.Outcome State Fault Refusal := .next (aesRow 5 (xtsJob false) s)
def ctrJob (s : State) (d : List Byte) : Nat × Outs × State :=
  if !sramIn (dW d 0x20) (dW d 0x24) || !sramIn (dW d 0x28) (dW d 0x24) then aFail 4 s
  else match aesKey s d 1 0 with
    | none => aFail 2 s
    | some k => (0, { outsNone with mem := [(dW d 0x28, ctrMode (aesKeys k) inc128 (aIv d 16) (aSrc s d))] }, s)
def execCtr (s : State) : Host.Outcome State Fault Refusal := .next (aesRow 6 ctrJob s)
/-- KW_WRAP (R178): the attribute semiblock and the key of AUX_SLOT. -/
def kwWrapJob (s : State) (d : List Byte) : Nat × Outs × State :=
  let v := slotOf s (dB d 4)
  let n := 16 + lenBytes v.len
  if !sramIn (dW d 0x28) n then aFail 4 s
  else match aesKey s d 3 0 with
    | none => aFail 2 s
    | some k =>
      let p := (slotOf s (dB d 3)).pid
      if decide (dB d 4 < 8) || slotEmpty s (dB d 4) || decide (p ≠ 0 ∧ v.pid ≠ p) then aFail 2 s
      else (0, { outsNone with mem := [(dW d 0x28, kwWrap k (beBytes 8 v.attr.toNat ++ keyBytes v))] }, s)
def execKwWrap (s : State) : Host.Outcome State Fault Refusal := .next (aesRow 7 kwWrapJob s)
/-- KW_UNWRAP (R178): integrity, semiblock, attributes and PID rule, or nothing is installed. A fixed slot as destination gives
result 8 (DESIGN CHOICE, log entry 87). -/
def kwUnwrapJob (s : State) (d : List Byte) : Nat × Outs × State :=
  let n := dW d 0x24
  if n % 8 ≠ 0 ∨ n < 16 ∨ 4104 < n then aFail 3 s
  else if !sramIn (dW d 0x20) n then aFail 4 s
  else match aesKey s d 3 0 with
    | none => aFail 2 s
    | some k =>
      if decide (dB d 4 < 8) || !slotEmpty s (dB d 4) then aFail 8 s
      else match kwUnwrap k (aSrc s d) with
        | none => aFail 7 s
        | some pt =>
          let a := w32 (beVal (slice pt 4 4))
          let p := (slotOf s (dB d 3)).pid
          if decide (beVal (slice pt 0 4) ≠ 0 ∨ pt.length ≠ 8 + lenBytes (fld a 29 28) ∨ (p ≠ 0 ∧ fld a 15 8 ≠ p)) || attrBad a then
            aFail 7 s
          else (0, { outsNone with slot := some (dB d 4, a, pt.drop 8) }, s)
def execKwUnwrap (s : State) : Host.Outcome State Fault Refusal := .next (aesRow 8 kwUnwrapJob s)
/-- DRBG_GEN (R218). The output depends on the DRBG's state and the additional input alone: it is a free value. A request that has to
wait for the entropy source stays queued (R217). -/
def drbgGenJob (s : State) (d : List Byte) : Nat × Outs × State :=
  let n := dW d 0x24
  if n = 0 ∨ 65536 < n ∨ 65536 < dW d 0x1C then aFail 3 s
  else if !sramIn (dW d 0x18) (dW d 0x1C) || !sramIn (dW d 0x28) n then aFail 4 s
  else match drbgGrant s (dB d 1 / 8 % 2 = 1) with
    | none => aFail (if s.rng.dead then 5 else 6) s
    | some s1 => (0, { outsNone with mem := [(dW d 0x28, drbgBytes s1.free n)] }, drew s1 (n / 64 + 1))
def execDrbgGen (s : State) : Host.Outcome State Fault Refusal := .next (if drbgWaits s true then s else aesRow 9 drbgGenJob s)

end Sys2Proof.Machine
end

