-- ==== Sys2Proof/Machine/CvuUnit.lean ====
section
/-! DEFINITION. The check-value units (R219 to R222, R522). -/
namespace Sys2Proof.Machine

def cvuReset : Cvu :=
  { poly := 0, width := 32, init := 0, xorout := 0, cfg := 0, running := 0, fold := 0, src := 0, len := 0, foldStep := 0,
    busy := false, memErr := false, holder := 0 }
def cvu (s : State) (u : Nat) : Cvu := smGet cvuReset s.cvu u
def setCvu (s : State) (u : Nat) (c : Cvu) : State := { s with cvu := smSet cvuReset s.cvu u c }
def Cvu.foldMode (c : Cvu) : Nat := fld c.cfg 5 4
def Cvu.widthOk (c : Cvu) : Bool := decide (3 ≤ c.width ∧ c.width ≤ 32)

/-- Bytes enter the register (R220). With a reserved WIDTH the register's value is open. -/
def cvuFeed (s : State) (u : Nat) (c : Cvu) (bs : List Byte) : State :=
  if c.widthOk then
    setCvu s u { c with running := w32 (crcFeed c.width c.poly.toNat (bitOf c.cfg 0) (c.running.toNat % 2 ^ c.width) bs) }
  else setCvu (drew s) u { c with running := w32 (freeNow s).toNat }
/-- The fold bytes (Table 7-14). -/
def foldBytes (c : Cvu) : List Byte :=
  let bs := leBytes (Nat.min 8 (fld c.cfg 11 8)) c.fold.toNat
  if bitOf c.cfg 7 then bs.reverse else bs
/-- CVU_RESULT. -/
def cvuResult (c : Cvu) : Word :=
  let r := c.running.toNat % 2 ^ c.width
  w32 (((if bitOf c.cfg 1 then reflect c.width r else r) ^^^ c.xorout.toNat) % 2 ^ c.width)
/-- A command of a unit: refused while another initiator holds it (R221). -/
def cvuCmd (w : Who) (u : BitVec 3) (off : Nat) (s : State) (k : State → Cvu → State) : Host.Outcome State Fault Refusal :=
  .next (byCore s w (fun s =>
    let c := cvu s u.toNat
    let a := 0x100 + 0x40 * u.toNat + off
    if c.holder ≠ 0 ∧ c.holder ≠ w.num + 1 then refuse s (.fab w) (.fw 7 a) (0x7000 + a) .eaccess
    else respond (k s c) (.fab w) .ok))

/-- START, from any initiator: it becomes the holder, RUNNING takes INIT, and the prefix fold is fed. -/
def cvuStart (s : State) (w : Who) (u : Nat) : State :=
  let c := { cvu s u with running := (cvu s u).init, holder := w.num + 1, busy := false }
  if c.foldMode = 1 ∨ c.foldMode = 3 then cvuFeed s u c (foldBytes c) else setCvu s u c
def execCvuStart (w : Who) (u : BitVec 3) (s : State) : Host.Outcome State Fault Refusal :=
  .next (byCore s w (fun s => respond (cvuStart s w u.toNat) (.fab w) .ok))
/-- FINISH feeds the suffix fold in mode 2, steps the fold value in mode 3, and frees the unit. -/
def cvuFinish (s : State) (u : Nat) (c : Cvu) : State :=
  let c1 := { c with holder := 0 }
  if c.foldMode = 2 then cvuFeed s u c1 (foldBytes c)
  else if c.foldMode = 3 then setCvu s u { c1 with fold := c.fold + BitVec.ofNat 64 c.foldStep.toNat }
  else setCvu s u c1
def execCvuFinish (w : Who) (u : BitVec 3) (s : State) : Host.Outcome State Fault Refusal :=
  cvuCmd w u 0x2C s (fun s c => cvuFinish s u.toNat c)
/-- The bytes in the order of DATA_ORDER, word by word. -/
def orderWords (msb : Bool) : Nat → List Byte → List Byte
  | 0, _ => []
  | n + 1, bs => (if msb then (bs.take 4).reverse else bs.take 4) ++ orderWords msb n (bs.drop 4)
/-- MEMRUN: the range is fed, and BUSY lasts until CVU_MEMRUN_DONE; a MEMRUN issued while BUSY is ignored (log entry 38). -/
def cvuMemrun (s : State) (u : Nat) (c : Cvu) : State :=
  if c.busy then s
  else if !sramIn c.src.toNat c.len.toNat then setCvu s u { c with busy := true, memErr := true }
  else cvuFeed s u { c with busy := true, memErr := false }
    (orderWords (bitOf c.cfg 6) ((c.len.toNat + 3) / 4) (sramRead s c.src.toNat c.len.toNat))
def execCvuMemrun (w : Who) (u : BitVec 3) (s : State) : Host.Outcome State Fault Refusal :=
  cvuCmd w u 0x2C s (fun s c => cvuMemrun s u.toNat c)
/-- A MEMRUN ends, with its event. -/
def cvuMemDone (s : State) (u : Nat) : State :=
  if (cvu s u).busy then fwEvent (setCvu s u { cvu s u with busy := false }) (pgFw 7) (2 ^ u) else s
def execCvuMemrunDone (u : BitVec 3) (s : State) : Host.Outcome State Fault Refusal :=
  .next (if coreOn s then cvuMemDone s u.toNat else s)
def execCvuData (w : Who) (u : BitVec 3) (data : Word) (s : State) : Host.Outcome State Fault Refusal :=
  cvuCmd w u 0x20 s (fun s c => cvuFeed s u.toNat c (orderWords (bitOf c.cfg 6) 1 (leBytes 4 data.toNat)))
def execCvuData8 (w : Who) (u : BitVec 3) (data : Byte) (s : State) : Host.Outcome State Fault Refusal :=
  cvuCmd w u 0x24 s (fun s c => cvuFeed s u.toNat c [data])

end Sys2Proof.Machine
end

