-- ==== Sys2Proof/Machine/Cbor.lean ====
section
/-! DEFINITION. CBOR items in the core deterministic encoding (R225), and the claims of a Hallmark (R226 to R231, R348). -/
namespace Sys2Proof.Machine

/-! ## CBOR (RFC 8949, 4.2.1) -/

/-- The head of an item: major type and argument in the shortest form. -/
def cborHead (major n : Nat) : List Byte :=
  let b (k : Nat) : Byte := BitVec.ofNat 8 (major * 32 + k)
  if n < 24 then [b n]
  else if n < 2 ^ 8 then b 24 :: beBytes 1 n
  else if n < 2 ^ 16 then b 25 :: beBytes 2 n
  else if n < 2 ^ 32 then b 26 :: beBytes 4 n
  else b 27 :: beBytes 8 n
def cborUint (n : Nat) : List Byte := cborHead 0 n
/-- The negative integer -1 - n. -/
def cborNeg (n : Nat) : List Byte := cborHead 1 n
def cborBytes (bs : List Byte) : List Byte := cborHead 2 bs.length ++ bs
def cborText (t : String) : List Byte := cborHead 3 (ascii t).length ++ ascii t
def cborArray (items : List (List Byte)) : List Byte := cborHead 4 items.length ++ items.flatten
def cborBool (b : Bool) : List Byte := [if b then 0xF5 else 0xF4]
/-- A map of encoded keys and values, its keys already in bytewise order. -/
def cborMap (es : List (List Byte × List Byte)) : List Byte :=
  cborHead 5 es.length ++ es.flatMap (fun e => e.1 ++ e.2)
/-- A map with rising unsigned keys. -/
def cborUmap (es : List (Nat × List Byte)) : List Byte := cborMap (es.map (fun e => (cborUint e.1, e.2)))
/-- A private-use key of KX3: -70000 - k. -/
def kxKey (k : Nat) : List Byte := cborNeg (69999 + k)

/-! ## Key pairs (Table 8-2, R229) -/

/-- The seed of a key pair: label, PID, from slot 1 or slot 0; none when the source is empty or the Shutter has fired. -/
def pairSeed (s : State) (label src pid : Nat) : Option (List Byte) :=
  if slotEmpty s src || s.sbox.shutterFired then none
  else some (deriveKey s (keyBytes (slotOf s src)) label pid 0 2)
def ecPub (seed : List Byte) : List Byte := ecBytes (ecBase (ecScalar (keyOf seed)))
def mlPub (seed : List Byte) : List Byte := (List.range 2592).map (Config.mldsaPk seed)
def devidEc (s : State) : List Byte := ((pairSeed s 0x10 1 0).map ecPub).getD []
def devidMl (s : State) : List Byte := ((pairSeed s 0x11 1 0).map mlPub).getD []
def ueid (s : State) : List Byte := 1 :: (sha384 (devidEc s)).take 32

/-! ## Claims (Table 8-1) -/

def identRow (s : State) (r : Nat) : Nat := (smGet 0 s.fuse.sensed.rows r).toNat
/-- R228. -/
def dbgstat (s : State) : Nat :=
  if s.pins.dbgEn || s.fuse.sensed.unlockActive then 0
  else if s.fuse.sensed.lcs = 6 || (s.fuse.sensed.lcs = 4 && s.fuse.sensed.noDebugUnlock) then 3 else 2
def claimLifecycle (s : State) : List Byte :=
  let z := s.fuse.sensed
  let flags := b2n z.noHostpush + 2 * b2n z.noPeer + 4 * b2n z.noRecovery + 8 * b2n z.noDebugUnlock + 16 * b2n z.sealedOnly
  cborUmap [(1, cborUint z.lcs), (2, cborBool z.kx2), (3, cborBool z.unlockActive), (4, cborUint flags), (5, cborUint z.failArea),
    (6, cborBool s.sbox.rootSubst), (7, cborUint (smGet 0 z.counters 17)), (8, cborUint s.block.num)]
def claimBoot (s : State) : List Byte :=
  let degr := b2n (s.cores.failed.getLsbD 1) + 2 * b2n (s.cores.failed.getLsbD 2) + 4 * b2n (s.cores.arrays ≠ 0xFFFF)
  cborUmap [(1, cborUint s.boot.src), (2, cborUint s.boot.keyset), (3, cborUint s.sbox.svn.toNat),
    (4, cborBytes (leBytes 48 s.sbox.meas.toNat)), (5, cborBool s.boot.fast), (6, cborUint s.boot.bootNo),
    (7, cborBool s.tmp.sleepTamper), (8, cborUint degr)]
/-- Status of a site: released, held, or deferred while its load after a fast wake has not ended. -/
def siteStatus (s : State) (k : Nat) : Nat :=
  if (siteInfo s k).released then 0 else if s.boot.loads.any (fun l => l.sites.contains k && l.why = .wake) then 2 else 1
def claimSites (s : State) (ks : List Nat) : List Byte :=
  cborArray (ks.map (fun k => let i := siteInfo s k
    cborUmap [(1, cborUint k), (2, cborUint i.cls), (3, cborUint i.svn), (4, cborBytes (slice i.meas 0 48)),
      (5, cborUint (siteStatus s k))]))
/-- The interface state in kx-partition: 255 without a virtual function. -/
def vfState (s : State) (pid : Nat) : Nat :=
  let vf := s.part.active.pVf pid
  if tenant pid && decide (vf < 64) then tdisp s vf else 255
def claimPartition (s : State) (pid : Nat) : List Byte :=
  cborUmap [(1, cborUint pid), (2, cborUint (genOf s pid)), (3, cborUint (if tenant pid then (pstate s pid).num else 7)),
    (4, cborBool (sealed s pid)), (5, cborUint (rateOf s pid)), (6, cborBool (tenant pid && s.part.active.pRsv pid)),
    (7, cborUint (vfState s pid))]
/-- The checkers that govern a region govern a region of another tenant too (R231). -/
def regionShared (s : State) (pid i : Nat) : Bool :=
  let cs := regionCheckers s s.part.active i
  s.part.active.regions.any (fun j => tenant (s.part.active.rOwner j) && decide (s.part.active.rOwner j ≠ pid) &&
    (regionCheckers s s.part.active j).any cs.contains)
/-- Entry 1: the regions. -/
def layoutRegions (s : State) (pid : Nat) : List Byte :=
  let b := s.part.active
  cborArray ((regionsOf b pid).map (fun i => cborArray [cborUint (b.rBase i), cborUint (b.rSize i / 2 ^ 21), cborUint (b.rTier i),
    cborBool (regionShared s pid i)]))
/-- Entry 8: the grants. -/
def layoutGrants (s : State) (pid : Nat) : List Byte :=
  let b := s.part.active
  let grants := (regionsOf b pid).flatMap (fun i =>
    [(i, 0, b.rG0 i), (i, 1, b.rG1 i), (i, 255, b.rGt i)].filter (fun g => decide (g.2.2 ≠ 0)))
  cborArray (grants.map (fun g => cborArray [cborUint g.1, cborUint g.2.1, cborUint g.2.2]))
def layoutMap (s : State) (pid : Nat) : List Byte :=
  let b := s.part.active
  cborUmap [
    (1, layoutRegions s pid),
    (2, cborUint (if pid = 1 then 64 else b.pTallyCount pid)), (3, cborUint (b.sources pid).length),
    (4, cborUint (vectors s pid)), (5, cborUint (b.pResets pid)), (6, cborUint (b.pTaps pid)),
    (7, cborArray ((bitsOf 128 (b.pPeers pid)).map cborUint)),
    (8, layoutGrants s pid)]
/-- kx-layout: for PID 1 every partition's, by PID (DESIGN CHOICE of the outer map: log entry 50). -/
def claimLayout (s : State) (pid : Nat) : List Byte :=
  if pid = 1 then cborUmap ((1 :: s.part.active.pids).map (fun p => (p, layoutMap s p))) else layoutMap s pid
def claimBook (s : State) : List Byte :=
  cborUmap [(1, cborUint s.epoch.curVersion), (2, cborUint (b2n s.epoch.curEp))]
/-- Keys of a PID that are in force (R247). -/
def keysInForce (s : State) (pid : Nat) : List DKey := s.att.keys.filter (fun k => decide (k.pid = pid ∧ (k.phase = 2 ∨ k.phase = 3)))
def claimKeymode (s : State) (pid : Nat) : List Byte :=
  let d := identRow s 0x388
  if s.fuse.sensed.podKeyed then
    cborUmap [(1, cborUint 1), (2, cborUint (nfld d 31 0)), (3, cborUint (nfld d 47 40)), (4, cborUint (nfld d 38 32)),
      (5, cborBool s.att.podToken)]
  else cborUmap [(1, cborUint 0), (6, cborArray ((keysInForce s pid).map (fun k => cborUint k.keyId)))]
def claimWeights (s : State) (pid : Nat) : List Byte :=
  cborArray ((List.range 17).filterMap (fun n => (weight s pid n).map (fun o =>
    cborUmap [(1, cborUint n), (2, cborUint o.len), (3, cborBytes (if o.status = 0 then o.root else [])),
      (4, cborUint (shownTime s pid o.start)), (5, cborUint (shownTime s pid o.stop)), (6, cborUint o.status)])))
/-- Table 15-11. -/
def claimAssay (s : State) (pid : Nat) : List Byte :=
  let a := apart s pid
  let off := bitmap ((List.range 16).filter (fun n => (tapPort s n).disabled && decide (s.part.active.pTaps pid / 2 ^ n % 2 = 1)))
  cborUmap [(1, cborArray ((List.range 8).map (fun v => cborUint (smGet 0 a.counts v)))), (2, cborUint a.accepted),
    (3, cborUint a.blocks), (4, cborUint a.lostB), (5, cborUint a.faults), (6, cborUint a.disagree), (7, cborUint a.lseq),
    (8, cborBytes a.chain), (9, cborUint a.slots), (10, cborUint a.quota), (11, cborUint off)]
def claimSession (v : Session) : List Byte :=
  cborUmap ([(1, cborUint v.reqId), (2, cborUint v.rspId), (3, cborBytes v.th), (4, cborBool v.kem)] ++
    (if v.kem then [(5, cborBytes v.kemHash)] else []))
/-- The decimal digits of the patch level. -/
def patchText : String := "3.1." ++ toString Config.patch.toNat
/-- The payload: the claims map for `pid`, with kx-session when the Hallmark is issued in `sess`. -/
def hallmarkPayload (s : State) (pid : Nat) (nonce : List Byte) (sess : Option Session) : List Byte :=
  let sites := if pid = 1 then List.range 16 else sitesOf s pid
  cborMap ([(cborUint 10, cborBytes nonce), (cborUint 256, cborBytes (ueid s)),
    (cborUint 259, cborBytes (leBytes 4 (nfld (identRow s 2) 31 0))),
    (cborUint 260, cborArray [cborText patchText, cborUint 1]), (cborUint 263, cborUint (dbgstat s)),
    (cborUint 265, cborText "tag:galern.invalid,2021:kx3-hallmark:1"),
    (kxKey 1, cborUint (shownTime s pid s.time)),
    (kxKey 2, cborUmap [(1, cborUint (identRow s 0)), (2, cborBytes (leBytes 8 (identRow s 1))),
      (3, cborUint (nfld (identRow s 2) 63 32)), (4, cborUint s.pins.integStrap.toNat)]),
    (kxKey 3, claimLifecycle s), (kxKey 4, claimBoot s), (kxKey 5, claimSites s sites), (kxKey 6, claimPartition s pid),
    (kxKey 7, claimLayout s pid), (kxKey 8, claimBook s), (kxKey 9, claimKeymode s pid), (kxKey 10, claimWeights s pid),
    (kxKey 11, claimAssay s pid)] ++
    (match sess with | some v => [(kxKey 12, claimSession v)] | none => []))

end Sys2Proof.Machine
end

