-- ==== Sys2Proof/Machine/Spdm.lean ====
section
/-! DEFINITION. SPDM 1.3 over a mailbox channel: carriage, sessions and their key schedule (R238 to R246). -/
namespace Sys2Proof.Machine

/-! ## Answers -/

/-- Keeps the content of an answer: the latest sixteen are kept (log entry 51). -/
def noteAnswer (s : State) (c tag : Nat) (r : SpdmRsp) : State :=
  { s with att := { s.att with answers := ((c, tag, r) :: s.att.answers).take 16 } }
/-- A byte string as body words: its length, then its bytes (R378). -/
def byteString (bs : List Byte) : List Word := w32 bs.length :: bytesToWords bs
/-- DataTransferSize (R240). -/
def dataTransferSize : Nat := 4096
/-- Whether an answer is a part of a larger one. -/
def SpdmRsp.isChunk : SpdmRsp → Bool
  | .chunk _ => true
  | _ => false
/-- An SPDM answer in a 0x0201 reply. One longer than DataTransferSize is fetched by CHUNK_GET (R239, R240). -/
def spdmReply (s : State) (c tag : Nat) (r : SpdmRsp) : State :=
  let bs := Config.spdmBytes s.free
  let s1 := drew (noteAnswer s c tag r) 2
  let (out, s2) := if dataTransferSize < bs.length && !r.isChunk then
      (Config.spdmBytes (s.free + 1),
        { s1 with att := { s1.att with chunks := smSet ([], []) s1.att.chunks c ((smGet ([], []) s1.att.chunks c).1, bs) } })
    else (bs, s1)
  reply s2 c tag 0x0201 (0 :: byteString out)
/-- The IV of a record: direction constant 1 from the requester and 2 from KX3, then the sequence number (R244). -/
def recordIv (dir seq : Nat) : List Byte := beBytes 4 dir ++ beBytes 8 seq
/-- An answer goes out as a record under the keys in force. -/
def sendRecord (s : State) (c tag : Nat) : State :=
  match session s c with
  | some v =>
    let s1 := setSession s c (some { v with sendSeq := v.sendSeq + 1 })
    { s1 with att := { s1.att with records := ((c, tag, recordIv 2 v.sendSeq) :: s1.att.records).take 16 } }
  | none => s
/-- A WSP message inside the session of the channel; without one any more, its reply is NO_SESSION. -/
def sessReply (s : State) (c tag : Nat) (body : List Word) : State :=
  match session s c with
  | some _ => spdmReply (sendRecord s c tag) c tag (.wsp body)
  | none => replyCode s c tag 0x0201 2
/-- The reply to a message that came in the clear or in a session. -/
def carReply (s : State) (c tag code : Nat) (secured : Bool) (body : List Word) : State :=
  if secured then sessReply s c tag body else reply s c tag code body
def carCode (s : State) (c tag code : Nat) (secured : Bool) (r : Nat) : State := carReply s c tag code secured [w32 (r * 2 ^ 24)]

/-! ## Carriage (R238, R246) -/

/-- A session that data records may use. -/
def sessOpen (s : State) (c : Nat) : Bool := match session s c with | some v => !v.opening | none => false
/-- A valid record arrived, under the sequence number that is due. -/
def sessTouch (s : State) (c : Nat) : State :=
  match session s c with
  | some v => setSession s c (some { v with lastRec := s.time, recvSeq := v.recvSeq + 1 })
  | none => s
/-- A record that fails its tag ends the session; the request is answered with SPDM's DecryptError (log entry 52). -/
def badRecord (s : State) (c tag : Nat) : State :=
  match session s c with
  | some _ => spdmReply (endSession (sendRecord s c tag) c) c tag (.error "DecryptError")
  | none => replyCode s c tag 0x0201 2
/-- The code and body of the WSP message in a record. -/
def innerMsg (plain : List Byte) : Nat × List Word := (hCode (w32 (le plain 0 4)), bytesToWords (plain.drop 4))
/-- Whether a request may use a channel, in the clear or inside a record (R238, Table 8-6). -/
def codePermitted (code c : Nat) : Bool := wspTable.any (fun r => r.1 = code && chanPermits r.2 c)
/-- A WSP message of Table 8-6 with CODE `code`, in the clear or in a session; `must`: it is answered NO_SESSION outside one. One
that its channel does not permit is answered ERROR (log entry 90).
`k` takes whether it came secured, its class and its body. -/
def carried (s : State) (ch : Chan) (tag : BitVec 6) (code : Nat) (car : Carriage) (must : Bool)
    (k : State → Bool → Nat → List Word → State) : State :=
  let c := ch.num
  let t := tag.toNat
  match car with
  | .clear => withRequest s ch tag code (fun s cls body => if must then replyCode s c t code 2 else k s false cls body)
  | .secured plain =>
    if (innerMsg plain).1 ≠ code then s
    else withRequest s ch tag 0x0201 (fun s cls _ =>
      if !sessOpen s c then replyCode s c t 0x0201 2
      else if codePermitted code c then k (sessTouch s c) true cls (innerMsg plain).2
      else replyError (sessTouch s c) c t 3 code)
  | .badTag => withRequest s ch tag 0x0201 (fun s _ _ => badRecord s c t)
/-- An SPDM message of a channel. `need`: it is answered only inside a session. -/
def spdmRow (s : State) (ch : Chan) (tag : BitVec 6) (car : Carriage) (need : Bool) (k : State → State × SpdmRsp) : State :=
  let c := ch.num
  withRequest s ch tag 0x0201 (fun s _ _ =>
    let go (s : State) : State := let (s1, r) := k s; spdmReply s1 c tag.toNat r
    match car with
    | .clear => if need then spdmReply s c tag.toNat (.error "SessionRequired") else go s
    | .secured _ => match session s c with
      | some v =>
        let s1 := sendRecord (sessTouch s c) c tag.toNat
        if v.opening && !need then spdmReply s1 c tag.toNat (.error "UnexpectedRequest") else go s1
      | none => replyCode s c tag.toNat 0x0201 2
    | .badTag => badRecord s c tag.toNat)

/-! ## Negotiation and certificates (R239 to R241) -/

def execGetVersion (ch : Chan) (tag : BitVec 6) (car : Carriage) (s : State) : Host.Outcome State Fault Refusal :=
  .next (spdmRow s ch tag car false (fun s => (s, .version 0x13)))
/-- The capabilities of R240. -/
def capabilityFlags : List String :=
  ["CERT_CAP", "CHAL_CAP", "MEAS_CAP with signatures", "MEAS_FRESH_CAP", "ENCRYPT_CAP", "MAC_CAP", "KEY_EX_CAP", "HBEAT_CAP",
    "KEY_UPD_CAP", "CHUNK_CAP"]
def execGetCapabilities (ch : Chan) (tag : BitVec 6) (car : Carriage) (s : State) : Host.Outcome State Fault Refusal :=
  .next (spdmRow s ch tag car false (fun s => (s, .capabilities capabilityFlags dataTransferSize 65536)))
/-- The algorithms of R240 that a request offers. -/
def algsChosen (o : AlgOffer) : List String :=
  [(o.asym, "BaseAsymAlgo ECDSA P-384"), (o.hash, "BaseHashAlgo SHA-384"), (o.meas, "MeasurementHashAlgo SHA-384"),
    (o.dhe, "DHE secp384r1"), (o.aead, "AEAD AES-256-GCM"), (o.schedule, "KeySchedule SPDM")].filterMap
    (fun x => if x.1 then some x.2 else none)
/-- A request that offers none of KX3's algorithms receives ERROR. -/
def execNegotiateAlgorithms (ch : Chan) (tag : BitVec 6) (car : Carriage) (offered : AlgOffer) (s : State) :
    Host.Outcome State Fault Refusal :=
  .next (spdmRow s ch tag car false (fun s =>
    (s, if (algsChosen offered).isEmpty then .error "InvalidRequest" else .algorithms (algsChosen offered))))

/-! ### Certificates (R229) -/

/-- The public key of a pair. -/
def pairPub (s : State) (ml label src pid : Nat) : List Byte :=
  ((pairSeed s label src pid).map (fun k => if ml = 0 then ecPub k else mlPub k)).getD []
def devidName (s : State) : String := "KX3-DEVID-" ++ String.join (((ueid s).take 8).map (fun b => hexByte b.toNat))
def aliasName (s : State) : String := "KX3-ALIAS-" ++ toString s.sbox.svn.toNat
def partName (s : State) (pid : Nat) : String := "KX3-PART-" ++ toString pid ++ "-" ++ toString (genOf s pid)
/-- The serial number: 16 bytes of the digest over the subject public key, bit 127 cleared. -/
def certSerial (key : List Byte) : List Byte :=
  match (sha384 key).take 16 with
  | b :: rest => (b &&& 0x7F) :: rest
  | [] => []
def certBody (ml : Nat) (subject : String) (key : List Byte) (issuer : String) (issuerKey : List Byte)
    (tcb : Option (String × String × Nat × List Byte)) : CertBody :=
  { version := 3, algorithm := if ml = 0 then "ecdsa-with-SHA384, P-384" else "2.16.840.1.101.3.4.3.19", subject := subject,
    key := key, issuer := issuer, issuerKey := issuerKey, serial := certSerial key, notAfter := "99991231235959Z", tcb := tcb }
/-- The three certificates of an algorithm: the self-signed device identity, the alias with its TcbInfo, the partition's. -/
def devidCert (s : State) (ml : Nat) : List Byte :=
  let key := pairPub s ml (0x10 + ml) 1 0
  Config.certDer (certBody ml (devidName s) key (devidName s) key none) s.att.certDraw
def aliasCert (s : State) (ml : Nat) : List Byte :=
  Config.certDer (certBody ml (aliasName s) (pairPub s ml (0x12 + ml) 0 0) (devidName s) (pairPub s ml (0x10 + ml) 1 0)
    (some ("Galern", "KX3", s.sbox.svn.toNat, leBytes 48 s.sbox.meas.toNat))) s.att.certDraw
def partCert (s : State) (ml pid : Nat) : List Byte :=
  Config.certDer (certBody ml (partName s pid) (pairPub s ml (0x14 + ml) 1 pid) (aliasName s) (pairPub s ml (0x12 + ml) 0 0) none)
    s.att.certDraw
/-- The chain of certificate slot `ml`: the endorsement where one is held, otherwise the device identity; the alias; the partition
of PID `pid` (R230, R241). -/
def certChain (s : State) (ml : Nat) (pid : Nat) : List Byte :=
  let endorse := if ml = 0 then s.att.endorseEc else s.att.endorseMl
  (if endorse.isEmpty then devidCert s ml else endorse) ++ aliasCert s ml ++ partCert s ml pid
def execGetDigests (ch : Chan) (tag : BitVec 6) (car : Carriage) (s : State) : Host.Outcome State Fault Refusal :=
  .next (spdmRow s ch tag car false (fun s =>
    (s, .digests [sha384 (certChain s 0 (chanPid ch.num)), sha384 (certChain s 1 (chanPid ch.num))])))
def execGetCertificate (ch : Chan) (tag : BitVec 6) (car : Carriage) (slot : BitVec 4) (s : State) :
    Host.Outcome State Fault Refusal :=
  .next (spdmRow s ch tag car false (fun s =>
    if slot.toNat ≤ 1 then (s, .certificate slot.toNat (certChain s slot.toNat (chanPid ch.num)))
    else (s, .error "InvalidRequest")))

/-! ## Signatures (R241, R243) -/

/-- The empty slots that firmware may fill, in ascending order. -/
def emptySlots (s : State) : List Nat := ((List.range 248).map (· + 8)).filter (slotEmpty s)
/-- The seed of a key pair in a transient slot, which one signing uses and which is EMPTY again after it (R229): none without an
EMPTY slot. -/
def signSeed (s : State) (label pid : Nat) : Option (List Byte) := if (emptySlots s).isEmpty then none else pairSeed s label 1 pid
/-- An ECDSA signature over a 384-bit digest with PART-EC of `pid`, verified before it is released (R200). -/
def partSign (s : State) (pid e : Nat) : Option (Nat × Nat) × State :=
  match signSeed s 0x14 pid with
  | some seed => ecSign s seed e
  | none => (none, s)
def execChallenge (ch : Chan) (tag : BitVec 6) (car : Carriage) (slot : BitVec 4) (hash : BitVec 384) (s : State) :
    Host.Outcome State Fault Refusal :=
  .next (spdmRow s ch tag car false (fun s =>
    if slot ≠ 0 then (s, .error "InvalidRequest")
    else match partSign s (chanPid ch.num) hash.toNat with
      | (some (r, t), s1) => (s1, .signed (beBytes 48 hash.toNat) r t)
      | (none, s1) => (s1, .error "Unspecified")))
/-- The blocks of Table 8-9a that exist for `pid`: index, DMTF value type, content. -/
def measBlocks (s : State) (pid : Nat) : List (Nat × String × List Byte) :=
  let sites := if pid = 1 then List.range 16 else sitesOf s pid
  [(1, "mutable firmware", leBytes 48 s.sbox.meas.toNat)] ++
    sites.map (fun k => (k + 2, "mutable firmware", slice (siteInfo s k).meas 0 48)) ++
    [(0x30, "hardware configuration", sha384 (claimLifecycle s)),
     (0x31, "firmware configuration", sha384 (claimBook s ++ claimLayout s pid))]
/-- Index 0 asks for none of the blocks, 0xFF for all. Responses are signed with slot 0 alone. -/
def execGetMeasurements (ch : Chan) (tag : BitVec 6) (car : Carriage) (param : SlotIndex) (hash : BitVec 384) (s : State) :
    Host.Outcome State Fault Refusal :=
  .next (spdmRow s ch tag car false (fun s =>
    let all := measBlocks s (chanPid ch.num)
    let bs := if param.index = 0xFF then all else all.filter (fun b => decide (b.1 = param.index.toNat))
    if param.slot ≠ 0 || (bs.isEmpty && param.index ≠ 0) then (s, .error "InvalidRequest")
    else match partSign s (chanPid ch.num) hash.toNat with
      | (some (r, t), s1) => (s1, .measurements bs r t)
      | (none, s1) => (s1, .error "Unspecified")))

/-! ## Sessions (R242 to R246, Table 8-10) -/

/-- The CTX value of R242. -/
def sessCtx (req rsp update delivery : Nat) : Nat := req + rsp * 2 ^ 16 + (update % 256) * 2 ^ 32 + (delivery % 2 ^ 24) * 2 ^ 40
/-- USE, ENGINE and LEN of a label's destination. -/
def sessAttr (label : Nat) : Nat × Nat × Nat :=
  match label with
  | 0x40 | 0x45 | 0x48 | 0x4A => (4, 3, 2)
  | 0x41 | 0x46 | 0x49 => (2, 2, 0)
  | _ => (1, 2, 0)
/-- Derives a session label into slot `n`, bound to `pid` and its current GEN. -/
def sessDerive (s : State) (n label pid ctx : Nat) (kin : List Byte) : State :=
  let (use, eng, len) := sessAttr label
  fillSlot s n 1 (mkAttr 1 len eng (genOf s pid) pid use) (deriveKey s kin label pid ctx len)
def slotKeyBytes (s : State) (n : Nat) : List Byte := keyBytes (slotOf s n)
/-- VerifyData (R243): the tag over TH with a finished key, then 32 zero bytes. -/
def verifyData (key : List Byte) (th : BitVec 384) : List Byte :=
  gcmTag (aesKeys key) (List.replicate 12 0) (beBytes 48 th.toNat) [] ++ List.replicate 32 0
/-- HeartbeatPeriod in seconds (R246). -/
def heartbeatPeriod : Nat := 30
/-- Whether a session's keys are of a generation that has passed: every key fetch for it fails R167. -/
def sessStale (s : State) (v : Session) : Bool := decide (v.gen ≠ genOf s v.pid)
/-- Sessions and handshakes in progress. -/
def sessCount (s : State) (opening : Bool) : Nat :=
  (s.att.sessions.filter (fun c => match c.2 with | some v => v.opening || !opening | none => false)).length
/-- KEY_EXCHANGE after its limits (R243): the ephemeral key and the ECDHE secret stand in slots of their own until the handshake
keys have been derived. -/
def keyExchange (s : State) (c reqId : Nat) (point : List Byte) (th : BitVec 384) : State × SpdmRsp :=
  let pid := chanPid c
  match ecPoint point with
  | none => (s, .error "InvalidRequest")
  | some q =>
    if !ecOn q then (s, .error "InvalidRequest")
    else match drbgGrant s false, emptySlots s with
      | some s0, n0 :: n1 :: n2 :: n3 :: n4 :: n5 :: n6 :: _ =>
        let rsp := (Config.freeBits (s0.free + 1)).toNat % 65536
        let e := (Config.freeBits (s0.free + 2)).toNat % 2 ^ 384
        let s1 := fillSlot (drew s0 3) n5 2 (mkAttr 2 2 1 (genOf s pid) pid 2) (drbgBytes s0.free 64)
        let d := ecScalar (slotOf s1 n5).key
        let s2 := fillSlot s1 n6 1 (mkAttr 1 1 3 (genOf s pid) pid 4) (beBytes 48 (((ecMul d q).map (fun p => p.1)).getD 0))
        let ctx := sessCtx reqId rsp 0 0
        let s3 := sessDerive s2 n0 0x40 pid ctx (slotKeyBytes s2 n6)
        let hs := slotKeyBytes s3 n0
        let s4 := [(n1, 0x41), (n2, 0x42), (n3, 0x43), (n4, 0x44)].foldl (fun u x => sessDerive u x.1 x.2 pid ctx hs) s3
        match partSign (eraseSlots s4 [n5, n6]) pid e with
        | (none, s5) => (eraseSlots s5 [n0, n1, n2, n3, n4], .error "Unspecified")
        | (some (r, t), s5) =>
          let v : Session := {
            opening := true, reqId := reqId, rspId := rsp, pid := pid, gen := genOf s pid, hsSlot := n0,
            hsKeys := [n1, n2, n3, n4], master := 0, reqKey := 0, rspKey := 0, update := 0, delivery := 0, kem := false,
            kemHash := [], th := [], lastRec := s.time }
          (setSession s5 c (some v), .keyExchange rsp heartbeatPeriod (ecBytes (ecBase d)) (verifyData (slotKeyBytes s5 n4) th) r t)
      | _, _ => (s, .error "Busy")
/-- KEY_EXCHANGE: one session per channel, 24 in all, 4 handshakes (R246). `th` is TH of the responder's VerifyData; the
digest that is signed is a free value (log entry 53). -/
def execKeyExchange (ch : Chan) (tag : BitVec 6) (car : Carriage) (param : SlotSession) (point : List Byte) (th : BitVec 384)
    (s : State) : Host.Outcome State Fault Refusal :=
  .next (spdmRow s ch tag car false (fun s =>
    if param.slot ≠ 0 then (s, .error "InvalidRequest")
    else if (session s ch.num).isSome || decide (24 ≤ sessCount s false ∨ 4 ≤ sessCount s true) then (s, .error "Busy")
    else keyExchange s ch.num param.reqId.toNat point th))
/-- Data keys from the master secret in slot `m`. -/
def dataKeys (s : State) (v : Session) (m n1 n2 update : Nat) : State :=
  let ctx := sessCtx v.reqId v.rspId update 0
  sessDerive (sessDerive s n1 0x46 v.pid ctx (slotKeyBytes s m)) n2 0x47 v.pid ctx (slotKeyBytes s m)
/-- FINISH: a wrong VerifyData ends the handshake. -/
def finish (s : State) (c : Nat) (th : BitVec 384) (verify : BitVec 384) : State × SpdmRsp :=
  match session s c with
  | none => (s, .error "UnexpectedRequest")
  | some v =>
    if !v.opening then (s, .error "UnexpectedRequest")
    else if verifyData (slotKeyBytes s (v.hsKeys.getD 2 0)) th ≠ beBytes 48 verify.toNat then
      (endSession s c, .error "DecryptError")
    else match emptySlots s with
      | n0 :: n1 :: n2 :: _ =>
        let s1 := sessDerive s n0 0x45 v.pid (sessCtx v.reqId v.rspId 0 0) (slotKeyBytes s v.hsSlot)
        let s2 := eraseSlots (dataKeys s1 v n0 n1 n2 0) v.slots
        (setSession s2 c (some { v with
          opening := false, master := n0, reqKey := n1, rspKey := n2, th := beBytes 48 th.toNat, recvSeq := 0, sendSeq := 0 }), .ok)
      | _ => (endSession s c, .error "Busy")
/-- FINISH travels in a handshake record: HANDSHAKE_IN_THE_CLEAR is not supported. -/
def execFinish (ch : Chan) (tag : BitVec 6) (car : Carriage) (th : BitVec 384) (verify : BitVec 384) (s : State) :
    Host.Outcome State Fault Refusal :=
  .next (spdmRow s ch tag car true (fun s => finish s ch.num th verify))
/-- Acts on the open session of a channel. -/
def inSession (s : State) (c : Nat) (k : Session → State × SpdmRsp) : State × SpdmRsp :=
  match session s c with
  | some v => if v.opening then (s, .error "UnexpectedRequest") else k v
  | none => (s, .error "UnexpectedRequest")
def execHeartbeat (ch : Chan) (tag : BitVec 6) (car : Carriage) (s : State) : Host.Outcome State Fault Refusal :=
  .next (spdmRow s ch tag car true (fun s => inSession s ch.num (fun _ => (s, .ok))))
/-- KEY_UPDATE (R244): the update count rises, then label 0x4A gives the new master secret and it the new data keys. A master secret
of a passed generation serves nothing, and the session ends (R167). -/
def execKeyUpdate (ch : Chan) (tag : BitVec 6) (car : Carriage) (s : State) : Host.Outcome State Fault Refusal :=
  .next (spdmRow s ch tag car true (fun s => inSession s ch.num (fun v =>
    if sessStale s v then (endSession s ch.num, .error "Unspecified")
    else match emptySlots s with
    | n0 :: n1 :: n2 :: _ =>
      let u := v.update + 1
      let s1 := sessDerive s n0 0x4A v.pid (sessCtx v.reqId v.rspId u 0) (slotKeyBytes s v.master)
      let s2 := eraseSlots (dataKeys s1 v n0 n1 n2 u) v.slots
      (setSession s2 ch.num (some { v with master := n0, reqKey := n1, rspKey := n2, update := u, recvSeq := 0, sendSeq := 0 }), .ok)
    | _ => (s, .error "Busy"))))
/-- END_SESSION: the answer goes out, and the session's slots are erased. -/
def execEndSession (ch : Chan) (tag : BitVec 6) (car : Carriage) (s : State) : Host.Outcome State Fault Refusal :=
  .next (spdmRow s ch tag car true (fun s => inSession s ch.num (fun _ => (endSession s ch.num, .ok))))
/-- CHUNK_SEND: a large request arrives in parts of at most 65,536 bytes in all. The last part leaves the
request unanswered: the row of the request that the whole spells follows under the same tag, and its answer is the one to both
(log entry 90). -/
def execChunkSend (ch : Chan) (tag : BitVec 6) (car : Carriage) (last : Bool) (bytes : List Byte) (s : State) :
    Host.Outcome State Fault Refusal :=
  let (got, left) := smGet ([], []) s.att.chunks ch.num
  let whole := got ++ bytes
  let put (t : State) (w : List Byte) : State := { t with att := { t.att with chunks := smSet ([], []) t.att.chunks ch.num (w, left) } }
  .next (if last && decide (whole.length ≤ 65536 ∧ car ≠ .badTag) && (inboxFind s ch.num tag.toNat 0x0201).isSome then put s []
    else spdmRow s ch tag car false (fun s =>
      if 65536 < whole.length then (put s [], .error "InvalidRequest") else (put s whole, .ok)))
/-- CHUNK_GET: the next part of a large answer. -/
def execChunkGet (ch : Chan) (tag : BitVec 6) (car : Carriage) (s : State) : Host.Outcome State Fault Refusal :=
  .next (spdmRow s ch tag car false (fun s =>
    let (got, left) := smGet ([], []) s.att.chunks ch.num
    if left.isEmpty then (s, .error "UnexpectedRequest")
    else
      let s1 := { s with att := { s.att with
        chunks := smSet ([], []) s.att.chunks ch.num (got, left.drop dataTransferSize) } }
      (s1, .chunk (left.take dataTransferSize))))
/-- SESSION_IDLE_TIMEOUT: 60 s without a valid record (R246). -/
def execSessionIdleTimeout (ch : Chan) (s : State) : Host.Outcome State Fault Refusal := .next (endSession s ch.num)

end Sys2Proof.Machine
end

