-- ==== Sys2Proof/Machine/Hallmark.lean ====
section
/-! DEFINITION. Issuing a Hallmark (R223 to R225, R235, R236, R523 to R526) and measuring model weights (R232 to R234). -/
namespace Sys2Proof.Machine

/-! ## The COSE_Sign structure (R223, R224) -/

def hallmarkHead : List Byte := cborUmap [(3, cborText "application/eat+cwt")]
def signHead (ml : Nat) : List Byte := cborUmap [(1, cborNeg (if ml = 0 then 34 else 49))]
/-- The encoded Sig_structure. -/
def sigStructure (ml : Nat) (payload : List Byte) : List Byte :=
  cborArray [cborText "Signature", cborBytes hallmarkHead, cborBytes (signHead ml), cborBytes [], cborBytes payload]
/-- A COSE_Signature with its kid and certificate. -/
def coseSignature (ml : Nat) (pub cert sig : List Byte) : List Byte :=
  cborArray [cborBytes (signHead ml), cborUmap [(4, cborBytes ((sha384 pub).take 16)), (33, cborBytes cert)], cborBytes sig]
/-- The bounds of a payload and of a whole Hallmark (R225). -/
def payloadMax : Nat := 49152
def hallmarkMax : Nat := 65536
/-- The Hallmark over a payload for `pid`; none when a signature cannot be made, or fails its verification twice (R200), or when
the whole is longer than R225 permits. -/
def hallmarkSign (s : State) (pid : Nat) (payload : List Byte) : Option (List Byte) × State :=
  match signSeed s 0x14 pid, signSeed s 0x15 pid with
  | some ec, some ml =>
    match ecSign s ec (beVal (sha384 (sigStructure 0 payload))) with
    | (none, s1) => (none, s1)
    | (some (r, t), s1) =>
      match mlSign s1 ml (sigStructure 1 payload) with
      | (none, s2) => (none, s2)
      | (some sigMl, s2) =>
        let sig0 := coseSignature 0 (ecPub ec) (partCert s 0 pid) (beBytes 48 r ++ beBytes 48 t)
        let sig1 := coseSignature 1 (mlPub ml) (partCert s 1 pid) sigMl
        let h := cborHead 6 98 ++ cborArray [cborBytes hallmarkHead, cborUmap [], cborBytes payload, cborArray [sig0, sig1]]
        (if hallmarkMax < h.length then none else some h, s2)
  | _, _ => (none, s)

/-! ## HALLMARK_GET (R235, R236) -/

def setPreps (s : State) (ps : List HPrep) : State := { s with att := { s.att with preps := ps } }
/-- Answers a preparation. -/
def prepReply (s : State) (p : HPrep) (r : Nat) (bs : List Byte) : State :=
  carReply s p.ch p.tag 0x0202 p.secured (w32 (r * 2 ^ 24) :: (if r = 0 then byteString bs else []))
/-- The snapshot of a preparation that waits: the lowest free place is taken, outside a commit window. A payload above the bound
of R225 is answered LIMIT (DESIGN CHOICE, log entry 89). -/
def prepTake (s : State) (p : HPrep) : State :=
  match [0, 1, 2, 3].find? (fun k => !(hmkPlace s k).held) with
  | none => s
  | some k =>
    match hmkTake s k p.pid with
    | (0, s1) =>
      let pay := hallmarkPayload s1 p.pid p.nonce (if p.secured then session s1 p.ch else none)
      if payloadMax < pay.length then
        prepReply (setPreps (setHmkPlace s1 k hmkPlaceReset) (s1.att.preps.filter (fun x => x ≠ p))) p 4 []
      else setPreps s1 (s1.att.preps.map (fun x => if x = p then { p with place := k, payload := pay } else x))
    | (3, s1) => prepReply (setPreps s1 (s1.att.preps.filter (fun x => x ≠ p))) p 1 []
    | (_, s1) => s1
/-- Every preparation that waits for a place or for the end of a commit window has its turn. -/
def pollPreps (s : State) : State :=
  (s.att.preps.filter (fun p => decide (p.place = 255))).foldl prepTake s
/-- The preparation of place `k` ends: the Hallmark is signed and answered, or STALE (R236). -/
def prepEnd (s : State) (k : Nat) (ok : Bool) : State :=
  match s.att.preps.find? (fun p => decide (p.place = k)) with
  | none => s
  | some p =>
    let s1 := setPreps s (s.att.preps.filter (fun x => x ≠ p))
    if !ok then prepReply s1 p 7 []
    else match hallmarkSign s1 p.pid p.payload with
      | (some bs, s2) => prepReply s2 p 0 bs
      | (none, s2) => prepReply s2 p 1 []
/-- No Hallmark is issued in BLANK and RETIRED (Table 4-4), nor in KX2-compatibility mode when an IDENT row does not decode (Table 4-5). -/
def noHallmarks (s : State) : Bool :=
  s.fuse.sensed.lcs = 0 || s.fuse.sensed.lcs = 6 || s.fuse.sensed.kx2 && s.fuse.sensed.bad.any (fun r => decide (r < 0x10))
/-- HALLMARK_GET: the body is the nonce, 2 to 16 words. -/
def execHallmarkGet (ch : Chan) (tag : BitVec 6) (car : Carriage) (s : State) : Host.Outcome State Fault Refusal :=
  .next (carried s ch tag 0x0202 car false (fun s sec cls body =>
    let c := ch.num
    if body.length < 2 ∨ 16 < body.length then replyError s c tag.toNat 2 0x0202
    else if !hmkPidOk s (chanPid c) || noHallmarks s then carCode s c tag.toNat 0x0202 sec 1
    else
      pollPreps (setPreps s (s.att.preps ++ [{
        place := 255, ch := c, tag := tag.toNat, cls := cls, code := 0x0202, pid := chanPid c,
        nonce := wordsToBytes body, secured := sec, payload := [] }]))))

/-! ## Weights (R232 to R234) -/

/-- Objects that a measurement is running for, in the device. -/
def weightsRunning (s : State) : Nat :=
  (s.att.weights.filter (fun c => match c.2 with | some o => decide (o.status = 1) | none => false)).length
/-- Whether every byte of a range lies in regions that the PID owns. -/
def rangeOwned (s : State) (pid base len : Nat) : Bool :=
  let part := (regionsOf s.part.active pid).map (fun i =>
    let lo := Nat.max base (s.part.active.rBase i)
    let hi := Nat.min (base + len) (s.part.active.rBase i + s.part.active.rSize i)
    hi - lo)
  decide (listSum part = len)
/-- WEIGHT_MEASURE: a request for a range that is not the PID's leaves the object with status NOT_OWNED (Table 8-4); one that meets
two measurements in progress is BUSY and leaves everything as it was (R232). The layout of its body is the model's (log entry 54): object, base, length in 64 bits each from word 1. -/
def weightMeasure (s : State) (c tag : Nat) (sec : Bool) (body : List Word) : State :=
  let pid := chanPid c
  let w (i : Nat) : Nat := (body.getD i 0).toNat
  let obj := w 0
  let base := w 1 + 2 ^ 32 * w 2
  let len := w 3 + 2 ^ 32 * w 4
  if body.length ≠ 5 then replyError s c tag 2 0x0203
  else if obj = 0 ∨ 16 < obj ∨ base % 4096 ≠ 0 ∨ len = 0 ∨ 2 ^ 40 < len then carCode s c tag 0x0203 sec 6
  else
    let o : WObj := { base := base, len := len, status := 1, phase := 0, granted := [], leaves := [], leaf := [], done := 0,
                      root := [], start := 0, stop := 0 }
    if !rangeOwned s pid base len then
      carCode (setWeight (endWeight s pid obj 2) pid obj (some { o with status := 4, phase := 2, start := s.time, stop := s.time }))
        c tag 0x0203 sec 10
    else if 2 ≤ weightsRunning s then carCode s c tag 0x0203 sec 8
    else carCode (pushJob (setWeight (endWeight s pid obj 2) pid obj (some o)) (.grantRead pid obj)) c tag 0x0203 sec 0
/-- WEIGHT_STATUS: the object's status, its times and its root (layout: log entry 54); an object without a result is
BAD_RESOURCE. -/
def execWeightStatus (ch : Chan) (tag : BitVec 6) (car : Carriage) (s : State) : Host.Outcome State Fault Refusal :=
  .next (carried s ch tag 0x0204 car false (fun s sec _ body =>
    let c := ch.num
    let pid := chanPid c
    if body.length ≠ 1 then replyError s c tag.toNat 2 0x0204
    else match weight s pid (body.headD 0).toNat with
      | none => carCode s c tag.toNat 0x0204 sec 6
      | some o =>
        let t0 := shownTime s pid o.start
        let t1 := shownTime s pid o.stop
        carReply s c tag.toNat 0x0204 sec ([w32 o.status, w32 t0, w32 (t0 / 2 ^ 32), w32 t1, w32 (t1 / 2 ^ 32)] ++
          byteString (if o.status = 0 then o.root else []))))
/-- Reads on: the next 4 KiB or what is left, of one object (R41). -/
def weightRead (s : State) (pid obj : Nat) (o : WObj) : State :=
  hipIssue s (.weight pid obj) (o.base + o.done) (Nat.min 4096 (o.len - o.done)) false []
/-- A hash lane for a measurement: the lowest that has no job, no open message and no derivation (R234 lets an object take up to
eight; the model takes one, log entry 54). -/
def weightLane (s : State) : Option Nat :=
  (List.range 16).find? (fun n =>
    let l := lane s n
    !laneRuns s n && l.queue.isEmpty && l.msg.isNone && !l.shadow)
/-- A measurement that has its grant starts to read once a lane is free. -/
def weightGo (s : State) (pid obj : Nat) : State :=
  match weight s pid obj, weightLane s with
  | some o, some n =>
    if o.status = 1 ∧ o.phase = 1 ∧ o.lane = none then
      let o1 := { o with lane := some n }
      weightRead (setWeight s pid obj (some o1)) pid obj o1
    else s
  | _, _ => s
def pollWeights (s : State) : State := s.att.weights.foldl (fun t c => weightGo t (c.1 / 32) (c.1 % 32)) s
/-- The grant's commit has ended: the measurement starts at its CLOSE, or ends STALE (log entry 54). -/
def weightGranted (s : State) (pid obj : Nat) (rs : List Nat) (ok : Bool) : State :=
  match weight s pid obj with
  | some o =>
    if o.status ≠ 1 ∨ o.phase ≠ 0 then
      (if ok && !rs.isEmpty then pushJob s (.withdrawRead pid rs) else s)
    else if !ok then setWeight s pid obj (some { o with status := 2, phase := 2, start := s.time, stop := s.time })
    else
      weightGo (setWeight s pid obj (some { o with phase := 1, granted := rs, start := s.time })) pid obj
  | none => if ok && !rs.isEmpty then pushJob s (.withdrawRead pid rs) else s
/-- One level of the tree (R233). -/
def treeLevel : List (List Byte) → List (List Byte)
  | a :: b :: rest => sha384 (1 :: (a ++ b)) :: treeLevel rest
  | l => l
/-- The root over `n` levels at most. -/
def treeRoot : Nat → List (List Byte) → List Byte
  | 0, l => l.headD []
  | n + 1, l => if l.length ≤ 1 then l.headD [] else treeRoot n (treeLevel l)
/-- A read of an object has returned. -/
def weightBytes (s : State) (pid obj : Nat) (ok : Bool) (bytes : List Byte) : State :=
  match weight s pid obj with
  | none => s
  | some o =>
    if o.status ≠ 1 ∨ o.phase ≠ 1 then s
    else if !ok then endWeight s pid obj 3
    else
      let leaf := o.leaf ++ bytes
      let done := o.done + bytes.length
      let o1 := if leaf.length = 1048576 || done = o.len then
          { o with done := done, leaf := [], leaves := o.leaves ++ [sha384 (0 :: leaf)] }
        else { o with done := done, leaf := leaf }
      if done < o.len then weightRead (setWeight s pid obj (some o1)) pid obj o1
      else setWeight (withdrawGrants s pid o1) pid obj
        (some { o1 with status := 0, phase := 2, stop := s.time, root := treeRoot 21 o1.leaves, leaves := [] })

end Sys2Proof.Machine
end

