-- ==== Sys2Proof/Machine/Deliver.lean ====
section
/-! DEFINITION. The post-quantum upgrade, key delivery and revocation, pod tokens, the endorsement, TDISP and IDE (R189 to
R191, R230, R245, R247 to R251; Tables 6-15, 6-16, 8-9, 8-11). -/
namespace Sys2Proof.Machine

/-- The byte string in a body (R378), none when its count is wrong. -/
def bodyBytes (body : List Word) : Option (List Byte) :=
  match body with
  | [] => none
  | n :: ws => if (n.toNat + 3) / 4 = ws.length then some ((wordsToBytes ws).take n.toNat) else none

/-! ## KEM_UPGRADE (R245) -/

def kemUpgrade (s : State) (c tag : Nat) (body : List Word) : State :=
  match session s c with
  | none => replyCode s c tag 0x0201 2
  | some v =>
    let ek := wordsToBytes body
    if v.kem then sessReply s c tag [w32 (1 * 2 ^ 24)]
    else if sessStale s v then endSession (sessReply s c tag [w32 (7 * 2 ^ 24)]) c
    else if body.length ≠ 392 || !Config.mlkemKeyOk ek then sessReply s c tag [w32 (9 * 2 ^ 24)]
    else match drbgGrant s true, emptySlots s with
      | some s0, n0 :: n1 :: n2 :: n3 :: _ =>
        let m := BitVec.ofNat 256 (freeNow s0).toNat
        let cipher := (List.range 1568).map (Config.mlkemCipher ek m)
        let u := v.update + 1
        let sk := fillSlot (drew s0) n3 1 (mkAttr 1 0 3 (genOf s v.pid) v.pid 4) (leBytes 32 (Config.mlkemSecret ek m).toNat)
        let s1 := eraseSlot (sessDerive sk n0 0x48 v.pid (sessCtx v.reqId v.rspId u 0) (slotKeyBytes sk v.master ++ slotKeyBytes sk n3)) n3
        -- the reply goes out under the old data keys
        let s2 := sessReply s1 c tag (0 :: bytesToWords cipher)
        let s3 := eraseSlots (dataKeys s2 v n0 n1 n2 u) v.slots
        setSession s3 c (some { v with
          master := n0, reqKey := n1, rspKey := n2, update := u, kem := true, kemHash := sha384 cipher, lastRec := s.time,
          recvSeq := 0, sendSeq := 0 })
      | _, _ => sessReply s c tag [w32 (4 * 2 ^ 24)]
def execKemUpgrade (ch : Chan) (tag : BitVec 6) (car : Carriage) (s : State) : Host.Outcome State Fault Refusal :=
  .next (carried s ch tag 0x0205 car true (fun s _ _ body => kemUpgrade s ch.num tag.toNat body))

/-! ## KEY_DELIVER (R247, R248) -/

/-- The agents of a kind, present, in ascending order. -/
def kindAgents (s : State) (k : Nat) : List Nat := (s.cpb.agents.filter (fun c => c.2.present && decide (c.2.kind = k))).map (fun c => c.1)
/-- The agent that serves a target, when it is assigned to `pid` (log entry 55). -/
def keyAgent (s : State) (oper : Bool) (pid purpose target : Nat) : Option Nat :=
  match purpose with
  | 1 => if (regionsOf s.part.active pid).any (fun i => decide (s.part.active.rTier i = 2 ∧ s.part.active.rPort i = target)) then
      (kindAgents s 4)[target]? else none
  | 2 => if nfld target 7 0 < 128 ∧ s.part.active.pPeers pid / 2 ^ nfld target 7 0 % 2 = 1 then
      (kindAgents s 5)[nfld target 15 8]? else none
  | 3 => if oper && decide (target < 4096) then (kindAgents s 8).head? else none
  | _ => none
/-- The lowest key index of an agent that no key uses (R186). -/
def freeIndex (s : State) (a : Nat) : Option Nat :=
  (List.range 256).find? (fun i => s.att.keys.all (fun k => decide (k.agent ≠ a ∨ k.index ≠ i)))
/-- The code that refuses a KEY_DELIVER before its tag is checked, or 0 (R248). A generation change that came first gives STALE, before
the state that the Quench has left. -/
def deliverRefused (s : State) (v : Session) (c : Nat) (bs : List Byte) : Nat :=
  let pid := chanPid c
  let purpose := le bs 0 1
  let n := if purpose = 1 then 104 else 72
  if !v.kem then 3
  else if s.fuse.sensed.podKeyed && decide (purpose = 1 ∨ purpose = 2) then 5
  else if bs.length ≠ n ∨ 3 ≤ le bs 1 1 ∨ (keyAgent s (operChan c) pid purpose (le bs 2 2)).isNone then 6
  else if sessStale s v then 7
  else if (!operChan c && pstate s pid ≠ .running) || decide (le bs 8 4 ≠ v.delivery + 1) then 1
  else if 8 ≤ (s.att.keys.filter (fun k => decide (k.pid = pid))).length ∨ 128 ≤ s.att.keys.length then 4
  else 0
/-- The key in a delivery: label 0x49 with the delivery count, then GCM over bytes 0 to 11. -/
def deliverOpen (s : State) (v : Session) (bs : List Byte) : Option (List Byte) :=
  let dk := deriveKey s (slotKeyBytes s v.master) 0x49 v.pid (sessCtx v.reqId v.rspId v.update (le bs 8 3)) 0
  let ks := aesKeys dk
  let ct := bs.drop 40
  if gcmTag ks (slice bs 12 12) (slice bs 0 12) ct = slice bs 24 16 then some (gcmCrypt ks (slice bs 12 12) ct) else none
def keyDeliver (s : State) (c tag cls : Nat) (body : List Word) : State :=
  match session s c, bodyBytes body with
  | none, _ => replyCode s c tag 0x0201 2
  | _, none => sessReply s c tag [w32 (6 * 2 ^ 24)]
  | some v, some bs =>
    let pid := chanPid c
    let r := deliverRefused s v c bs
    if r = 7 then endSession (sessReply s c tag [w32 (7 * 2 ^ 24)]) c
    else if r ≠ 0 then sessReply s c tag [w32 (r * 2 ^ 24)]
    else match deliverOpen s v bs, keyAgent s (operChan c) pid (le bs 0 1) (le bs 2 2), emptySlots s with
      | none, _, _ => sessReply s c tag [w32 (9 * 2 ^ 24)]
      | some key, some a, n :: _ =>
        match freeIndex s a with
        | none => sessReply s c tag [w32 (4 * 2 ^ 24)]
        | some i =>
          let s1 := fillSlot s n 3 (mkAttr 3 (if le bs 0 1 = 1 then 2 else 0) 4 (genOf s pid) pid 1) key
          let k : DKey := { pid := pid, keyId := le bs 4 4, purpose := le bs 0 1, dir := le bs 1 1, target := le bs 2 2, slot := n,
                            agent := a, index := i, asker := some (c, tag, cls), phase := 0 }
          keyDeliverFrames (setKeys (setSession s1 c (some { v with delivery := v.delivery + 1, lastRec := s.time }))
            (s1.att.keys ++ [k])) k
      | _, _, _ => sessReply s c tag [w32 (4 * 2 ^ 24)]
def execKeyDeliver (ch : Chan) (tag : BitVec 6) (car : Carriage) (s : State) : Host.Outcome State Fault Refusal :=
  .next (carried s ch tag 0x0206 car true (fun s _ cls body => keyDeliver s ch.num tag.toNat cls body))
/-- Answers the asker of a key. -/
def keyAnswer (s : State) (k : DKey) (r : Nat) : State :=
  match k.asker with
  | some (c, tag, _) => sessReply s c tag [w32 (r * 2 ^ 24)]
  | none => s
def keyPut (s : State) (k : DKey) (k' : Option DKey) : State :=
  setKeys s (s.att.keys.filterMap (fun x => if x = k then k' else some x))
/-- A delivery that its agent refused: the slot is erased, and AUTH_FAIL is answered (log entry 55). -/
def keyNaked (s : State) (a : Nat) : State :=
  match s.att.keys.find? (fun k => decide (k.agent = a ∧ k.phase = 0)) with
  | some k => keyAnswer (eraseSlot (keyPut s k none) k.slot) k 9
  | none => s
/-- The frames of a key have ended: a delivered key waits for the commit that references it; an erased one is gone. -/
def keyStep (s : State) (k : DKey) : State :=
  if !cpbIdle s (.key k.agent) then s
  else match k.phase with
    | 0 => pushJob (keyPut s k (some { k with phase := 1 })) (.keys k.pid)
    | 4 => keyAnswer (eraseSlot (keyPut s k none) k.slot) k 0
    | _ => s
def pollKeys (s : State) : State := s.att.keys.foldl keyStep s
/-- The commit of a PID's key references has ended. -/
def keysCommitted (s : State) (pid : Nat) (ok : Bool) : State :=
  (s.att.keys.filter (fun k => decide (k.pid = pid))).foldl (fun t k =>
    match k.phase with
    | 1 =>
      if ok then keyAnswer (keyPut t k (some { k with phase := 2, asker := none })) k 0
      else keyAnswer (eraseSlot (keyErase (keyPut t k none) k.agent k.index k.keyId) k.slot) k 11
    | 3 =>
      if ok then keyErase (keyPut t k (some { k with phase := 4 })) k.agent k.index k.keyId
      else keyAnswer (keyPut t k (some { k with phase := 2, asker := none })) k 11
    | _ => t) s
/-- KEY_REVOKE: its body is the KEY_ID (log entry 55); an identifier that no key in force of the PID has is BAD_RESOURCE. -/
def keyRevoke (s : State) (c tag cls : Nat) (body : List Word) : State :=
  match s.att.keys.find? (fun k => decide (k.pid = chanPid c ∧ k.keyId = (body.headD 0).toNat ∧ k.phase = 2)) with
  | none => sessReply s c tag [w32 (6 * 2 ^ 24)]
  | some k => pushJob (keyPut s k (some { k with phase := 3, asker := some (c, tag, cls) })) (.keys k.pid)

/-! ## IDENT_ENDORSE (R230) -/

/-- One DER element: its tag, its content, and what follows. -/
def derTlv (bs : List Byte) : Option (Nat × List Byte × List Byte) :=
  match bs with
  | t :: l :: rest =>
    let n := l.toNat
    if n < 128 then (if n ≤ rest.length then some (t.toNat, rest.take n, rest.drop n) else none)
    else
      let k := n - 128
      let len := beVal (rest.take k)
      let body := rest.drop k
      if k = 0 ∨ 4 < k ∨ rest.length < k ∨ body.length < len then none else some (t.toNat, body.take len, body.drop len)
  | _ => none
/-- The elements of a constructed content. -/
def derItems : Nat → List Byte → List (Nat × List Byte)
  | 0, _ => []
  | n + 1, bs => match derTlv bs with
    | some (t, c, rest) => (t, c) :: derItems n rest
    | none => []
/-- The subject public key of an X.509 certificate. -/
def certPublicKey (der : List Byte) : Option (List Byte) :=
  match derTlv der with
  | some (0x30, cert, _) =>
    match derItems 3 cert with
    | (0x30, tbs) :: _ =>
      let fields := (derItems 12 tbs).filter (fun f => decide (f.1 ≠ 0xA0))
      match derItems 2 (fields.getD 5 (0, [])).2 with
      | _ :: (0x03, _ :: key) :: _ => some key
      | _ => none
    | _ => none
  | _ => none
def identEndorse (s : State) (c tag : Nat) (body : List Word) : State :=
  match bodyBytes body with
  | none => replyError s c tag 2 0x0208
  | some der =>
    if certPublicKey der = some (devidEc s) then
      replyCode { s with att := { s.att with endorseEc := der } } c tag 0x0208 0
    else if certPublicKey der = some (devidMl s) then
      replyCode { s with att := { s.att with endorseMl := der } } c tag 0x0208 0
    else replyCode s c tag 0x0208 9
def execIdentEndorse (ch : Chan) (tag : BitVec 6) (s : State) : Host.Outcome State Fault Refusal :=
  .next (withRequest s ch tag 0x0208 (fun s _ body => identEndorse s ch.num tag.toNat body))

/-! ## POD_TOKEN (R190, Tables 6-15, 6-16) -/

/-- The package index and pod identifier of row 0x388. -/
def packageIndex (s : State) : Nat := nfld (identRow s 0x388) 38 32
/-- The engines that need a pod key (R191): purpose, target (the link number or CXL port), agent and CTX at rekey count 0. A link
engine has one when a partition has its peer, a Tier C engine when a partition has a region of its port (log entry 88). -/
def podWants (s : State) : List (Nat × Nat × Nat × Nat) :=
  let b := s.part.active
  let me := packageIndex s
  let links := (List.range (kindAgents s 5).length).filterMap (fun l =>
    let k := Config.linkPeer l % 128
    if b.pids.any (fun p => decide (b.pPeers p / 2 ^ k % 2 = 1)) then
      (kindAgents s 5)[l]?.map (fun a => (2, l * 256 + k, a, Nat.min me k + 256 * Nat.max me k + 65536 * l))
    else none)
  let ports := (List.range (kindAgents s 4).length).filterMap (fun n =>
    if b.regions.any (fun i => decide (b.rTier i = 2 ∧ b.rPort i = n) && tenant (b.rOwner i)) then
      (kindAgents s 4)[n]?.map (fun a => (1, n, a, me + 256 * n))
    else none)
  links ++ ports
/-- Derives one pod key from the pod master, binds it to PID 0, and delivers it; without room nothing happens. -/
def podKey (master : Nat) (s : State) (x : Nat × Nat × Nat × Nat) : State :=
  let (purpose, target, a, ctx) := x
  let len := if purpose = 1 then 2 else 0
  if s.att.keys.any (fun k => decide (k.pid = 0 ∧ k.purpose = purpose ∧ k.target = target ∧ k.agent = a)) then s
  else match emptySlots s, freeIndex s a with
    | n :: _, some i =>
      let s1 := fillSlot s n 1 (mkAttr 1 len 4 0 0 1) (deriveKey s (slotKeyBytes s master) (if purpose = 1 then 0x21 else 0x20) 0 ctx len)
      let k : DKey := { pid := 0, keyId := target, purpose := purpose, dir := 0, target := target, slot := n, agent := a, index := i,
                        asker := none, phase := 0 }
      keyDeliverFrames (setKeys s1 (s1.att.keys ++ [k])) k
    | _, _ => s
/-- In pod-keyed mode, once the pod master is there: the keys that the current version needs, and no others. -/
def podKeys (s : State) : State :=
  match (if s.fuse.sensed.podKeyed then ((List.range 256).find? (isPodMaster s)) else none) with
  | none => s
  | some n =>
    let ws := podWants s
    let s1 := dropKeys s (fun k => decide (k.pid = 0 ∧ k.phase = 2) && ws.all (fun x => decide (x.1 ≠ k.purpose ∨ x.2.1 ≠ k.target)))
    ws.foldl (podKey n) s1
/-- Steps 1 to 5: the unwrapped attributes and pod master, or none. -/
def podOpen (s : State) (bs : List Byte) : Option (List Byte) :=
  let a := leBytes 32 (Config.mlkemDecaps (keyBytes (slotOf s 3)) (slice bs 12 1568)).toNat
  match ecPoint (slice bs 1580 97) with
  | none => none
  | some q =>
    if !ecOn q || slotEmpty s 3 || slotEmpty s 4 then none
    else
      let b := beBytes 48 (((ecMul (ecScalar (slotOf s 4).key) q).map (fun p => p.1)).getD 0)
      let ctx := le bs 4 4 + 2 ^ 32 * le bs 8 1
      kwUnwrap (deriveKey s (a ++ b) 0x05 0 ctx 0) (slice bs 1680 80)
/-- The attributes that the semiblock carries, and whether they are those that the pod master must carry (R164, R178). -/
def podAttr (semi : List Byte) : Word := w32 (beVal (slice semi 4 4))
def podAttrOk (semi : List Byte) : Bool :=
  let a := podAttr semi
  decide (beVal (slice semi 0 4) = 0 ∧ fld a 2 0 = 4 ∧ fld a 27 24 = 3 ∧ fld a 15 8 = 0 ∧ fld a 29 28 = 2) && !attrBad a
/-- The import takes four EMPTY slots: A, B, the key-encryption slot and the pod master's own, the lowest; the first three are
EMPTY again after step 6 (log entry 88). -/
def podToken (s : State) (c tag : Nat) (body : List Word) : State :=
  match bodyBytes body with
  | none => replyError s c tag 2 0x0102
  | some bs =>
    let d := identRow s 0x388
    let r (n : Nat) (s : State) : State := replyCode s c tag 0x0102 n
    if !s.fuse.sensed.podKeyed then r 5 s
    else if le bs 4 4 ≠ nfld d 31 0 ∨ le bs 8 1 ≠ packageIndex s then r 6 s
    else if bs.length ≠ 1760 ∨ slice bs 0 4 ≠ [0x4B, 0x58, 0x50, 0x54] ∨ le bs 9 3 ≠ 0 ∨ le bs 1677 3 ≠ 0 then r 9 s
    else match podOpen s bs, emptySlots s with
      | none, _ => r 9 s
      | some plain, n :: _ :: _ :: _ :: _ =>
        if plain.length = 72 && podAttrOk plain then
          let s1 := fillSlot s n 3 (podAttr plain) (plain.drop 8)
          r 0 (podKeys { s1 with att := { s1.att with podToken := true } })
        else r 9 s
      | some _, _ => r 4 s
def execPodToken (ch : Chan) (tag : BitVec 6) (s : State) : Host.Outcome State Fault Refusal :=
  .next (withRequest s ch tag 0x0102 (fun s _ body => podToken s ch.num tag.toNat body))

/-! ## TDISP (R249, R250, Table 8-9) -/

/-- A TDISP or IDE_KM request: on operator channel 3, inside a session, from the session that holds the TSM role. The first
session that sends a TDISP request after a reset takes the role and holds it until it ends; no other session gets it (R249). -/
def tsmRow (s : State) (ch : Chan) (tag : BitVec 6) (car : Carriage) (tdispReq : Bool) (k : State → State × SpdmRsp) : State :=
  spdmRow s ch tag car true (fun s =>
    if ch ≠ .oper 3 then (s, .error "UnsupportedRequest")
    else inSession s ch.num (fun _ =>
      if s.att.tsm then k s
      else if tdispReq && !s.att.tsmTaken then k { s with att := { s.att with tsm := true } }
      else (s, .error "UnsupportedRequest")))
def execGetTdispVersion (ch : Chan) (tag : BitVec 6) (car : Carriage) (s : State) : Host.Outcome State Fault Refusal :=
  .next (tsmRow s ch tag car true (fun s => (s, .tdispVersion)))
def execGetTdispCapabilities (ch : Chan) (tag : BitVec 6) (car : Carriage) (s : State) : Host.Outcome State Fault Refusal :=
  .next (tsmRow s ch tag car true (fun s => (s, .tdispCapabilities)))
/-- The partition that a virtual function belongs to. -/
def vfOwner (s : State) (vf : Nat) : Option Nat := s.part.active.pids.find? (fun p => decide (s.part.active.pVf p = vf))
/-- A request that names a function: one that no partition has is refused. -/
def vfRow (s : State) (vf : Nat) (k : Nat → State × SpdmRsp) : State × SpdmRsp :=
  match vfOwner s vf with
  | some p => k p
  | none => (s, .error "InvalidInterface")
def execLockInterfaceRequest (ch : Chan) (tag : BitVec 6) (car : Carriage) (vf : BitVec 6) (s : State) :
    Host.Outcome State Fault Refusal :=
  .next (tsmRow s ch tag car true (fun s => vfRow s vf.toNat (fun p =>
    if tdisp s vf.toNat = 0 ∧ pstate s p = .running then (setTdisp s vf.toNat 1, .locked vf.toNat)
    else (s, .error "InvalidInterfaceState"))))
/-- The report: PID, GEN, version, ueid and the digest of PART-EC's public key, then its one MMIO range, the partition window with the
TEE attribute (R250). It is valid in CONFIG_LOCKED and RUN. -/
def execGetDeviceInterfaceReport (ch : Chan) (tag : BitVec 6) (car : Carriage) (vf : BitVec 6) (s : State) :
    Host.Outcome State Fault Refusal :=
  .next (tsmRow s ch tag car true (fun s => vfRow s vf.toNat (fun p =>
    if tdisp s vf.toNat = 1 ∨ tdisp s vf.toNat = 2 then
      (s, .report p (genOf s p) s.epoch.curVersion (ueid s) (sha384 (((pairSeed s 0x14 1 p).map ecPub).getD []))
        (winBase p) 0x10000 true)
    else (s, .error "InvalidInterfaceState"))))
def execGetDeviceInterfaceState (ch : Chan) (tag : BitVec 6) (car : Carriage) (vf : BitVec 6) (s : State) :
    Host.Outcome State Fault Refusal :=
  .next (tsmRow s ch tag car true (fun s => vfRow s vf.toNat (fun _ => (s, .ifState vf.toNat (tdisp s vf.toNat)))))
/-- Whether a stream holds keys in both directions. -/
def streamKeyed (s : State) (stream : Nat) : Bool :=
  let ks := s.att.keys.filter (fun k => decide (k.purpose = 3 ∧ k.phase = 2 ∧ nfld k.target 7 0 = stream))
  ks.any (fun k => k.dir = 0) || (ks.any (fun k => k.dir = 1) && ks.any (fun k => k.dir = 2))
def execStartInterfaceRequest (ch : Chan) (tag : BitVec 6) (car : Carriage) (vf : BitVec 6) (s : State) :
    Host.Outcome State Fault Refusal :=
  .next (tsmRow s ch tag car true (fun s => vfRow s vf.toNat (fun _ =>
    if tdisp s vf.toNat = 1 ∧ streamKeyed s (Config.streamOf vf.toNat % 256) then (setTdisp s vf.toNat 2, .ok)
    else (s, .error "InvalidInterfaceState"))))
def execStopInterfaceRequest (ch : Chan) (tag : BitVec 6) (car : Carriage) (vf : BitVec 6) (s : State) :
    Host.Outcome State Fault Refusal :=
  .next (tsmRow s ch tag car true (fun s => vfRow s vf.toNat (fun _ => (setTdisp s vf.toNat 0, .ok))))

/-! ## IDE_KM (R251) -/

def execQuery (ch : Chan) (tag : BitVec 6) (car : Carriage) (s : State) : Host.Outcome State Fault Refusal :=
  .next (tsmRow s ch tag car false (fun s => (s, .ideOk)))
def setStream (s : State) (stream : Nat) (keySet on : Bool) : State :=
  { s with att := { s.att with streams := smSet false s.att.streams (2 * stream + b2n keySet) on } }
def execKSetGo (ch : Chan) (tag : BitVec 6) (car : Carriage) (stream : Byte) (keySet : Bool) (s : State) :
    Host.Outcome State Fault Refusal :=
  .next (tsmRow s ch tag car false (fun s => (setStream s stream.toNat keySet true, .ideOk)))
/-- K_SET_STOP: every assigned function of the stream goes to ERROR (Table 8-9). -/
def execKSetStop (ch : Chan) (tag : BitVec 6) (car : Carriage) (stream : Byte) (keySet : Bool) (s : State) :
    Host.Outcome State Fault Refusal :=
  .next (tsmRow s ch tag car false (fun s =>
    let vfs := (s.part.active.pids.map s.part.active.pVf).filter (fun v =>
      decide (v < 64) && decide (Config.streamOf v % 256 = stream.toNat))
    (vfs.foldl (fun t v => setTdisp t v 3) (setStream s stream.toNat keySet false), .ideOk)))
/-- KEY_PROG programs nothing. -/
def execKeyProg (ch : Chan) (tag : BitVec 6) (car : Carriage) (s : State) : Host.Outcome State Fault Refusal :=
  .next (tsmRow s ch tag car false (fun s => (s, .ideFail)))

end Sys2Proof.Machine
end

