-- ==== Sys2Proof/Machine/Reset.lean ====
section
/-! DEFINITION. Resets and S0: what each reset of KX3 clears and keeps, and the sense sequence (R67, R109 to R112, R116, R128,
Tables 4-5, 18-5). -/
namespace Sys2Proof.Machine

/-! ## What survives a reset of the core island -/

/-- The boot complex after a reset of the core island: retained SRAM and the held fields stay; the armed digest stays when the
reset is that of a wake (R157, R505). -/
def Boot.kept (b : Boot) (wake : Bool) : Boot :=
  { Boot.reset with
    attempts := b.attempts, wdog := b.wdog, wakeStart := wake, armed := b.armed && wake,
    sleepDigest := if wake then b.sleepDigest else [], bootNo := b.bootNo, jnext := b.jnext, journal := b.journal,
    journalOk := b.journalOk, cache := b.cache, image := b.image, wakeRec := b.wakeRec, afterPor := false }
/-- The TMP page: held fields stay; the timing band and the temperature are inputs. -/
def Tamper.kept (t : Tamper) : Tamper :=
  { Tamper.reset with
    alarm := t.alarm, pend := t.pend, sleepTamper := t.sleepTamper, raw := t.raw, first := t.first, alarms := t.alarms,
    band := t.band, slowest := t.band, tj := t.tj }
/-- The fuse array and its always-on latches. -/
def Fuse.kept (f : Fuse) : Fuse :=
  { Fuse.reset with
    cells := f.cells, marginal := f.marginal, window := f.window, stage := f.stage, unlockLatch := f.unlockLatch,
    interrupted := f.interrupted }
/-- The held fields of the PWR page and the wake latch. -/
def Pwr.kept (p : Pwr) : Pwr :=
  { Pwr.reset with
    lastFast := p.lastFast, lastCold := p.lastCold, reason := p.reason, wakes := p.wakes, fastWakes := p.fastWakes,
    wakeLatch := p.wakeLatch }
/-- The inputs of the block. -/
def Pins.kept (p : Pins) : Pins :=
  { Pins.reset with
    pdStatus := p.pdStatus, siteReady := p.siteReady, sitePresent := p.sitePresent, integStrap := p.integStrap,
    tmpIn := p.tmpIn, wiring := p.wiring }

/-- A reset of the core island (R67): a fuse operation stops with no result recorded (R117), and every agent's SEQ returns to 0
with the rest of the CPB state (R551). -/
def coreReset (s0 : State) (wake : Bool) : State :=
  let s := fuseStopFree (startRecord s0) 0
  let r : State := { State.reset with
    time := s.time, free := s.free, pins := s.pins.kept, tmp := s.tmp.kept, pwr := s.pwr.kept,
    ledger := ledgerAfterReset s.ledger, fuse := s.fuse.kept, boot := s.boot.kept wake, pending := s.pending
    part := { Part.reset with versions := s.part.versions, bookTag := s.part.bookTag }
    att := { Att.reset with sealedArea := s.att.sealedArea } }
  setReg r 0x4C (w32 (fld (reg s 0x4C) 15 8 * 256))
/-- KX_POR_N (R67): the always-on latches go too; retained SRAM and the fuses stay, and the Ledger's writer scans (R489). -/
def porReset (s0 : State) : State :=
  let s := coreReset s0 false
  let t : State := { s with
    time := 0, ledger := ledgerScan s0.ledger, tmp := { Tamper.reset with raw := s.tmp.raw, band := s.tmp.band, slowest := s.tmp.band, tj := s.tmp.tj },
    pwr := Pwr.reset, fuse := { s.fuse with stage := none, unlockLatch := false, interrupted := 0 },
    boot := { s.boot with attempts := 0, wdog := false, afterPor := true } }
  setReg t 0x4C 0

/-- KX_POR_N at 0. -/
def execKxPorNAssert (s : State) : Host.Outcome State Fault Refusal := .next (porReset s)

/-- KX_RST_N at 0. In SENSE it is counted (R110); in SLEEP it counts as a wake whose start is never fast (R505). -/
def execKxRstNAssert (s : State) : Host.Outcome State Fault Refusal :=
  let asleep := s.block = .sleep
  let s1 := if s.block = .sense then
      { s with fuse := { s.fuse with interrupted := satAdd 255 s.fuse.interrupted 1 } } else s
  let s2 := coreReset s1 false
  .next (if asleep then
    { s2 with boot := { s2.boot with wakeStart := true }, pwr := { s2.pwr with wakes := satAdd 65535 s2.pwr.wakes 1 } }
  else s2)

/-- The watchdog fires: 4 s of BOOT without a write to BOOT_STEP, outside HOSTWAIT (R128). The armed digest
stays: R157 does not list this reset. -/
def execBootWatchdog (s : State) : Host.Outcome State Fault Refusal :=
  .next (if s.block = .boot && !s.boot.hostWait then
    let s1 := coreReset s false
    { s1 with boot := { s1.boot with wdog := true, armed := s.boot.armed, sleepDigest := s.boot.sleepDigest } }
  else s)

/-- RESET is left: SENSE begins, the reuse rule counts from now (R322), and the wake latch is cleared (R505). Core-island latches
hold their reset values up to here: what a Shutter during RESET erased stays erased, but SHUTTER_FIRED does not hold (R181, R474). -/
def execResetExit (s : State) : Host.Outcome State Fault Refusal :=
  .next (if s.block = .reset then
    let s1 := topEvent { s with
      block := .sense
      tmp := { s.tmp with shutter := false }
      sbox := { s.sbox with shutterFired := false }
      rng := { s.rng with dead := false }
      part := { s.part with start := s.time, left := [] }
      pins := { s.pins with xspiResetN := true }
      pwr := { s.pwr with wakeLatch := false } } 1
    s1
  else s)

/-- The sense bias is not ready within 20 us. -/
def execSenseBiasTimeout (s : State) : Host.Outcome State Fault Refusal :=
  .next (if s.block = .sense then haltWith s 0x10 else s)

/-- FUSE_SENSE_STAT (Table 4-12). -/
def senseStat (s : State) : Nat :=
  let z := s.fuse.sensed
  s.fuse.interrupted * 2 ^ 24 + z.mismatch * 2 ^ 20 + b2n z.highSens * 2 ^ 19 + b2n z.integFail * 2 ^ 18 + z.corrected * 256 +
    z.failArea * 16

end Sys2Proof.Machine
end

