-- ==== Sys2Proof/Machine/Boot.lean ====
section
/-! DEFINITION. Boot steps S1 to S11: self-test, root, image sources, lock and handover, the boot layout, the census, the restore
and RUN (R125 to R162, R168, R169, R278). What waits for something outside is left in `Boot.pos`. -/
namespace Sys2Proof.Machine

/-! ## Steps and their journal records -/

/-- BOOT_STEP at the start of a step, and its START record (R127, R151). -/
def stepStart (s : State) (n src : Nat) : State :=
  journal { s with boot := { s.boot with step := n, site := 0xFF } } n 1 src 0xFF 0
def stepDone (s : State) (n src : Nat) : State := journal s n 2 src 0xFF 0
def setPos (s : State) (p : BootAt) : State := { s with boot := { s.boot with pos := p } }

/-! ## The journal (R152, R153) -/

/-- The bytes of a record (Table 5-11) without its CRC. -/
def JRec.body (r : JRec) : List Byte :=
  leBytes 6 r.time.toNat ++ leBytes 2 r.boot ++ leBytes 1 r.step ++ leBytes 1 r.event ++
  leBytes 1 (if r.src = 0xF then 0xFF else r.src) ++ leBytes 1 r.site ++ leBytes 1 r.reason ++ leBytes 1 r.attempt ++ [0, 0] ++
  leBytes 12 r.detail.toNat
/-- Bytes with their CRC-32C behind them (R151). -/
def withCrc (bs : List Byte) : List Byte := bs ++ leBytes 4 (crc32c bs).toNat
/-- Entry 0: the magic, version 1, the boot number, the next entry. -/
def journalHeader (b : Boot) : List Byte :=
  withCrc (leBytes 4 0x4B584A4C ++ leBytes 2 1 ++ leBytes 2 b.bootNo ++ leBytes 2 b.jnext ++ List.replicate 18 0)
/-- The 32 bytes of an entry as they stand in retained SRAM; those of a damaged one are open (log entry 75). -/
def journalEntry (b : Boot) (k : Nat) : List Byte :=
  if k = 0 then (if b.journalOk then journalHeader b else (List.range 32).map (Config.damagedRec 4096))
  else match smGet none b.journal k with
    | some r => if r.damaged then (List.range 32).map (Config.damagedRec (4096 + k)) else withCrc r.body
    | none => List.replicate 32 0
/-- The records whose CRC passes, oldest first: the ring read from the next entry on. -/
def journalAll (b : Boot) : List JRec :=
  ((List.range 511).map (fun i => (b.jnext - 1 + i) % 511 + 1)).filterMap (fun k =>
    match smGet none b.journal k with
    | some r => if r.damaged then none else some r
    | none => none)
/-- Those of one boot. -/
def journalOf (b : Boot) (no : Nat) : List JRec := (journalAll b).filter (fun r => decide (r.boot = no))
/-- The row and OP of a fuse record. -/
def JRec.fuse (r : JRec) : Nat × Nat := (nfld r.detail.toNat 15 0, nfld r.detail.toNat 23 16)
/-- The requests of the FUSE_BEGIN records that no later FUSE_END matches, oldest first, each once (R155). -/
def openFuses : List JRec → List (BitVec 96)
  | [] => []
  | r :: rest =>
    if decide (r.event = 7) && !rest.any (fun x => decide ((x.event = 8 ∨ x.event = 7) ∧ x.fuse = r.fuse)) then r.detail :: openFuses rest
    else openFuses rest
/-- Whether a later record ends the step of `r`. -/
def stepEnded (r : JRec) (later : List JRec) : Bool :=
  later.any (fun x => decide (x.step = r.step ∧ x.site = r.site) && decide (2 ≤ x.event ∧ x.event ≤ 5))
/-- The last START with nothing after it that ends its step. -/
def unfinished : List JRec → Option JRec
  | [] => none
  | r :: rest => match unfinished rest with
    | some x => some x
    | none => if r.event = 1 && decide (r.step ≤ 11) && !stepEnded r rest then some r else none
/-- The step that stopped a boot: that of its HALT record, or its unfinished step. -/
def stoppedIn (b : Boot) (no : Nat) : Option (Nat × Nat × Nat) :=
  let rs := journalOf b no
  match rs.find? (fun r => decide (r.event = 9)) with
  | some r => some (r.step, r.site, r.src)
  | none => (unfinished rs).map (fun r => (r.step, r.site, r.src))
/-- S1 reads the journal: it is initialised where its header does not hold, otherwise the boot number advances; a watchdog
reset is written down as TIMEOUT for the boot that it ended. -/
def journalRead (s : State) : State :=
  if !s.boot.journalOk then
    { s with boot := { s.boot with journalOk := true, journal := [], jnext := 1, bootNo := 0, stopped := none, stoppedBefore := none } }
  else
    let no := s.boot.bootNo
    let stop := stoppedIn s.boot no
    let before := stoppedIn s.boot ((no + 65535) % 65536)
    let s1 := match s.boot.wdog, unfinished (journalOf s.boot no) with
      | true, some r => journal s r.step 6 r.src r.site 16
      | _, _ => s
    { s1 with boot := { s1.boot with
      bootNo := (no + 1) % 65536, stopped := stop, stoppedBefore := before, fuseOpen := openFuses (journalAll s.boot) } }

/-! ## The image cache -/

/-- Bytes of the payload in the image cache. -/
def cacheRead (s : State) (off n : Nat) : List Byte :=
  (List.range n).map (fun i => (smGet [] s.boot.cache ((off + i) / 65536)).getD ((off + i) % 65536) 0)
/-- A write to the boot image area: the image cache, the wake record and the TBS copy. From step 5 of S6 to the next reset of the
core island every one is refused with EACCESS (R142). -/
def imageArea (s : State) (f : Boot → Boot) : State :=
  if s.boot.protect then answer s .eaccess else { s with boot := f s.boot }
def zeroCache (s : State) : State := imageArea s (fun b => { b with cache := [] })
/-- A block goes into the cache. -/
def cacheBlock (s : State) (i : Nat) (bs : List Byte) : State := imageArea s (fun b => { b with cache := smSet [] b.cache i bs })

/-! ## The wake record and the sleep digest (R156) -/

/-- The 16 bytes of the wake record. -/
def wakeBytes : Nat × Nat × Nat × Nat × Nat × Nat → List Byte
  | (lcs, ks, svn, blocks, last, src) =>
    leBytes 1 lcs ++ leBytes 1 ks ++ leBytes 2 svn ++ leBytes 4 blocks ++ leBytes 4 last ++ leBytes 1 src ++ [0, 0, 0]
/-- The sleep digest over the wake record and the TBS copy. -/
def sleepDigestNow (s : State) : List Byte :=
  match s.boot.wakeRec, s.boot.image with
  | some r, some m => sha384 (wakeBytes r ++ m.tbs)
  | _, _ => sha384 []
/-- 48 digest bytes as register words 0 to `n` - 1. -/
def digestWords (d : List Byte) (n : Nat) : SMap Word :=
  (List.range n).foldl (fun m w => smSet 0 m w (w32 (le d (4 * w) 4))) []

/-! ## S2 -/

/-- The public test root through SBOX_ROOT. -/
def testRoot (s : State) : State := { s with sbox := { s.sbox with root := Config.testRoot, rootValid := true } }
/-- The root derivation: the halt code, 0 for none. -/
def bootRoot (s : State) : Nat × State :=
  match s.fuse.sensed.lcs with
  | 1 => (0, (rootDo (testRoot s)).2)
  | 6 => (0, (rootDo s).2)
  | _ =>
    let (r, s1) := rootDo s
    if r = 0 then (0, s1)
    else if s.fuse.sensed.kx2 && udsLost s.fuse.sensed then
      let s2 := testRoot s1
      (0, { s2 with sbox := { s2.sbox with rootSubst := true } })
    else (0x22, s1)

/-! ## S6 (Tables 5-6, 6-2) -/

/-- A fixed slot of PID 0, where it is still EMPTY (R164). -/
def fixedSlot (s : State) (n origin use engine len : Nat) (key : List Byte) : State :=
  if slotEmpty s n then fillSlot s n origin (mkAttr 0 len engine 0 0 use) key else s
/-- Slots 0, 1, 3 and 4 from the roots. -/
def fixedRoots (s : State) : State :=
  let root := leBytes 64 s.sbox.root.toNat
  let pod := leBytes 64 s.sbox.podRoot.toNat
  let s1 := if s.sbox.rootValid then
      fixedSlot (fixedSlot s 0 1 4 3 2 (deriveKey s root 0x01 0 0 2)) 1 1 4 3 2 (deriveKey s root 0x02 0 0 2)
    else s
  if s.sbox.podRootValid then
    fixedSlot (fixedSlot s1 3 1 2 1 2 (deriveKey s pod 0x03 0 0 2)) 4 1 2 1 2 (deriveKey s pod 0x04 0 0 2)
  else s1
/-- The fixed slots; none when the DRBG gives nothing. In RETIRED they stay EMPTY (R169). -/
def fixedSlots (s : State) : Option State :=
  if s.fuse.sensed.lcs = 6 then some s
  else match drbgGrant s true with
    | none => none
    | some s1 => some (drew (fixedSlot (if s.fuse.sensed.lcs = 0 then s1 else fixedRoots s1) 2 2 4 4 0 (drbgBytes s1.free 32)))
/-- PG_LOCK of a page. -/
def lockPage (s : State) (page : Nat) : State := setHdr s page { hdr s page with lock := true }
/-- The area enables of PG_CTRL that the ROM sets (Table 4-11). -/
def areaEnables (lcs : Nat) : Nat :=
  match lcs with
  | 0 | 1 => 0x3FF | 2 => 0x3BF | 3 | 4 => 0x076 | 5 => 0x012 | _ => 0
/-- The ROM sets the area enables of the FUSE page, before it locks the page (R122). -/
def enableAreas (s : State) : State :=
  setHdr s (pgFw 1) { hdr s (pgFw 1) with ctrl := (hdr s (pgFw 1)).ctrl ||| w32 (areaEnables s.fuse.sensed.lcs) }
/-- The SRC byte of the wake record: the source of the accepted image, and after a fast wake that of the record which it kept
(DESIGN CHOICE, log entry 84). -/
def wakeSrc (s : State) : Nat :=
  match s.boot.fast, s.boot.wakeRec with
  | true, some (_, _, _, _, _, x) => x
  | _, _ => s.boot.src
/-- S6 for the accepted image, then S7 begins: stage 1 is to release the cores. Without a DRBG output for slot 2 the start halts
with 0x26 (DESIGN CHOICE, log entry 84). In BLANK SBOX_SVN and SBOX_MEAS keep their reset values (R133). -/
def bootLock (s : State) : State :=
  match s.boot.image with
  | none => s
  | some m =>
    let src := s.boot.src
    let s1 := stepStart s 6 src
    let s2 := if s.fuse.sensed.lcs = 0 then s1 else
      { s1 with sbox := { s1.sbox with svn := BitVec.ofNat 16 m.svn, meas := BitVec.ofNat 384 (leVal m.meas) } }
    match fixedSlots s2 with
    | none => haltWith s2 0x26
    | some s3 =>
      let s4 := imageArea s3 (fun b => { b with wakeRec := some (s.fuse.sensed.lcs, m.keyset, m.svn, m.blocks, m.lastLen, wakeSrc s) })
      let s5 := stepDone (startRecord s4) 6 src
      let s6 := lockPage (lockPage (lockPage (enableAreas s5) (pgFw 1)) (pgFw 2)) (pgFw 3)
      let s7 := { s6 with sbox := { s6.sbox with lockRoot := true, lockFixed := true },
                          boot := { s6.boot with protect := true, push := [], viaJtag := false }, sram := [] }
      fuseRepeat (setPos (stepStart s7 7 src) .release)

/-! ## S3 to S5 (R129 to R132, R139) -/

/-- The kind that a source must supply (Table 5-5, check 2). -/
def bootKind (s : State) (src : Nat) : Nat := if s.fuse.sensed.lcs = 6 then 3 else if src = 4 then 2 else 1
/-- The bit of BOOT_SOURCE.TRIED. -/
def triedBit (src : Nat) : Nat := match src with | 0 => 1 | 1 => 2 | 4 => 8 | _ => 4
/-- The sources after `src` in the order of Table 5-2. A start that source 4 or 5 stopped has none there: after 4 nothing is left to
try, and after 5 the order begins with slot A (DESIGN CHOICE, log entry 85). -/
def sourcesAfter (src : Nat) : List Nat :=
  match src with
  | 0 => [1, 2, 4] | 1 => [2, 4] | 2 | 3 => [4] | 4 => [] | _ => [0, 1, 2, 4]
/-- A CRIT flag refuses the source. -/
def sourceRefused (s : State) (src : Nat) : Bool :=
  match src with
  | 2 => s.fuse.sensed.noHostpush && s.fuse.sensed.noPeer
  | 4 => s.fuse.sensed.noRecovery
  | _ => false
/-- The SRC that a source of order 3 shows before an offer has come: 3 when only a peer may push. -/
def shownSource (s : State) (src : Nat) : Nat := if src = 2 && s.fuse.sensed.noHostpush then 3 else src
/-- S3 for one source: its head is asked for, or an offer is awaited. -/
def sourceStart (s : State) (src : Nat) : State :=
  let s1 := stepStart s 3 (shownSource s src)
  let s2 := { s1 with boot := { s1.boot with tried := s1.boot.tried ||| triedBit src, push := [] } }
  if src < 2 then flashRead (setPos s2 (.fetch src)) src 0 0x100
  else
    let s3 := pushSend s2 [w32 (0x80 * 2 ^ 24 + shownSource s src * 256)]
    setPos { s3 with boot := { s3.boot with hostWait := true } } (.offer src)
/-- The next source that may be tried, or a halt when every one has failed. -/
def trySources (alt : Bool) : List Nat → State → State
  | [], s => haltWith s (if 8 ≤ s.boot.attempts then 0x2F else 0x2E)
  | src :: rest, s =>
    if sourceRefused s src then trySources alt rest s
    else
      let s1 := if alt then journal s 3 5 (shownSource s src) 0xFF 0 else s
      if src < 2 && !s.boot.flashOk then
        let s2 := journal (stepStart s1 3 src) 3 3 src 0xFF 1
        trySources true rest { s2 with boot := { s2.boot with reason := 1, tried := s2.boot.tried ||| triedBit src } }
      else sourceStart s1 src
/-- A source fails at a step: its record, the cache, PUSH_RESULT where it was pushed, and the next source. -/
def sourceFail (s : State) (src step reason detail : Nat) : State :=
  let s1 := journal s step 3 src 0xFF reason detail
  let s2 := zeroCache { s1 with boot := { s1.boot with reason := reason, flash := none, push := [], hostWait := false } }
  let s3 := if 2 ≤ src then pushSend s2 [w32 (0x83 * 2 ^ 24 + reason)] else s2
  trySources true (sourcesAfter src) s3
/-- S3 begins (R153, R154). -/
def bootSources (s : State) : State :=
  if s.fuse.sensed.lcs = 0 then setPos (stepStart s 3 6) .jtag
  else if !anyKeyset s then haltWith { s with boot := { s.boot with step := 3 } } 0x21
  else if 8 ≤ s.boot.attempts then trySources false [4] s
  else match s.boot.stopped with
    | some (st, _, x) =>
      if decide (st = 3 ∨ st = 4 ∨ st = 5 ∨ st = 7) then trySources false (sourcesAfter x) s
      else trySources false [0, 1, 2, 4] s
    | none => trySources false [0, 1, 2, 4] s
/-- Every block has matched: S5 ends, BOOT_SOURCE is written, and S6 follows. -/
def imageAccepted (s : State) (src : Nat) (m : Image) : State :=
  let s1 := stepDone s 5 src
  let s2 := if 2 ≤ src then pushSend s1 [w32 (0x83 * 2 ^ 24)] else s1
  bootLock { s2 with boot := { s2.boot with image := some m, src := src, keyset := m.keyset, flash := none } }
/-- The head of an image is complete: S3 ends, S4 applies the checks, and S5 begins. The reason that refuses it, or the image. -/
def headCheck (s : State) (src : Nat) (bs : List Byte) : Nat × State :=
  let s1 := stepStart (stepDone s 3 src) 4 src
  let r := imageReason s1 (bootKind s src) bs
  if r ≠ 0 then (r, s1) else (0, stepStart (stepDone s1 4 src) 5 src)
/-- Whether block `i` has the digest of its manifest entry. -/
def blockOk (m : Image) (i : Nat) (bs : List Byte) : Bool := sha384 bs = m.manifest.getD i []
/-- Asks the flash for block `i`. -/
def bootBlock (s : State) (src : Nat) (m : Image) (i : Nat) : State :=
  flashRead (setPos { s with boot := { s.boot with image := some m, push := [] } } (.block src i)) src (m.payloadOff + 65536 * i)
    (m.blockLen i)
/-- Bytes of the head of a flash image: its format is checked as soon as the header is there (R130). -/
def bootFetch (s : State) (src : Nat) (ok : Bool) (bytes : List Byte) : State :=
  let buf := s.boot.push ++ bytes
  if !ok || !headerOk buf then sourceFail s src 3 1 0
  else if buf.length < headLen buf then
    flashRead { s with boot := { s.boot with push := buf } } src buf.length (headLen buf - buf.length)
  else match headCheck s src buf with
    | (0, s1) => bootBlock s1 src (parseImage buf) 0
    | (r, s1) => sourceFail s1 src 4 r 0
/-- Block `i` of a flash image (R139). -/
def bootBlockDone (s : State) (src i : Nat) (ok : Bool) (bytes : List Byte) : State :=
  match s.boot.image with
  | none => s
  | some m =>
    if !ok then sourceFail s src 5 10 i
    else if !blockOk m i bytes then sourceFail s src 5 9 i
    else
      let s1 := cacheBlock s i bytes
      if i + 1 < m.blocks then bootBlock s1 src m (i + 1) else imageAccepted s1 src m

/-! ## Push (R131, Table 5-3) -/

/-- Table 4-4 permits JTAG every access in this state. -/
def jtagAll (s : State) : Bool :=
  match s.fuse.sensed.lcs with
  | 0 | 1 => s.pins.critValid
  | 2 | 5 => s.pins.critValid && s.fuse.sensed.unlockActive
  | _ => false
/-- PUSH_OFFER: refused for its origin or its length, or the image bytes are awaited. A refused offer leaves the wait for another
(log entry 62). Origin 3 stands for an image that comes through JTAG, which recovery takes where Table 4-4 permits it (R132; log
entry 86). Recovery firmware takes the bytes of a flash slot in the same way. -/
def pushOffer (s : State) (origin length : Nat) : State :=
  match s.boot.pos with
  | .recovery =>
    if origin ≠ 1 ∧ origin ≠ 2 then pushSend s [w32 (0x81 * 2 ^ 24 + 1)]
    else if s.boot.density < length then pushSend s [w32 (0x81 * 2 ^ 24 + 2)]
    else pushSend (setPos { s with boot := { s.boot with hostWait := false } } (.reflash length)) [w32 (0x81 * 2 ^ 24)]
  | .offer src =>
    let jtag : Bool := decide (origin = 3) && decide (src = 4) && jtagAll s
    let bad : Bool := (decide (origin ≠ 1 ∧ origin ≠ 2) && !jtag) || (src = 2 && !originOk s origin)
    if bad then pushSend { s with boot := { s.boot with reason := 11 } } [w32 (0x81 * 2 ^ 24 + 1)]
    else if imageMax 32 < length then pushSend s [w32 (0x81 * 2 ^ 24 + 2)]
    else
      let s1 := pushSend s [w32 (0x81 * 2 ^ 24)]
      let s2 : State := { s1 with boot := { s1.boot with hostWait := false, push := [], image := none, viaJtag := jtag } }
      setPos s2 (.pushing (if src = 2 then origin + 1 else src) length)
  | _ => s
/-- The blocks of a pushed image that are complete and not yet in the cache. -/
def pushBlocks (m : Image) (src : Nat) (bs : List Byte) : Nat → State → Nat → State
  | 0, s, _ => s
  | fuel + 1, s, i =>
    if m.blocks ≤ i || bs.length < m.payloadOff + 65536 * i + m.blockLen i then s
    else
      let b := slice bs (m.payloadOff + 65536 * i) (m.blockLen i)
      if blockOk m i b then pushBlocks m src bs fuel (cacheBlock s i b) (i + 1) else sourceFail s src 5 9 i
/-- Whether the bytes that have come hold the whole head. -/
def headComplete (bs : List Byte) : Bool := decide (0x100 ≤ bs.length ∧ headLen bs ≤ bs.length)
/-- Image bytes: each part is checked as it arrives, in the order of a flash image. -/
def pushData (s : State) (words : List Word) : State :=
  match s.boot.pos with
  | .pushing src len =>
    if words.length = 0 ∨ 63 < words.length then s
    else
      let buf := (s.boot.push ++ wordsToBytes words).take len
      let s1 := { s with boot := { s.boot with push := buf } }
      if 0x100 ≤ buf.length && !headerOk buf then sourceFail s1 src 3 1 0
      else match s1.boot.image with
        | some m => pushBlocks m src buf 2 s1 (s1.boot.cache.length)
        | none =>
          if !headComplete buf then s1
          else match headCheck s1 src buf with
            | (0, s2) =>
              let m := parseImage buf
              if len < m.payloadOff + m.payloadLen then sourceFail s2 src 5 6 0
              else pushBlocks m src buf 2 { s2 with boot := { s2.boot with image := some m } } 0
            | (r, s2) => sourceFail s2 src 4 r 0
  | .jtag => { s with boot := { s.boot with push := s.boot.push ++ wordsToBytes words } }
  | _ => s
/-- The image that JTAG has written in BLANK goes into the cache unverified and is entered at S6 (R133; log entry 86). -/
def jtagImage (s : State) : State :=
  let m := parseImage s.boot.push
  let s1 := (List.range m.blocks).foldl (fun t i => cacheBlock t i (slice s.boot.push (m.payloadOff + 65536 * i) (m.blockLen i))) s
  bootLock { s1 with boot := { s1.boot with image := some m, src := 6 } }
/-- PUSH_END: the image is accepted when it is whole; one that ends short gives reason 6, or 1 before its header has come (DESIGN
CHOICE, log entry 85). Recovery firmware has then written the flash, and ends by resetting the core island (R132). -/
def pushEnd (s : State) : State :=
  match s.boot.pos with
  | .jtag => if s.boot.push.length < 0x100 then s else jtagImage s
  | .reflash _ => coreReset (pushSend s [w32 (0x83 * 2 ^ 24)]) false
  | .pushing src _ =>
    match s.boot.image with
    | some m => if s.boot.cache.length = m.blocks then imageAccepted s src m else sourceFail s src 5 6 0
    | none => sourceFail s src 3 (if s.boot.push.length < 0x100 then 1 else 6) 0
  | _ => s
/-- No offer for source 2 or 3 within 60 s. -/
def pushTimeout (s : State) : State :=
  match s.boot.pos with
  | .offer 2 =>
    let s1 := journal s 3 3 (shownSource s 2) 0xFF 12
    trySources true [4] { s1 with boot := { s1.boot with reason := 12, hostWait := false } }
  | _ => s

/-! ## The wake check (R158) -/

/-- The fast path is refused; COUNT rises now where S0 left it (R154). -/
def fastRefused (s : State) (reason : Nat) : State :=
  let s1 := if reason = 19 then s else { s with boot := { s.boot with attempts := satAdd 15 s.boot.attempts 1 } }
  let s2 := journal s1 0xF1 10 0xFF 0xFF reason
  bootSources (zeroCache { s2 with
    boot := { s2.boot with reason := reason },
    pwr := { s2.pwr with reason := reason, lastCold := true, lastFast := false } })
/-- The reason that refuses the fast path, or 0. -/
def wakeReason (s : State) : Nat :=
  match s.boot.wakeRec, s.boot.image with
  | some (lcs, ks, svn, _, _, _), some m =>
    if !s.boot.wakeMatch then 20
    else if lcs ≠ s.fuse.sensed.lcs ∨ !keysetPermitted s ks ∨ svn < smGet 0 s.fuse.sensed.counters 0 then 21
    else if s.boot.attempts ≠ 0 then 22
    else if (List.range m.blocks).all (fun i => blockOk m i (smGet [] s.boot.cache i)) then 0
    else 9
  | _, _ => 20
/-- After the comparison: the fast path, or its refusal. -/
def wakeDecide (s : State) : State :=
  match wakeReason s with
  | 0 =>
    let ks := match s.boot.wakeRec with | some (_, k, _, _, _, _) => k | none => 0xFF
    bootLock { s with
      boot := { s.boot with fast := true, src := 5, keyset := ks },
      pwr := { s.pwr with lastFast := true, lastCold := false, fastWakes := satAdd 65535 s.pwr.fastWakes 1 } }
  | r => fastRefused s r
/-- After S2: ROM writes words 0 to 10 of the recomputed digest and the comparison is awaited, or a cold start follows. -/
def wakeCheck (s : State) : State :=
  if !s.boot.wakeStart then bootSources s
  else if !s.boot.armed then fastRefused s 19
  else setPos { s with boot := { s.boot with wakeDigest := digestWords (sleepDigestNow s) 11 } } .wakeCheck

/-! ## S0 to S2 -/

/-- Service cores among the cores that failed their logic BIST. -/
def badServiceCores (bad : BitVec 4) : Nat := ((List.range 3).filter (fun i => bad.getLsbD (i + 1))).length

/-- S2 and the wake check. -/
def bootS2 (s : State) : State :=
  if s.fuse.sensed.lcs = 0 then bootSources s
  else
    let (code, s1) := bootRoot (stepStart s 2 0xFF)
    if code ≠ 0 then haltWith s1 code else wakeCheck (stepDone s1 2 0xFF)
/-- R474: a pending tamper record is programmed before S2. -/
def bootTamper (s : State) : State :=
  if !s.tmp.pend then bootS2 s
  else if s.fuse.sensed.lcs = 6 then bootS2 { s with tmp := { s.tmp with pend := false } }
  else if s.fuse.window ≠ 1 then haltWith s 0x42
  else
    let s1 := setHdr s (pgFw 1) { hdr s (pgFw 1) with ctrl := (hdr s (pgFw 1)).ctrl ||| w32 0x10 }
    let s2 := counterAdvance s1 17 1
    if s2.fuse.busy then setPos s2 .tamperRec else bootS2 { s2 with tmp := { s2.tmp with pend := false } }
/-- The counter has been programmed: a recording that ended with OK clears PEND (R553). -/
def tamperRecorded (s : State) : State :=
  if s.boot.pos = .tamperRec then bootS2 { s with tmp := { s.tmp with pend := s.tmp.pend && decide (s.fuse.result ≠ 0) } } else s
/-- The halt codes that S1 can end with (Table 5-16). -/
def s1Codes : List Nat := [0x50, 0x51, 0x52, 0x53, 0x54, 0x55, 0x56, 0x57, 0x58, 0x59, 0x5A, 0x5C, 0x60, 0xF0, 0xF1]
/-- S1: the journal, the self-tests with what they found, and the pending tamper record. `sfdp` is what the flash's SFDP table
says: whether it advertises 8D-8D-8D, and its density. After its self-test the DRBG takes four blocks of the pool (R217). -/
def bootS1 (s : State) (fail0 arrays : Nat) (coresBad : BitVec 4) (sfdp : Option (Bool × DWord)) : State :=
  let fail := if s1Codes.contains fail0 then fail0 else 0
  let s1 := stepStart (journalRead s) 1 0xFF
  let s2 := { s1 with
    boot := { s1.boot with
      flashOk := sfdp.isSome, coreBist := coresBad,
      density := match sfdp with | some (_, d) => d.toNat | none => 0,
      octal := match sfdp with | some (o, _) => o | none => false },
    cores := { s1.cores with
      arrays := BitVec.ofNat 16 (0xFFFF - arrays), failed := coresBad,
      work := if coresBad.getLsbD 1 then 1 else if coresBad.getLsbD 2 then 2 else 0, standbyLost := coresBad.getLsbD 3 },
    rng := { s1.rng with
      lastSeed := s.time, poolAt := s.time, es := if fail = 0x57 then 1 else 0,
      startFails := if fail = 0x57 then s1.rng.startFails + 1 else 0 } }
  let s2 := if fail = 0 then takeBlocks s2 4 else s2
  let s3 := (bitsOf 16 arrays).foldl (fun t a => record t 0x0054 0 1 2 a) s2
  if fail ≠ 0 then haltWith s3 fail
  else if coresBad.getLsbD 0 then haltWith s3 0x59
  else if 2 ≤ badServiceCores coresBad then haltWith s3 0x5A
  else bootTamper (stepDone s3 1 0xFF)
/-- S0: the sense sequence, then BOOT begins with S1 (R109, R154). -/
def senseReady (s : State) (disturbed fail arrays : Nat) (coresBad : BitVec 4) (sfdp : Option (Bool × DWord)) : State :=
  if s.block ≠ .sense then s
  else match senseArray s disturbed with
    | (0, s1) =>
      let n := if s1.boot.wakeStart && s1.boot.armed then s1.boot.attempts else satAdd 15 s1.boot.attempts 1
      let s2 := setBlock { s1 with
        boot := { s1.boot with attempts := n },
        tmp := { s1.tmp with count := smGet 0 s1.fuse.sensed.counters 17 } } .boot
      let s3 := if s2.fuse.sensed.integFail then record s2 0x0014 0 1 0 (senseStat s2) else s2
      bootS1 s3 fail arrays coresBad sfdp
    | (code, s1) => haltWith (record s1 0x0014 0 1 0 (senseStat s1)) code

/-! ## S7 and S8 (R143 to R148) -/

/-- The site entry at an offset of the directory. -/
def dirSite (s : State) (d k : Nat) : SiteEnt :=
  let b := cacheRead s (d + 0x18 + 24 * k) 24
  { offset := le b 0 8, window := le b 8 8, size := le b 16 4, cls := le b 20 1, push := decide (le b 21 1 % 2 = 1), agent := le b 22 2 % 1024 }
/-- The boot directory, the tier map, the domain map and the tap map behind it (R144, R260, R319, R411). A site entry whose
window size is 0 is none. -/
def readDirectory (s : State) : State :=
  match s.boot.image with
  | none => s
  | some m =>
    if m.kind ≠ 1 then s
    else
      let d := m.dirOff
      let n := Nat.min 1024 (le (cacheRead s (d + 2) 2) 0 2)
      let agents := (List.range n).map (fun i =>
        let w := le (cacheRead s (d + 0x198 + 4 * i) 4) 0 4
        (w % 1024, nfld w 17 14))
      let t := d + 0x198 + 4 * n
      let tiers := le (cacheRead s t 2) 0 2
      let tier (i : Nat) : TierRange :=
        let b := cacheRead s (t + 2 + 24 * i) 24
        { base := le b 0 8, size := le b 8 8, tier := le b 16 1, port := le b 17 1, first := le b 18 2, count := le b 20 2 }
      let dm := t + 2 + 24 * tiers
      let doms := (List.range 40).flatMap (fun i =>
        (bitsOf 1024 (le (cacheRead s (dm + 128 * i) 128) 0 128)).map (fun a => (i, a)))
      let tm := dm + 5120
      let taps := (List.range 16).foldl (fun (acc : SMap Tap) i =>
        let v := le (cacheRead s (tm + 2 * i) 2) 0 2
        smSet tapReset acc i { tapReset with checker := if v < 1024 then some v else none }) []
      let ents := (List.range 16).foldl (fun (acc : SMap (Option SiteEnt)) k =>
        let e := dirSite s d k
        smSet none acc k (if e.size = 0 then none else some e)) []
      let head := cacheRead s d 0x18
      { s with
        boot := { s.boot with stageBase := le head 8 8, stageSize := le head 16 8, siteEnts := ents, dirAgents := agents },
        part := { s.part with tierMap := (List.range tiers).map tier, domains := doms },
        asy := { s.asy with taps := taps } }

/-- The domains that hold an agent of the directory. -/
def namedDomains (s : State) : List Nat :=
  (List.range 40).filter (fun d => (domainAgents s d).any (fun a => s.boot.dirAgents.any (fun c => decide (c.1 = a))))
/-- Those without power. -/
def missingDomains (s : State) : List Nat := (namedDomains s).filter (fun d => !s.pins.pdStatus.getLsbD d)
/-- Present sites with a directory entry. -/
def bootSites (s : State) : List Nat :=
  (List.range 16).filter (fun k => s.pins.sitePresent.getLsbD k && (siteEnt s k).isSome)
/-- A site is left held by S8 without being tried. -/
def skipSite (reason : Nat) (s : State) (k : Nat) : State :=
  journal (setSiteInfo s k { siteInfo s k with released := false, reason := reason }) 8 4 s.boot.src k reason

/-- S9 begins: SHUTTER_N rises, and CENSUS goes to every identifier whose domain has power (R148, R499). -/
def bootS9 (s : State) : State :=
  let s1 := stepStart s 9 s.boot.src
  let s2 := if s1.sbox.lockRoot then { s1 with pins := { s1.pins with shutterN := true } } else s1
  let nine : Option (Nat × Nat × Nat) → Bool := fun x => match x with | some (st, _, _) => st = 9 | none => false
  if nine s2.boot.stopped && nine s2.boot.stoppedBefore then haltWith s2 0x2C
  else
    cpbSendAll (setPos s2 .census) ((List.range 1024).filter (fun a => !agentDown s2 a)) 0x0C 0 .census
/-- S8 ends. -/
def bootS8End (s : State) : State := bootS9 (stepDone { s with boot := { s.boot with site := 0xFF } } 8 s.boot.src)
/-- The sites are loaded after the boot layout; the site that stopped the previous start is skipped (Table 5-13). -/
def bootLoads (s : State) : State :=
  let bad := match s.boot.stopped with | some (8, k, _) => [k] | _ => []
  let s1 := ((bootSites s).filter bad.contains).foldl (skipSite 17) s
  startLoads (setPos s1 .sites) ((bootSites s).filter (fun k => !bad.contains k)) .boot
/-- The boot layout's commit has ended (R145). -/
def bootLayoutDone (s : State) (ok : Bool) : State :=
  if s.boot.pos ≠ .layout then s
  else if ok then bootLoads s
  else
    let s1 := (bootSites s).foldl (fun t k => setSiteInfo t k { siteInfo t k with released := false, reason := 18 }) s
    bootS9 (journal { s1 with boot := { s1.boot with reason := 18 } } 8 4 s.boot.src 0xFF 18)
/-- The domains of the directory have power: they leave reset; then S8's commit, or S9 after a fast wake, or without it when the
previous start stopped there. -/
def bootLayout (s : State) : State :=
  let s1 := (namedDomains s).foldl (fun t d => setHubRst t d true) s
  if s1.boot.fast then bootS9 (journal { s1 with boot := { s1.boot with deferred := true } } 8 11 s1.boot.src 0xFF 0)
  else match s1.boot.stopped with
    | some (8, 0xFF, _) => bootS9 (journal ((bootSites s1).foldl (skipSite 17) s1) 8 4 s1.boot.src 0xFF 17)
    | _ => pushJob s1 .boot
/-- S7 ends: recovery firmware goes no further, RETIRED skips S8, any other start begins S8. -/
def bootS8 (s : State) : State :=
  let s1 := readDirectory (stepDone s 7 s.boot.src)
  let kind := match s1.boot.image with | some m => m.kind | none => 0
  if kind = 2 then setPos { s1 with boot := { s1.boot with hostWait := true } } .recovery
  else if kind = 3 then bootS9 s1
  else setPos (if s1.boot.fast then { s1 with boot := { s1.boot with step := 8 } } else stepStart s1 8 s1.boot.src) .layout

/-- A write of TOP_CORE_RELEASE (R143): S7 ends when every service core that passed its BIST has been released. -/
def coreRelease (s : State) (w : Who) (data : Word) : State :=
  if w ≠ .bc || !s.sbox.lockRoot then refuse s (.fab w) (.fw 0 0x5C) 0x5C .eaccess
  else
    let up := BitVec.ofNat 4 (fld data 3 1 * 2) &&& ~~~ s.boot.coreBist
    let new := up &&& ~~~ s.cores.released
    let s1 := answer { s with cores := { s.cores with
      released := s.cores.released ||| up
      beat := (bitsOf 4 new.toNat).foldl (fun m c => smSet 0 m c s.time) s.cores.beat } } .ok
    if s1.boot.pos = .release && (s1.cores.released ||| s1.boot.coreBist ||| 1) = 15 then bootS8 s1 else s1

/-! ## S9 (R148, R306, R307, R187) -/

/-- The kind that the directory lists for an agent. -/
def listedKind (s : State) (a : Nat) : Option Nat := (s.boot.dirAgents.find? (fun c => decide (c.1 = a))).map (fun c => c.2)
/-- A valid answer to CENSUS. -/
def censusReply (s : State) (a op : Nat) (pay : BitVec 56) : State :=
  match listedKind s a with
  | none => haltWith s 0x2B
  | some k =>
    if op ≠ 0x24 ∨ nfld pay.toNat 55 48 ≠ k then haltWith s 0x2B
    else setAgent s a { agent s a with present := true, kind := k, words := nfld pay.toNat 47 32, version := w32 (nfld pay.toNat 31 0) }
/-- A listed agent has not answered after three resends. -/
def censusSilent (s : State) (a : Nat) : State :=
  match listedKind s a with
  | some k => withhold (markFaulted (setAgent s a { agent s a with kind := k }) a 2) a
  | none => s
/-- The census has ended: sources are numbered, and the post address is asked for at the endpoint. -/
def censusEnd (s : State) : State :=
  let s1 := numberSources s
  match agentsOfKind s1 8 with
  | a :: _ =>
    [0, 1].foldl (fun t i => cpbSend t { agent := a, op := 3, payload := BitVec.ofNat 56 (2 ^ 52 + i * 2 ^ 32 + 1), use := .post })
      (setPos s1 .postAddr)
  | [] => setPos s1 .postAddr
/-- A word of the post address. -/
def postReply (s : State) (f : Frame) (op : Nat) (pay : BitVec 56) : State :=
  if op ≠ 0x23 then s
  else
    let w := nfld pay.toNat 31 0
    let p := s.irq.postAddr
    let v := if nfld f.payload.toNat 51 32 = 0 then p / 2 ^ 32 * 2 ^ 32 + w / 8 * 8 else (w % 2 ^ 20) * 2 ^ 32 + p % 2 ^ 32
    { s with irq := { s.irq with postAddr := v } }

/-! ## S10 (R149, R278) -/

/-- The retained version's digest and tag verify (R277, R278). -/
def bookValid (s : State) : Bool :=
  match s.part.versions with
  | v :: _ => s.part.bookTag.isSome && decide (s.part.bookTag = bookSealed s v)
  | [] => false
/-- The retained current version. -/
def retained (s : State) : Version :=
  match s.part.versions with
  | v :: _ => v
  | [] => { num := 0, ep := false, bank := Bank.empty, shared := [], regions := [] }
def vshared (v : Version) (p : Nat) : PShared := smGet pshareReset v.shared p
/-- The tenants that the restore keeps. -/
def restoredPids (v : Version) : List Nat := tenants.filter (fun p => (vshared v p).state ≠ .free)
/-- The generation that a kept partition restarts with: its own after a fast wake, the next one otherwise. -/
def restoredGen (s : State) (v : Version) (p : Nat) : Nat := if s.boot.fast then (vshared v p).gen else ((vshared v p).gen + 1) % 64
/-- The tables that S10 commits: unchanged but for G0 after a fast wake; otherwise without the regions that tenants owned and
without RETIRING partitions. -/
def restoredBank (s : State) (v : Version) : Bank :=
  let b := v.bank
  let noG0 (m : SMap Word) : SMap Word := smMap 0 (fun w => w) (m.map (fun c => (c.1, if c.1 % 4 = 2 then putFld c.2 21 20 0 else c.2)))
  if s.boot.fast then { b with rw := noG0 b.rw }
  else
    let gone := tenants.filter (fun p => (vshared v p).state = .retiring)
    let lost := b.regions.filter (fun i => tenant (b.rOwner i))
    let b1 := lost.foldl (fun t i => (t.setR i 1 (putFld (t.rword i 1) 31 24 0xFF)).setR i 2 0) { b with rw := noG0 b.rw }
    { b1 with pw := b1.pw.filter (fun c => !gone.contains (c.1 / 16)), src := b1.src.filter (fun c => !gone.contains (fld c.2 31 24)) }
/-- S10 begins, with the retained version or the empty layout. -/
def bootS10 (s : State) : State :=
  let stop := match s.boot.stopped with | some (10, _, _) => true | _ => false
  setPos (stepStart s 10 s.boot.src) (.gens (stop || !bookValid s))
/-- Waits for R322, then sends GEN_SET to every agent: each PID's retained value after a fast wake, the next one of every kept
partition otherwise (R254, R278). -/
def restoreGens (s : State) (empty : Bool) : State :=
  if empty then pushJob (setPos s (.restore true)) (.restoreBook s.boot.fast)
  else
    let v := retained s
    let ps := if s.boot.fast then tenants else (restoredPids v).filter (fun p => (vshared v p).state ≠ .retiring)
    let late := ps.filter (fun p => !genPermits s p (restoredGen s v p))
    if !late.isEmpty then late.foldl (fun t p => holdGen t p (restoredGen s v p)) s
    else ps.foldl (fun t p => cpbSendAll t (liveAgents t) 7 (genSetPay p (restoredGen s v p)) .restore) (setPos s (.genSet false))
/-- The shared fields of the restored version. -/
def restoredShared (s : State) (v : Version) : State :=
  if s.boot.fast then { s with part := { s.part with pshared := v.shared, rshared := v.regions } }
  else
    let s1 := tenants.foldl (fun t p =>
      let x := vshared v p
      setPshared t p (match x.state with
        | .free => { pshareReset with gen := x.gen }
        | .retiring => { pshareReset with gen := x.gen }
        | _ => { pshareReset with state := .configured, gen := restoredGen s v p })) s
    v.bank.regions.foldl (fun t i =>
      let r := smGet rshareReset v.regions i
      setRshared t i (if tenant (v.bank.rOwner i) then { state := dirtyState s v.bank i, fenced := false, rgen := 0 }
        else if r.state = 2 then { r with state := 1 } else r)) s1
/-- The degradation bits of kx-boot key 8. -/
def degradation (s : State) : Nat :=
  b2n (s.cores.failed.getLsbD 1) + 2 * b2n (s.cores.failed.getLsbD 2) + 4 * b2n (s.cores.arrays ≠ 0xFFFF)
/-- DEGRADED under R14. -/
def degradedNow (s : State) : Bool :=
  decide (s.cores.work ≠ 0) || decide (s.cores.arrays ≠ 0xFFFF) || decide (badServiceCores s.boot.coreBist ≠ 0)
/-- Sealed items after a start: unwrapped and delivered again after a fast wake, otherwise erased but for the pod master (R503). -/
def unsealItems (s : State) : State :=
  if !s.boot.fast then { s with att := { s.att with sealedArea := s.att.sealedArea.filter (fun x => x.2.1.isNone) } }
  else
    s.att.sealedArea.foldl (fun t x =>
      match ((List.range 248).map (· + 8)).find? (slotEmpty t), unsealSlot t x.1 x.2.2 with
      | some n, some (a, key) =>
        let t1 := fillSlot t n 3 a key
        match x.2.1 with
        | none => { t1 with att := { t1.att with podToken := true } }
        | some k =>
          let k1 := { k with slot := n, phase := 2, asker := none }
          keyDeliverFrames (setKeys t1 (t1.att.keys ++ [k1])) k1
      | _, _ => t) s
/-- S11 (R150, R160, R475, R509). -/
def bootS11 (s : State) : State :=
  let s0 := stepStart s 11 s.boot.src
  let s1 := stepDone { s0 with boot := { s0.boot with attempts := 0, wdog := false, pos := .done } } 11 s.boot.src
  let s2 := qosRescale (setBlock s1 (if degradedNow s1 then .degraded else .run))
  let s3 := if s2.block = .degraded then record (record s2 0x0002 0 0 2 4) 0x0003 0 1 2 (degradation s2) else record s2 0x0002 0 0 2 3
  -- the device identity and alias certificates are built once per start (R229)
  let s3 := drew { s3 with att := { s3.att with certDraw := s3.free } }
  let s4 := if s3.boot.wakeStart then operEvent (fwEvent s3 (pgFw 0x14) 1) 6 1 else s3
  let s5 := (List.range 40).foldl (fun t d =>
    if t.pins.pdStatus.getLsbD d && !t.pins.hubRstN.getLsbD d then domStart t d .recover else t) (unsealItems s4)
  let s6 := if s5.boot.fast then
      startLoads ((tenants.filter (fun p => pstate s5 p = .running)).foldl enterRunning s5) (bootSites s5) .wake
    else s5
  setBucket s6 1 { bucket s6 1 with tokens := 2, rate := rateOf s6 1 }
/-- The commit of S10 has ended. -/
def restoreDone (s : State) (ok : Bool) : State :=
  match s.boot.pos with
  | .restore empty =>
    if ok then bootS11 (stepDone s 10 s.boot.src)
    else if empty then haltWith s 0x2D
    else setPos (journal s 10 5 s.boot.src 0xFF 18) (.gens true)
  | _ => s

/-! ## Polling -/

/-- One step of the boot, when what it waits for inside KX3 has come. -/
def pollBoot (s : State) : State :=
  if s.block ≠ .boot then s
  else match s.boot.pos with
    | .layout => if (s.part.jobs.any (fun j => j = .boot)) || !(missingDomains s).isEmpty then s else bootLayout s
    | .sites => if loadsDone s .boot then bootS8End s else s
    | .census => if cpbIdle s .census then censusEnd s else s
    | .postAddr => if cpbIdle s .post then setPos (wrapSets s (liveAgents s)) .wrapSet else s
    | .wrapSet => if keysIdle s (liveAgents s) then bootS10 (stepDone s 9 s.boot.src) else s
    | .gens empty => restoreGens s empty
    | .genSet empty => if cpbIdle s .restore then pushJob (setPos s (.restore empty)) (.restoreBook s.boot.fast) else s
    | _ => s

end Sys2Proof.Machine
end

