-- ==== Sys2Proof/Machine/Tables.lean ====
section
/-! DEFINITION. The tables that SC1 computes for each agent from a version, and the write list that carries them (Table 9-8, R259,
R271, R276, R287, R306, R307, R310, R350, R552; Table 20-10). -/
namespace Sys2Proof.Machine

/-! ## What a version's tables are computed from -/

/-- A version as the agents will hold it: its tables, the generation of each PID, the shared fields of its regions, and whether it is the
boot layout. -/
structure Plan where
  bank : Bank
  gen  : Nat → Nat
  shr  : Nat → RShared
  boot : Bool

/-- A bank without the resources of agents that are withheld (R148, R276): their sites, regions, sources, virtual functions, peers. -/
def withheldBank (s : State) (b : Bank) : Bank :=
  let kinds (k : Nat) : List Nat := s.part.withheld.filter (fun a => decide ((agent s a).kind = k))
  let sites := bitmap (s.part.withheld.flatMap (agentSites s))
  let b1 := b.pids.foldl (fun (t : Bank) p =>
    let t1 := t.setP p 4 (t.pword p 4 &&& ~~~ w32 sites)
    let t2 := if (kinds 8).isEmpty then t1 else t1.setP p 3 (putFld (t1.pword p 3) 31 24 0xFF)
    (kinds 5).foldl (fun u a =>
      let k := Config.linkPeer a
      if k < 128 then u.setP p (7 + k / 32) (u.pword p (7 + k / 32) &&& ~~~ w32 (2 ^ (k % 32))) else u) t2) b
  let b2 := (b1.regions.filter (fun i => (regionCheckers s b1 i).any s.part.withheld.contains)).foldl (fun (t : Bank) i =>
    t.setR i 1 (putFld (t.rword i 1) 31 24 0xFF)) b1
  (b2.src.filter (fun c => match sourceLoc s c.1 with | some (a, _) => s.part.withheld.contains a | none => false)).foldl
    (fun (t : Bank) c => t.setS c.1 0) b2

/-! ## NIs (R145, R255, R310, R552) -/

/-- The sources of an NI: the endpoint's NI has the physical function first, then every virtual function (R552). -/
def niCount (a : Nat) : Nat := if a = Config.endpointNi then 65 else Config.niSources a
def niSource (a i : Nat) : NiEnd :=
  if a = Config.endpointNi then (if i = 0 then .pf else .vf (i - 1)) else Config.niSource a i
/-- The partition of a bank whose entry satisfies `f`. -/
def Bank.findP (b : Bank) (f : Nat → Bool) : Option Nat := b.pids.find? f
/-- The PID stamped on the requests of a source. The boot layout stamps KX3's own HIP port and the physical function alone (R145). -/
def stampOf (p : Plan) (e : NiEnd) : Option Nat :=
  match e with
  | .hip => some 0
  | .pf => some 1
  | .isc => if p.boot then none else some 0
  | .site k => p.bank.findP (fun q => decide (p.bank.pSites q / 2 ^ k % 2 = 1))
  | .vf v => p.bank.findP (fun q => decide (p.bank.pVf q = v))
  | _ => none
/-- Whether PID `q` owns or is granted a region of a tier, or of a CXL port: PID 0 owns what is not assigned (R259). -/
def reachesTier (b : Bank) (q t port : Nat) : Bool :=
  b.regions.any (fun i => decide (b.rTier i = t ∧ (t ≠ 2 ∨ b.rPort i = port)) &&
    (if b.rOwner i = 0xFF then decide (q = 0)
     else decide (b.rOwner i = q) || (match q with
       | 0 => decide (b.rG0 i ≠ 0)
       | 1 => decide (b.rG1 i ≠ 0)
       | _ => decide (b.rGt i ≠ 0))))
/-- Whether a source that is stamped `q` reaches a destination NI. The routes of the boot layout stand in every version (R145). -/
def routed (s : State) (p : Plan) (e : NiEnd) (q : Nat) (d : NiEnd) : Bool :=
  let b := p.bank
  match e with
  | .isc => d = .endpoint
  | .hip => match d with
    | .site k => (siteEnt s k).isSome
    | .staging => decide (s.boot.stageSize ≠ 0)
    | .endpoint => !p.boot
    | .tier t port => reachesTier b 0 t port
    | _ => false
  | .pf => match d with
    | .hcp => true
    | .staging => decide (s.boot.stageSize ≠ 0)
    | .tier t port => reachesTier b 1 t port
    | _ => false
  | _ => match d with
    | .hcp => true
    | .site k => decide (b.pSites q / 2 ^ k % 2 = 1)
    | .tier t port => reachesTier b q t port
    | .link a => decide (Config.linkPeer a < 128 ∧ b.pPeers q / 2 ^ Config.linkPeer a % 2 = 1)
    | .endpoint => decide (b.pVf q < 64)
    | _ => false
/-- Route words per source: one bit per destination NI. -/
def routeWords : Nat := (Config.niDests + 31) / 32
/-- Word `w` of a source's row. -/
def routeWord (s : State) (p : Plan) (e : NiEnd) (w : Nat) : Word :=
  match stampOf p e with
  | none => 0
  | some q => w32 (bitmap ((List.range 32).filter (fun i =>
      decide (32 * w + i < Config.niDests) && routed s p e q (Config.niDest (32 * w + i)))))
/-- A stamp word: the PID, or 0xFF where no partition owns the source. -/
def stampWord (p : Plan) (e : NiEnd) : Word := w32 ((stampOf p e).getD 0xFF)
/-- Reserved injection slots for the sources of a partition with RSV_QOS (R350). -/
def niQosWord (p : Plan) (e : NiEnd) : Word :=
  match stampOf p e with
  | some q => if tenant q && p.bank.pRsv q then 1 else 0
  | none => 0
/-- A word of an NI: routes (selector 0), stamps (1), reserved-slot QoS (2). -/
def niWord (s : State) (p : Plan) (a sel i : Nat) : Word :=
  match sel with
  | 0 => routeWord s p (niSource a (i / routeWords)) (i % routeWords)
  | 1 => stampWord p (niSource a i)
  | _ => niQosWord p (niSource a i)

/-! ## The other kinds -/

/-- A word of a region checker: entry `i / 4`, with owner 0 and no grants unless it is ASSIGNED (R259). -/
def checkerWord (s : State) (p : Plan) (a i : Nat) : Word :=
  let b := p.bank
  let r := i / 4
  let w := b.rword r (i % 4)
  if !b.rValid r || !(regionCheckers s b r).contains a then 0
  else match i % 4 with
    | 1 => if b.rOwner r = 0xFF then putFld w 31 24 0 else w
    | 2 =>
      if b.rOwner r = 0xFF then 0
      else putFld (putFld (putFld w 17 16 3) 6 6 0) 5 0 (if (p.shr r).fenced then (p.shr r).rgen else p.gen (b.rOwner r))
    | _ => w
/-- The PID whose site an agent serves, or 0. -/
def sitePid (s : State) (p : Plan) (a : Nat) : Nat :=
  ((agentSites s a).findSome? (fun k => p.bank.findP (fun q => decide (p.bank.pSites q / 2 ^ k % 2 = 1)))).getD 0
/-- A word of an engine's map from PID to key index: VALID in bit 31 and the index (DESIGN CHOICE, log entry 92). The pod's keys
serve every tenant (R191). -/
def keyWord (s : State) (a q : Nat) : Word :=
  match s.att.keys.find? (fun k => decide (k.agent = a ∧ (k.phase = 1 ∨ k.phase = 2) ∧ (k.pid = q ∨ k.pid = 0))) with
  | some k => if tenant q then w32 (2 ^ 31 + k.index) else 0
  | none => 0
/-- The global number of an ISC's first source (R306). -/
def iscFirst (s : State) (a : Nat) : Nat :=
  let rec go : List (Nat × Nat) → Nat → Nat
    | [], n => n
    | (x, c) :: rest, n => if x = a then n else go rest (n + c)
  go s.irq.iscs 0
/-- A word of an ISC: its remap entries (selector 0) or the post address (selector 1; R307). -/
def iscWord (s : State) (p : Plan) (a sel i : Nat) : Word :=
  if sel = 0 then (match sourceLoc s (iscFirst s a + i) with
    | some (x, k) => if x = a && decide (k = i) then p.bank.srcWord (iscFirst s a + i) else 0
    | none => 0)
  else if i = 0 then w32 (nfld s.irq.postAddr 31 3 * 8) else w32 (nfld s.irq.postAddr 51 32)
/-- The virtual function map of the endpoint: the PID, or 0. -/
def vfWord (p : Plan) (v : Nat) : Word := w32 ((p.bank.findP (fun q => decide (p.bank.pVf q = v))).getD 0)

/-- The kind of an agent: in the boot-layout commit the directory's. -/
def kindOf (s : State) (a : Nat) : Nat := if (agent s a).present then (agent s a).kind else 1
/-- The programmable tables of an agent: each selector and its number of words. -/
def tableSizes (s : State) (a : Nat) : List (Nat × Nat) :=
  let n := (agent s a).words
  match kindOf s a with
  | 1 => [(0, niCount a * routeWords), (1, niCount a), (2, niCount a)]
  | 3 => [(0, 1)]
  | 6 => if n < 2 then [] else [(0, n - 2), (1, 2)]
  | 8 => [(0, 64)]
  | _ => [(0, n)]
/-- The word that a version gives an agent. -/
def tableWord (s : State) (p : Plan) (a sel i : Nat) : Word :=
  match kindOf s a with
  | 1 => niWord s p a sel i
  | 2 => checkerWord s p a i
  | 3 | 7 => if i = 0 then w32 (sitePid s p a) else 0
  | 4 | 5 => keyWord s a i
  | 6 => iscWord s p a sel i
  | 8 => vfWord p i
  | _ => 0

/-! ## The write list (R271, R276, R533) -/

/-- Every word address of an agent, in the order of the CRC. -/
def tableIndex (s : State) (a : Nat) : List (Nat × Nat) :=
  (tableSizes s a).flatMap (fun t => (List.range t.2).map (fun i => (t.1, i)))
/-- CRC-32C over words, each least significant byte first. -/
def tableCrc (ws : List Word) : Word := crc32c (ws.flatMap (fun w => leBytes 4 w.toNat))
/-- The entries of one agent: the words in which its shadow copy differs, all of them where it is not known or `whole` is asked for;
then what the previous version needs in a rollback. -/
def agentEntries (s : State) (p : Plan) (whole : List Nat) (a : Nat) : List WEntry :=
  let ix := tableIndex s a
  let all := whole.contains a || !shadowKnown s a
  let diff := ix.filter (fun x => all || decide (shadowWord s a x.1 x.2 ≠ tableWord s p a x.1 x.2))
  let back := ix.filter (fun x => decide (liveWord s a x.1 x.2 ≠ tableWord s p a x.1 x.2))
  diff.map (fun x => { kind := 0, sel := x.1, agent := a, index := x.2, data := tableWord s p a x.1 x.2 }) ++
  [{ kind := 1, sel := 0, agent := a, index := 0, data := tableCrc (ix.map (fun x => tableWord s p a x.1 x.2)) }] ++
  back.map (fun x => { kind := 2, sel := x.1, agent := a, index := x.2, data := liveWord s a x.1 x.2 }) ++
  [{ kind := 3, sel := 0, agent := a, index := 0, data := tableCrc (ix.map (fun x => liveWord s a x.1 x.2)) }]
/-- The FENCEs of a rollback: regions fenced for the version get their owner's generation back (R276 step 4). -/
def fenceEntries (s : State) : List WEntry :=
  (s.book.fencedR.filter (fun i => (rshared s i).fenced)).flatMap (fun i =>
    (regionCheckers s s.part.active i).map (fun a =>
      { kind := 4, sel := 0, agent := a, index := i, data := w32 (genOf s (s.part.active.rOwner i)) }))
/-- The whole list for the agents that a commit addresses. -/
def planEntries (s : State) (p : Plan) (whole : List Nat) : List WEntry :=
  (epochAgents s).flatMap (agentEntries s p whole) ++ fenceEntries s
/-- Table 20-10. -/
def WEntry.bytes (e : WEntry) : List Byte :=
  leBytes 4 (e.kind * 2 ^ 28 + e.sel * 2 ^ 16 + e.agent) ++ leBytes 4 e.index ++ leBytes 4 e.data.toNat ++ [0, 0, 0, 0]
/-- Where SC1 keeps its write list: the last MiB of main SRAM (DESIGN CHOICE, log entry 92). -/
def listAt : Nat := 0x300000
/-- SC1 writes the list and names it in EPOCH_LIST and EPOCH_LIST_LEN. -/
def writeList (s : State) (es : List WEntry) : State :=
  setReg (setReg (sramWrite s listAt (es.flatMap WEntry.bytes)) 0xA050 (w32 listAt)) 0xA054 (w32 es.length)

end Sys2Proof.Machine
end

