-- ==== Sys2Proof/Machine/Book.lean ====
section
/-! DEFINITION. Pattern Book bundles: their layout, the checks, consent, quiescing and the O_BOOK commands (R264 to R272, R320, R547;
Tables 9-5 to 9-9, 20-23, 20-24). -/
namespace Sys2Proof.Machine

/-! ## Reading a bundle (R265) -/

/-- What a bundle carries: its entries as words. -/
structure Bundle where
  base  : Nat
  tally : Nat
  parts : List (List Word)
  regs  : List (List Word)
  srcs  : List Word

/-- The size of an entry of each section type. -/
def entrySize (ty : Nat) : Nat := match ty with | 1 => 64 | 2 => 16 | 3 => 4 | _ => 0
/-- `n` sections from `off`, and where they end. -/
def readSections (bs : List Byte) : Nat → Nat → Option (List (Nat × List (List Word)) × Nat)
  | 0, off => some ([], off)
  | n + 1, off =>
    let ty := le bs off 2
    let cnt := le bs (off + 4) 4
    let sz := entrySize ty
    if sz = 0 ∨ bs.length < off + 12 + sz * cnt ∨ le bs (off + 2) 2 ≠ 0 then none
    else
      let es := (List.range cnt).map (fun i => (List.range (sz / 4)).map (fun w => w32 (le bs (off + 8 + sz * i + 4 * w) 4)))
      match readSections bs n (off + 8 + sz * cnt) with
      | some (r, e) => some ((ty, es) :: r, e)
      | none => none
/-- Reserved fields of a partition entry, and its PID. -/
def partEntryOk (e : List Word) : Bool :=
  let w (i : Nat) : Word := e.getD i 0
  decide (fld (w 0) 28 20 = 0 ∧ fld (w 0) 16 14 = 0 ∧ fld (w 1) 31 16 = 0 ∧ fld (w 2) 31 26 = 0 ∧ fld (w 3) 23 9 = 0 ∧ fld (w 6) 31 8 = 0) &&
  [11, 12, 13, 14, 15].all (fun i => w i = 0) && tenant (fld (w 0) 7 0)
/-- Reserved fields and values of a region entry. -/
def regionEntryOk (e : List Word) : Bool :=
  let w (i : Nat) : Word := e.getD i 0
  let owner := fld (w 1) 31 24
  decide (fld (w 1) 23 22 ≠ 3 ∧ fld (w 2) 31 26 = 0 ∧ fld (w 2) 19 18 = 0 ∧ fld (w 2) 15 7 = 0 ∧ fld (w 3) 31 29 = 0 ∧ fld (w 3) 15 4 = 0) &&
  decide ((1 ≤ owner ∧ owner ≤ 65) ∨ owner = 0xFF) && decide (fld (w 1) 23 22 = 2 ∨ fld (w 3) 3 0 = 0)
/-- An entry of section 3. -/
def sourceEntryOk (w : Word) : Bool := decide (fld w 31 24 = 0 ∧ fld w 15 13 = 0 ∧ 1 ≤ fld w 23 16 ∧ fld w 23 16 ≤ 65)
/-- Check 2: the bundle, when it is well formed. -/
def parseBundle (bs : List Byte) : Option Bundle :=
  let n := le bs 0x0C 2
  let tally := le bs 0x0E 2
  if bs.length < 68 ∨ slice bs 0 6 ≠ [0x4B, 0x58, 0x50, 0x42, 1, 0] ∨ le bs 8 4 ≠ bs.length ∨ n = 0 ∨ 3 < n ∨
      (0x40 ≤ tally ∧ tally ≠ 0xFFFF) ∨ le bs 0x10 48 ≠ 0 ∨ le bs (bs.length - 4) 4 ≠ (crc32c (bs.take (bs.length - 4))).toNat then none
  else match readSections bs n 64 with
    | none => none
    | some (ss, e) =>
      let all (ty : Nat) : List (List Word) := (ss.filter (fun x => decide (x.1 = ty))).flatMap (fun x => x.2)
      let srcs := (all 3).map (fun e => e.headD 0)
      if e + 4 ≠ bs.length || hasDup (ss.map (fun x => x.1)) || !(all 1).all partEntryOk || !(all 2).all regionEntryOk ||
          !srcs.all sourceEntryOk || hasDup ((all 1).map (fun e => fld (e.headD 0) 7 0)) ||
          hasDup ((all 2).map (fun e => fld (e.getD 3 0) 28 16)) || hasDup (srcs.map (fun w => fld w 12 0)) then none
      else some { base := le bs 6 2, tally := tally,
                  parts := (all 1).filter (fun e => bitOf (e.headD 0) 31),
                  regs := (all 2).filter (fun e => bitOf (e.headD 0) 31), srcs := srcs }

/-- The tables of a bundle, the fields marked KX3 at 0. -/
def bundleBank (x : Bundle) : Bank :=
  let b1 := x.parts.foldl (fun (b : Bank) e =>
    let p := fld (e.headD 0) 7 0
    (List.range 11).foldl (fun t w =>
      let v := e.getD w 0
      t.setP p w (if w = 0 then putFld v 28 8 0 else if w = 4 then putFld v 31 16 0 else v)) b) Bank.empty
  let b2 := x.regs.foldl (fun (b : Bank) e =>
    let i := fld (e.getD 3 0) 28 16
    (((b.setR i 0 (e.getD 0 0)).setR i 1 (e.getD 1 0)).setR i 2 (w32 (fld (e.getD 2 0) 25 22 * 2 ^ 22))).setR i 3 (e.getD 3 0)) b1
  x.srcs.foldl (fun (b : Bank) w => b.setS (fld w 12 0) (w32 (fld w 23 16 * 2 ^ 24))) b2

/-! ## Reading a version back (R270, R547) -/

/-- The version in a slot of the Pattern Book, the current one with its present shared fields. -/
def bookSlot (s : State) (k : Nat) : Option Version :=
  match s.part.versions[k]? with
  | some v => some (if k = 0 then { v with shared := s.part.pshared, regions := s.part.rshared } else v)
  | none => none

/-! ## Differences between two tables -/

/-- Word `w` of a partition entry without the fields marked KX3. -/
def plainPword (b : Bank) (p w : Nat) : Word :=
  let v := b.pword p w
  if w = 0 then putFld v 28 8 0 else if w = 4 then putFld v 31 16 0 else v
def partDiffers (b c : Bank) (p : Nat) : Bool := (List.range 11).any (fun w => plainPword b p w ≠ plainPword c p w)
/-- A region differs in anything but G0. -/
def regionDiffers (b c : Bank) (i : Nat) : Bool :=
  decide (b.rword i 0 ≠ c.rword i 0 ∨ b.rword i 1 ≠ c.rword i 1 ∨ fld (b.rword i 2) 25 22 ≠ fld (c.rword i 2) 25 22 ∨
    fld (b.rword i 3) 3 0 ≠ fld (c.rword i 3) 3 0)
/-- A region changes its place or size, or is created or deleted. -/
def regionMoves (b c : Bank) (i : Nat) : Bool :=
  decide (b.rword i 0 ≠ c.rword i 0 ∨ fld (b.rword i 1) 23 0 ≠ fld (c.rword i 1) 23 0 ∨ fld (b.rword i 3) 3 0 ≠ fld (c.rword i 3) 3 0)
def srcOwner (b : Bank) (n : Nat) : Nat := fld (b.srcWord n) 31 24
def regionsEither (b c : Bank) : List Nat := dedup (b.regions ++ c.regions)
def sourcesEither (b c : Bank) : List Nat := dedup (b.src.map (fun x => x.1) ++ c.src.map (fun x => x.1))
/-- Anything of a partition that R267 names differs. -/
def changesPid (b c : Bank) (p : Nat) : Bool :=
  partDiffers b c p ||
  (regionsEither b c).any (fun i => regionDiffers b c i && decide (b.rOwner i = p ∧ b.rValid i ∨ c.rOwner i = p ∧ c.rValid i)) ||
  (sourcesEither b c).any (fun n => decide (srcOwner b n ≠ srcOwner c n ∧ (srcOwner b n = p ∨ srcOwner c n = p)))
/-- Whether region `i` leaves its owner between two tables. -/
def regionLeaves (b c : Bank) (i : Nat) : Bool :=
  b.rValid i && decide (b.rOwner i ≠ 0xFF) && (!c.rValid i || decide (c.rOwner i ≠ b.rOwner i) || regionMoves b c i)
/-- Partitions that a bundle removes. -/
def removedPids (b c : Bank) : List Nat := b.pids.filter (fun p => !c.pValid p)

/-! ## The tables a bundle brings into force -/

/-- G0 of region `i` with the bits of `on` set and those of `off` cleared. -/
def Bank.grant0 (b : Bank) (i on off : Nat) : Bank :=
  let w := b.rword i 2
  let g := fld w 21 20
  b.setR i 2 (putFld w 21 20 ((g ||| on) &&& (3 - off)))
/-- TAPS: the tap ports whose checkers serve a region of the partition (Table 9-1). -/
def tapsOf (s : State) (b : Bank) (p : Nat) : Nat :=
  let cs := (regionsOf b p).flatMap (regionCheckers s b)
  bitmap ((List.range 16).filter (fun n => match (tapPort s n).checker with | some c => cs.contains c | none => false))
/-- The TAPS field of every partition of a bank. -/
def withTaps (s : State) (b : Bank) : Bank :=
  b.pids.foldl (fun t p => t.setP p 4 (putFld (t.pword p 4) 31 16 (tapsOf s b p))) b
/-- A bundle's tables, with what KX3 keeps of its own: G0 of a region that keeps owner, place and size (R258), and the binding of a
source that keeps its owner (R317). -/
def bundleOver (s : State) (c : Bank) : Bank :=
  let b := s.part.active
  let keep (i : Nat) : Bool := b.rValid i && decide (b.rOwner i = c.rOwner i) && !regionMoves b c i
  let c1 := c.regions.foldl (fun t i => if keep i then t.grant0 i (b.rG0 i) 0 else t) c
  let c2 := c1.src.foldl (fun t x => if srcOwner b x.1 = fld x.2 31 24 then t.setS x.1 (b.srcWord x.1) else t) c1
  withTaps s c2
/-! ## The checks (Table 9-7) -/

/-- Check 5. -/
def regionsPlaced (s : State) (c : Bank) : Bool :=
  let rs := c.regions
  rs.all (fun i => (s.part.tierMap.any (fun r => decide (r.tier = c.rTier i ∧ r.base ≤ c.rBase i ∧ c.rBase i + c.rSize i ≤ r.base + r.size) &&
      (decide (c.rTier i ≠ 2) || decide (r.port = c.rPort i)))) &&
    rs.all (fun j => decide (i = j ∨ c.rBase i + c.rSize i ≤ c.rBase j ∨ c.rBase j + c.rSize j ≤ c.rBase i)))
/-- Check 7 for one region. -/
def ownerStepOk (s : State) (b c : Bank) (i : Nat) : Bool :=
  let old := if b.rValid i && !(regionMoves b c i) then b.rOwner i else 0xFF
  let new := if c.rValid i then c.rOwner i else 0xFF
  (decide (old = new) || decide (old = 0xFF) || decide (new = 0xFF)) &&
  (!c.rValid i || !tenant new || c.pValid new) &&
  (decide (old = new) || decide (new = 0xFF) || (b.rValid i && !(regionMoves b c i) && decide ((rshared s i).state = 0)))
/-- A domain of a partition may be reset by it (R320). -/
def domainFits (s : State) (c : Bank) (p d : Nat) : Bool :=
  (domainAgents s d).all (fun a =>
    let k := (agent s a).kind
    !([2, 4, 5, 6, 8].contains k) && !([1, 3, 7].contains k && (agentSites s a).any (fun x => c.pSites p / 2 ^ x % 2 = 0)))
/-- Check 8. -/
def assignedOnce (s : State) (c : Bank) : Bool :=
  let ps := c.pids
  let apart (f : Nat → Nat → Bool) : Bool := ps.all (fun p => ps.all (fun q => decide (p = q) || f p q))
  apart (fun p q => decide (c.pTallyCount p = 0 ∨ c.pTallyCount q = 0 ∨ c.pTallyBase p + c.pTallyCount p ≤ c.pTallyBase q ∨
    c.pTallyBase q + c.pTallyCount q ≤ c.pTallyBase p)) &&
  ps.all (fun p => decide (c.pTallyCount p = 0 ∨ c.pTallyBase p + c.pTallyCount p ≤ 16256 ∨ 16384 < c.pTallyBase p + c.pTallyCount p)) &&
  apart (fun p q => decide (c.pSites p &&& c.pSites q = 0)) && apart (fun p q => decide (c.pResets p &&& c.pResets q = 0)) &&
  apart (fun p q => decide (c.pVf p ≠ c.pVf q ∨ c.pVf p = 0xFF)) &&
  ps.all (fun p => decide (c.pSites p &&& (0xFFFF - s.pins.sitePresent.toNat) = 0)) &&
  c.src.all (fun x => decide (fld x.2 31 24 = 1) || c.pValid (fld x.2 31 24)) &&
  ps.all (fun p => (bitsOf 40 (c.pResets p)).all (domainFits s c p))
/-- Check 9. -/
def withinLimits (s : State) (c : Bank) : Bool :=
  c.pids.all (fun p => decide (c.pRate p ≤ 50000 ∧ c.pTallyCount p ≤ 2048 ∧ c.pTallyBase p + c.pTallyCount p ≤ 16384 ∧
      (c.pVf p ≤ 63 ∨ c.pVf p = 0xFF) ∧ c.pVectors p ≤ 256) &&
    (s.fuse.sensed.podKeyed || decide ((bitsOf 128 (c.pPeers p)).length ≤ 7)))
/-- A bank under the present generations. -/
def planBank (s : State) (b : Bank) : Plan := { bank := b, gen := genOf s, shr := rshared s, boot := false }
/-- Check 12: a faulted agent serves something that changes, or its own tables would change. -/
def faultedServes (s : State) (b c : Bank) : Bool :=
  let bad (a : Nat) : Bool := (agent s a).faulted
  let badKind (k : Nat) : Bool := s.cpb.agents.any (fun x => x.2.faulted && decide (x.2.kind = k))
  let rs := (regionsEither b c).filter (regionDiffers b c)
  let sites := (dedup (b.pids ++ c.pids)).foldl (fun a p => a ||| (b.pSites p ^^^ c.pSites p)) 0
  rs.any (fun i => (regionCheckers s b i).any bad || (regionCheckers s c i).any bad ||
    (decide (b.rTier i = 2 ∧ b.rValid i ∨ c.rTier i = 2 ∧ c.rValid i) && badKind 4)) ||
  (bitsOf 16 sites).any (fun k => s.cpb.agents.any (fun x => x.2.faulted && (agentSites s x.1).contains k)) ||
  ((sourcesEither b c).filter (fun n => decide (srcOwner b n ≠ srcOwner c n))).any (fun n =>
    match sourceLoc s n with | some (a, _) => bad a | none => false) ||
  (dedup (b.pids ++ c.pids)).any (fun p => (decide (b.pVf p ≠ c.pVf p) && badKind 8) || (decide (b.pPeers p ≠ c.pPeers p) && badKind 5)) ||
  (s.cpb.agents.filter (fun x => x.2.faulted)).any (fun x => (tableIndex s x.1).any (fun i =>
    decide (tableWord s (planBank s b) x.1 i.1 i.2 ≠ tableWord s (planBank s c) x.1 i.1 i.2)))
/-- The life-cycle states in which no tenant partition exists (R113, R133). -/
def noTenants (s : State) : Bool := [0, 5, 6].contains s.fuse.sensed.lcs
/-- Checks 4 to 12: the result of the first that fails, or 0. A bundle with a tenant partition gives STATE where the life-cycle state
permits none (DESIGN CHOICE, log entry 93). -/
def bundleCheck (s : State) (c : Bank) : Nat :=
  let b := s.part.active
  if (noTenants s && !c.pids.isEmpty) || c.pids.any (fun p => decide (pstate s p = .retiring ∨ pstate s p = .quenching)) ||
      (removedPids b c).any (fun p => pstate s p = .quenching) then 15
  else if !regionsPlaced s c then 4
  else if b.regions.any (fun i => regionMoves b c i && decide (1 < (rshared s i).state)) then 15
  else if !(regionsEither b c).all (ownerStepOk s b c) then 5
  else if !assignedOnce s c then 6
  else if !withinLimits s c then 7
  else if s.qos.capacity < listSum (c.pids.map c.pRate) + s.qos.operRate then 8
  else if s.fuse.sensed.sealedOnly && !c.pids.all (fun p => c.pSealed p && c.pRsv p) then 9
  else if faultedServes s b c then 10
  else 0

/-! ## The end of a bundle -/

def setBook (s : State) (k : Book) : State := { s with book := k }
/-- DONE with a result of Table 9-7. -/
def bookEnd (s : State) (r : Nat) : State :=
  operEvent (setBook s { s.book with
    phase := .done, result := r, needed := [], given := [], notices := [], removing := [], fencedR := [], heldSites := [],
    heldDoms := [], drained := false, seen := [], genWait := [] }) 7 1
/-- What was quiesced is restored (R276 step 4): fences lifted, sites of RUNNING partitions loaded again, domains released. The
sequencer has sent the FENCEs itself after a rollback, and its COMMIT has ended the DRAINs; otherwise a commit that changes nothing but
the number ends them (R57, R309; DESIGN CHOICE, log entry 93). -/
def undoQuiesce (s : State) (rolledBack : Bool) : State :=
  let k := s.book
  let s1 := k.fencedR.foldl (fun t i =>
    if !(rshared t i).fenced then t
    else
      let g := genOf t (t.part.active.rOwner i)
      if rolledBack then setRshared t i { rshared t i with fenced := false, rgen := g } else sendFences t [i] g false .quiesce) s
  let sites := k.heldSites.filter (fun x => match siteOwner s1 x with | some p => pstate s1 p = .running | none => false)
  let s2 := if sites.isEmpty then s1 else startLoads s1 sites .rollback
  let s3 := if !rolledBack && k.drained then pushJob s2 (.domain []) else s2
  k.heldDoms.foldl (fun t d => domStart t d .recover) s3

/-! ## Consent (R267, R268) -/

/-- The partitions whose consent the pending bundle needs now. -/
def consentNeeded (s : State) : List Nat :=
  tenants.filter (fun p => (pstate s p = .running || pstate s p = .quarantined) && s.book.cand.pValid p &&
    changesPid s.part.active s.book.cand p)
/-- The version number after `v`, with 0 and 1 passed over (R266). -/
def nextVersion (v : Nat) : Nat := if (v + 1) % 65536 < 2 then 2 else v + 1
/-- BUNDLE_NOTICE, in the layout of log entry 63. -/
def bundleNotice (s : State) (p : Nat) : State :=
  let v := nextVersion s.epoch.curVersion
  let c := bundleOver s s.book.cand
  let t : State := { s with part := { s.part with active := c } }
  let entry (b : Bank) : List Word := (List.range 16).map (fun w =>
    if w = 0 then putFld (putFld (b.pword p 0) 19 17 (pstate s p).num) 13 8 (genOf s p) else b.pword p w)
  let cb (x : State) : List Word := byteString (cborUmap [(1, layoutRegions x p), (8, layoutGrants x p)])
  let s1 := notice s (p - 2) 0x0301
    (bytesToWords s.book.digest ++ [w32 v] ++ entry s.part.active ++ entry c ++ cb s ++ cb t)
  setBook s1 { s1.book with
    notices := s1.book.notices.filter (fun n => decide (n.1 ≠ p)) ++ [(p, genOf s p, v)]
    given := s1.book.given.filter (fun q => decide (q ≠ p)) }
/-- The latest notice to a partition still holds: no generation step since. -/
def noticeCurrent (s : State) (p : Nat) : Bool := s.book.notices.any (fun n => decide (n.1 = p ∧ n.2.1 = genOf s p))

/-! ## Quiescing (R264, R272) -/

/-- The Tallies of a range that another range does not hold. -/
def leavingTallies (b c : Bank) (p : Nat) : List Nat :=
  ((List.range (b.pTallyCount p)).map (· + b.pTallyBase p)).filter (fun t =>
    !c.pValid p || decide (t < c.pTallyBase p ∨ c.pTallyBase p + c.pTallyCount p ≤ t))
/-- The ISCs of the sources that leave a PID. -/
def leavingIscs (s : State) (b c : Bank) (p : Nat) : List Nat :=
  dedup (((b.sources p).filter (fun n => decide (srcOwner c n ≠ p))).filterMap (fun n => (sourceLoc s n).map (fun x => x.1)))
/-- DRAIN at those ISCs, for tenants and for PID 1. -/
def drainSources (s : State) (p : Nat) : State :=
  cpbSendAll s ((leavingIscs s s.part.active s.book.cand p).filter (addressable s)) 0x0B (payPid p 0) .quiesce
/-- The actions of Table 9-9 that need no wait, for one partition, and the frames of the others. -/
def quiescePid (s : State) (p : Nat) : State :=
  let b := s.part.active
  let c := s.book.cand
  let s2 := drainSources ((leavingTallies b c p).foldl clearTally s) p
  let doms := (bitsOf 40 (b.pResets p)).filter (fun d => !(c.pValid p && decide (c.pResets p / 2 ^ d % 2 = 1)))
  let s3 := doms.foldl (fun t d => domLost (setHubRst t d false) d) s2
  let s4 := setBook s3 { s3.book with heldDoms := s3.book.heldDoms ++ doms }
  let vf := b.pVf p
  let s5 := if vf < 64 && (!c.pValid p || decide (c.pVf p ≠ vf)) then
      dropKeys (setTdisp s4 vf 3) (fun k => decide (k.purpose = 3 ∧ k.target = Config.streamOf vf)) else s4
  let peers := if c.pValid p then c.pPeers p else 0
  dropKeys s5 (fun k => decide (k.purpose = 2 ∧ k.pid = p ∧ nfld k.target 7 0 < 128 ∧ peers / 2 ^ nfld k.target 7 0 % 2 = 0))
/-- The sites that leave a partition. -/
def leavingSites (b c : Bank) (p : Nat) : List Nat :=
  (bitsOf 16 (b.pSites p)).filter (fun k => !(c.pValid p && decide (c.pSites p / 2 ^ k % 2 = 1)))
/-- DRAIN to the controllers of the sites that leave a partition that stays. -/
def drainSites (s : State) (p : Nat) : State :=
  ((leavingSites s.part.active s.book.cand p).filter (fun k => s.pins.siteHoldN.getLsbD k)).foldl (fun t k =>
    match siteCtrl t k with
    | some a => if addressable t a then cpbSend t { agent := a, op := 0x0B, payload := payPid p 0, use := .hold p } else t
    | none => t) s
/-- A removed partition enters RETIRING (R264 step 1). -/
def retire (s : State) (p : Nat) : State :=
  let s1 := tdispError (setState s p .retiring) p
  setBook s1 { s1.book with genWait := s1.book.genWait ++ [p] }
/-- Consent is complete: the bundle is accepted, and quiescing begins. A removed partition that is no longer as the checks found it
gives STATE (Table 9-11). -/
def bookAccept (s : State) : State :=
  let b := s.part.active
  let c := s.book.cand
  let loading := fun p => s.boot.loads.any (fun l => match l.why with | .partStart q _ _ _ => decide (q = p) | _ => false)
  if s.book.seen.any (fun x => decide (pstate s x.1 ≠ x.2) || loading x.1) then bookEnd s 15
  else
    let gone := removedPids b c
    let s1 := setBook s { s.book with
      phase := .quiesce, removing := gone, fencedR := b.regions.filter (regionLeaves b c),
      drained := (1 :: b.pids).any (fun p => !(leavingIscs s b c p).isEmpty || !(leavingSites b c p).isEmpty) }
    let s2 := gone.foldl retire s1
    let s3 := drainSources (b.pids.foldl quiescePid s2) 1
    (b.pids.filter (fun p => !gone.contains p)).foldl drainSites s3
/-- The generation step of a removed partition, when R322 permits it: GEN_SET and DRAIN to every agent. -/
def retireGen (s : State) (p : Nat) : State :=
  match genStep s p with
  | (true, s1) =>
    let as := liveAgents s1
    let s2 := cpbSendAll s1 as 7 (genSetPay p (genOf s1 p)) (.retire p)
    let s3 := cpbSendAll s2 as 0x0B (payPid p 0) (.retire p)
    setBook s3 { s3.book with genWait := s3.book.genWait.filter (fun q => decide (q ≠ p)) }
  | (false, s1) => s1
/-- The fence of one leaving region, when R322 permits its value. -/
def fenceLeaving (s : State) (i : Nat) : State :=
  let p := s.part.active.rOwner i
  let g := genOf s p ^^^ 0x20
  if (rshared s i).fenced then s
  else if !tenant p || genPermits s p g then sendFences s [i] g true .quiesce
  else holdGen s p g
/-- The frames of the quiescing have been answered. -/
def quiesceIdle (s : State) : Bool :=
  cpbIdle s .quiesce && s.part.active.pids.all (fun p => cpbIdle s (.retire p) && cpbIdle s (.hold p)) &&
  keysIdle s (agentsOfKind s 5 ++ agentsOfKind s 8)
/-- A region that the bundle moves or deletes is being scrubbed: the bundle waits for its end (R280). -/
def movesScrubbing (s : State) : Bool :=
  s.part.active.regions.any (fun i => decide ((rshared s i).state = 2) && regionMoves s.part.active s.book.cand i)
/-- Sites are held and what a removed partition holds is erased (R264 steps 3 and 4); then the bundle waits for its commit. -/
def quiesceEnd (s : State) : State :=
  let b := s.part.active
  let sites := (b.pids.flatMap (leavingSites b s.book.cand)).filter (fun k => s.pins.siteHoldN.getLsbD k)
  let s1 := holdSites (setBook s { s.book with heldSites := sites }) sites
  let s2 := s1.book.removing.foldl (fun t p => discardWeights (endSession (erasePid t p) (p - 2)) p) s1
  pushJob s2 .bundle

/-! ## The phases -/

/-- The job of the bundle is the one that is being committed. -/
def bundleHead (s : State) : Bool := match s.part.jobs with | .bundle :: _ => true | _ => false
/-- One step of the bundle in progress, when what it waits for has come. -/
def pollBook (s : State) : State :=
  match s.book.phase with
  | .consent =>
    let need := consentNeeded s
    let late := need.filter (fun p => !noticeCurrent s p)
    if !late.isEmpty then setBook (late.foldl bundleNotice s) { (late.foldl bundleNotice s).book with needed := need }
    else if need ≠ s.book.needed then setBook s { s.book with needed := need }
    else if need.all s.book.given.contains &&
        !tenants.any (fun p => pstate s p = .quenching && s.book.cand.pValid p && changesPid s.part.active s.book.cand p) then bookAccept s
    else s
  | .quiesce =>
    if bundleHead s && s.epoch.window then
      setBook s { s.book with phase := if s.epoch.phase = .rollingBack then .rollback else .committing, version := stagedVersion s }
    else if s.part.jobs.any (fun j => j = .bundle) then s
    else if !s.book.genWait.isEmpty then s.book.genWait.foldl retireGen s
    else if s.book.fencedR.any (fun i => !(rshared s i).fenced) then s.book.fencedR.foldl fenceLeaving s
    else if quiesceIdle s && !movesScrubbing s then quiesceEnd s else s
  | .committing =>
    if s.epoch.phase = .rollingBack then setBook s { s.book with phase := .rollback } else s
  | _ => s

/-! ## O_BOOK commands (R269, R270, R547) -/

/-- BOOK_STATUS.CMDRES. -/
def cmdRes (s : State) (r : Nat) : State := setBook s { s.book with cmdres := r }
/-- The checks of a submitted bundle, and the consent phase when they pass. -/
def submitBytes (s : State) (bs : List Byte) : State :=
  let s0 := setBook (cmdRes s 0) { (cmdRes s 0).book with phase := .checking, version := 0 }
  match parseBundle bs with
  | none => bookEnd s0 1
  | some x =>
    if !s.epoch.curValid || decide (x.base ≠ s.epoch.curVersion) then bookEnd s0 2
    else
      let c := bundleBank x
      let r := bundleCheck s0 c
      if r ≠ 0 then bookEnd s0 r
      else setBook s0 { s0.book with
        phase := .consent, cand := c, scrubTally := x.tally, digest := sha384 bs, needed := [], given := [], notices := [],
        startTime := s.time, seen := (removedPids s.part.active c).map (fun p => (p, pstate s p)) }
/-- A command that is BUSY or in the wrong phase, or its effect. -/
def bookCmd (s : State) (ok : BPhase → Bool) (k : State → State) : State :=
  if bundleBusy s then cmdRes s 1 else if ok s.book.phase then k (cmdRes s 0) else cmdRes s 2
/-- An access to O_BOOK. -/
def bookAccess (s : State) (src : Src) (off : Nat) (k : State → State) : State :=
  hcpOnly s src (fun s => access s src (.oper 7 off) (0x87000 + off) true (fun s => respond (k s) src .ok))

def bookOpen (s : State) : State :=
  bookCmd s (fun p => p = .idle || p = .loading || p = .done) (fun s => setBook s { s.book with phase := .loading, buf := [] })
/-- SUBMIT also gives BUSY from the acceptance of a sleep entry on (Table 18-4). -/
def bookSubmit (s : State) : State :=
  if s.pwr.phase ≠ 0 then cmdRes s 1 else bookCmd s (fun p => p = .loading) (fun s => submitBytes s s.book.buf)
/-- ABORT: before the first PREPARE it ends the bundle and restores what it quiesced. -/
def bookAbort (s : State) : State :=
  let s0 := cmdRes s 0
  let leave (s : State) : State := bookEnd s 16
  match s.book.phase with
  | .loading | .checking | .consent => leave s0
  | .quiesce =>
    if bundleHead s && s.epoch.window then cmdRes s 2
    else
      let s1 := if bundleHead s && s.part.composed && s.epoch.phase = .writing then
          setEpoch (cpbDropUse s0 .epoch) { s0.epoch with phase := .done, running := false, prepFailed := true } else s0
      let s2 : State := { s1 with part := { s1.part with
        jobs := s1.part.jobs.filter (fun j => j ≠ .bundle), composed := s1.part.composed && !bundleHead s } }
      leave (undoQuiesce s2 false)
  | _ => cmdRes s 2
/-- RESTORE of a retained version (R270). -/
def bookRestore (s : State) : State :=
  if s.pwr.phase ≠ 0 then cmdRes s 1
  else bookCmd s (fun p => p = .idle || p = .loading || p = .done) (fun s =>
    match bookSlot s (fld (reg s 0x8704C) 2 0) with
    | none => cmdRes s 3
    | some v =>
      let bs := bundleBytes v s.epoch.curVersion
      submitBytes (setBook s { s.book with buf := bs }) bs)
def bookReadback (s : State) : State :=
  match bookSlot s (fld (reg s 0x8704C) 2 0) with
  | none => cmdRes s 3
  | some v => setBook (cmdRes s 0) { (cmdRes s 0).book with readback := bundleBytes v v.num, rbReady := true }
/-- A write to BOOK_WINDOW. -/
def bookWrite (s : State) (src : Src) (bytes : List Byte) : State :=
  hcpOnly s src (fun s => access s src (.oper 7 0x800) 0x87800 true (fun s =>
    if s.book.phase ≠ .loading then respond s src .edown
    else if 0x30000 < s.book.buf.length + bytes.length then respond s src .efull
    else respond (setBook s { s.book with buf := s.book.buf ++ bytes }) src .ok))
/-- CONSENT: digest, version and decision in the layout of log entry 63. -/
def consentMsg (s : State) (c tag : Nat) (body : List Word) : State :=
  let p := chanPid c
  let w := body.getD 12 0
  let dec := fld w 23 16
  if body.length ≠ 13 then replyError s c tag 2 0x0302
  else if s.book.phase ≠ .consent ∨ !s.book.needed.contains p ∨ s.book.given.contains p ∨ (dec ≠ 1 ∧ dec ≠ 2) then replyCode s c tag 0x0302 1
  else if (wordsToBytes body).take 48 ≠ s.book.digest ||
      !s.book.notices.any (fun n => decide (n.1 = p ∧ n.2.2 = fld w 15 0 ∧ n.2.1 = genOf s p)) then replyCode s c tag 0x0302 7
  else
    let s1 := replyCode s c tag 0x0302 0
    if dec = 2 then bookEnd s1 11 else setBook s1 { s1.book with given := s1.book.given ++ [p] }

end Sys2Proof.Machine
end

