-- ==== Sys2Proof/Machine/Jobs.lean ====
section
/-! DEFINITION. The commits of SC1: what each one changes, what its CLOSE or its failure brings about, and the scrub of DIRTY regions
(R234, R258, R261, R264, R276 to R280, R299, R315, R316, R320, R440, R535). -/
namespace Sys2Proof.Machine

/-! ## Composing the staged bank -/

/-- Whether `pid`'s fault ring or verdict ring uses region `i`. -/
def ringIn (s : State) (pid i : Nat) : Bool :=
  ((xlat s pid).ringOn && decide ((xlat s pid).ringRegion = i)) || ((apart s pid).ringOn && decide ((apart s pid).region = i))
/-- The registration in progress still names region `i`, and its owner still owns all of the ring there (R15, R258). -/
def ringPlaced (s : State) (pid i : Nat) : Bool :=
  let x := xlat s pid
  x.ringBusy && decide (x.ringRegion = i) && decide (ownedRegion s pid x.ringBase (4096 * x.ringSlots) = some i)
def logPlaced (s : State) (pid i : Nat) : Bool :=
  let a := apart s pid
  a.ringBusy && decide (a.region = i) && decide (ownedRegion s pid a.base (128 * a.size) = some i)
/-- Whether a measurement in progress reads region `i`. -/
def measured (s : State) (i : Nat) : Bool :=
  s.att.weights.any (fun c => match c.2 with
    | some o => decide (o.status = 1 ∧ o.phase = 1) && (weightRegions s (c.1 / 32) o).contains i
    | none => false)
/-- The tables that the commit of a job brings into force. -/
def composeBank (s : State) (j : Job) : Bank :=
  let b := s.part.active
  match j with
  | .bundle => bundleOver s s.book.cand
  | .boot => Bank.empty
  | .restoreBook _ => if s.boot.pos = BootAt.restore true then Bank.empty else withTaps s (restoredBank s (retained s))
  | .irqApply _ es => es.foldl (fun t e => t.setS e.1 e.2) b
  | .irqBind _ _ _ ws => (bindEntries ws).foldl (fun t e => t.setS e.1 e.2) b
  | .ring p i => if ringPlaced s p i then b.grant0 i 2 0 else b
  | .log p i => if logPlaced s p i then b.grant0 i 2 0 else b
  | .ringRelease p i | .logRelease p i | .ringDrop p i => if ringIn s p i || b.rOwner i ≠ p then b else b.grant0 i 0 2
  | .grantRead p k => match weight s p k with
    | some o => (weightRegions s p o).foldl (fun t i => t.grant0 i 1 0) b
    | none => b
  | .withdrawRead p rs => rs.foldl (fun t i => if b.rOwner i = p && !measured s i then t.grant0 i 0 1 else t) b
  | .domain _ | .keys _ => b
/-- The number that a job's version takes (R145, R149, R266, R278). -/
def composeVersion (s : State) (j : Job) : Nat :=
  match j with
  | .boot => 0
  | .restoreBook _ =>
    if s.boot.pos = BootAt.restore true then 1
    else if s.boot.fast then (retained s).num else nextVersion (retained s).num
  | _ => nextVersion s.epoch.curVersion
/-- The parity that a job's version takes: the current one inverted (R55); after a fast wake the retained one. -/
def composeEp (s : State) : Bool := if s.epoch.curValid then !s.epoch.curEp else if s.boot.fast then (retained s).ep else true
/-- The version in the staged bank, as a job's commit brings it to the agents. -/
def stagedPlan (s : State) (j : Job) : Plan :=
  let restored := match j with | .restoreBook _ => true | _ => false
  { bank := withheldBank s s.part.staged
    gen := fun p => if restored && tenant p then restoredGen s (retained s) p else genOf s p
    shr := fun i => if restored && s.boot.fast then smGet rshareReset (retained s).regions i else rshared s i
    boot := j = .boot }
/-- The write list of the job in front is as SC1 would write it now. -/
def listFits (s : State) : Bool :=
  match s.part.jobs with
  | [] => true
  | j :: _ => decide (s.part.listed = planEntries s (stagedPlan s j) [])
/-- SC1 writes that list. -/
def relist (s : State) (j : Job) : State :=
  let es := planEntries s (stagedPlan s j) []
  writeList { s with part := { s.part with listed := es } } es
/-- SC1 writes the staged bank, EPOCH_STAGED and the write list for the first job that waits. -/
def compose (s : State) (j : Job) : State :=
  let v := composeVersion s j
  relist (setReg { s with part := { s.part with staged := composeBank s j, composed := true, rewrote := 0 } } 0xA044
    (w32 (2 ^ 31 + b2n (composeEp s) * 65536 + v))) j
/-- A job's run has halted at PREPARE (R274): after a first NAK with reason 2 the whole shadow of the agents that have not
acknowledged goes into the list, for REPREPARE; a second one, any other answer, or an agent marked faulted ends the run. -/
def prepareHalted (s : State) (j : Job) : State :=
  let e := s.epoch
  if s.part.rewrote = 0 && decide (e.failReason = 2) && (runFaulted s).isNone then
    let whole := e.agents.filter (fun a => !e.acked.contains a)
    let es := planEntries s (stagedPlan s j) whole
    writeList { s with part := { s.part with listed := es, rewrote := 1 } } es
  else if s.part.rewrote = 1 then s
  else epochAbandon s
/-- The sequencer is free for a new version. -/
def epochFree (s : State) : Bool := (s.epoch.phase = .idle || s.epoch.phase = .done) && !s.epoch.running && !s.epoch.ended
/-- A ring that is being released waits until its last write has returned. -/
def jobReady (s : State) (j : Job) : Bool :=
  match j with
  | .ringRelease p _ => !(xlat s p).writing
  | .logRelease p _ => !(apart s p).writing
  | .ringDrop p _ => !(xlat s p).writing && !(apart s p).writing
  | _ => true

/-! ## What CLOSE brings about -/

/-- The shared fields of region `i` after a version closed. -/
def regionClosed (b c : Bank) (s : State) (i : Nat) : State :=
  let same := b.rValid i && c.rValid i && !regionMoves b c i
  let new := c.rOwner i
  if !c.rValid i then setRshared s i rshareReset
  else if !same then makeDirty s c i
  else if b.rOwner i = new then s
  else if new = 0xFF then makeDirty s c i
  else setRshared s i { state := 3, fenced := false, rgen := genOf s new }
/-- Partitions appear as CONFIGURED and disappear as FREE (Table 9-4), where their keys are erased at the agents, which no longer
reference them (R186, R189); the channel's owner changes, so it holds no version (R96). -/
def partClosed (c : Bank) (s : State) (p : Nat) : State :=
  if c.pValid p && pstate s p = .free then setFloor (setState (noVersion s (p - 2)) p .configured) p
  else if !c.pValid p && pstate s p ≠ .free then setState (dropKeys s (fun k => decide (k.pid = p))) p .free
  else s
/-- Rings whose region left its owner, moved or lost G0 are no longer registered (R258, R300). -/
def ringsClosed (b c : Bank) (s : State) (p : Nat) : State :=
  let gone (i : Nat) : Bool := !c.rValid i || decide (c.rOwner i ≠ p) || regionMoves b c i
  let x := xlat s p
  let s1 := if x.ringOn && gone x.ringRegion then
      record (setXlat s p { x with ringOn := false, fqLost := true }) 0x0045 p 1 1 x.prod.toNat else s
  let a := apart s1 p
  if a.ringOn && gone a.region then setApart s1 p { a with ringOn := false } else s1
/-- The regions of `p` in a bank that an object's range meets. -/
def objRegions (b : Bank) (p : Nat) (o : WObj) : List Nat :=
  b.regions.filter (fun i => decide (b.rOwner i = p ∧ b.rBase i < o.base + o.len ∧ o.base < b.rBase i + b.rSize i))
/-- Whether a job's version changes nothing but a G0 grant made for a measurement or a ring (R234). -/
def Job.grantOnly : Job → Bool
  | .ring _ _ | .log _ _ | .ringRelease _ _ | .logRelease _ _ | .ringDrop _ _ | .grantRead _ _ | .withdrawRead _ _ => true
  | _ => false
/-- A measurement ends STALE when anything of its object's regions but G0 changed (R234). A result is discarded by a commit that
leaves its object's regions with the PID, unless G0 grants are all that the commit changed (Table 8-3; DEDUCED, log entry 54). -/
def weightsClosed (grants : Bool) (b c : Bank) (s : State) (p : Nat) : State :=
  (List.range 17).foldl (fun t k => match weight t p k with
    | some o =>
      if o.status = 1 then (if (objRegions b p o).any (regionDiffers b c) then endWeight t p k 2 else t)
      else if !grants && (objRegions b p o).all (fun i => c.rValid i && decide (c.rOwner i = p)) then setWeight t p k none
      else t
    | none => t) s
/-- The function of a partition goes to ERROR when the commit changed a resource of the partition, for which its report stands
(Table 8-9; DEDUCED, log entry 90). -/
def tdispClosed (b c : Bank) (s : State) (p : Nat) : State :=
  let vf := c.pVf p
  if changesPid b c p && decide (tdisp s vf = 1 ∨ tdisp s vf = 2) then tdispError s p else s
/-- Roots for the units that a partition newly has (R288). -/
def rootsClosed (b c : Bank) (s : State) (p : Nat) : State :=
  let old := unitsOf s b p
  let new := (unitsOf s c p).filter (fun a => !old.contains a && addressable s a)
  if new.isEmpty then s else sendRoots s p new
/-- The LAYOUT event of a partition whose entry, regions or resources changed (R549). -/
def layoutEvent (b c : Bank) (s : State) (p : Nat) : State :=
  if pstate s p ≠ .free && changesPid b c p then winEvent s p 0 2 else s
/-- Puts the version that is now current into the Pattern Book, which keeps its predecessor and up to 6 more versions as far as they
fit (R277). -/
def bookWritten (s : State) : State :=
  let v : Version := { num := s.epoch.curVersion, ep := s.epoch.curEp, bank := s.part.active, shared := s.part.pshared,
                       regions := s.part.rshared }
  let old := match s.part.versions with | h :: rest => if h.num = v.num then rest else h :: rest | [] => []
  { s with part := { s.part with
      versions := v :: old.take (1 + Nat.min 6 (Config.bookRoom v.num)), bookTag := bookSealed s v } }
/-- The regions that a version made DIRTY. -/
def madeDirty (b : Bank) (s : State) : List Nat :=
  let c := s.part.active
  c.regions.filter (fun i => decide ((rshared s i).state = 1) &&
    (!b.rValid i || regionMoves b c i || (decide (c.rOwner i = 0xFF) && decide (b.rOwner i ≠ 0xFF))))
/-- The effects of a CLOSE after S10, from the previous tables `b` to the active ones. -/
def closeEffects (grants : Bool) (s : State) : State :=
  let b := s.part.staged
  let c := s.part.active
  let s1 := (regionsEither b c).foldl (regionClosed b c) s
  let s2 := tenants.foldl (tdispClosed b c) (tenants.foldl (weightsClosed grants b c) s1)
  let s3 := tenants.foldl (ringsClosed b c) s2
  let s4 := tenants.foldl (partClosed c) s3
  let s5 := tenants.foldl (rootsClosed b c) s4
  let s6 := opsLoseRegions (tenants.foldl (layoutEvent b c) s5)
  podKeys (bookWritten (qosRescale s6))
/-- A bundle's scrubs are followed for its SCRUB_TALLY (R280). -/
def followScrubs (s : State) : State :=
  if s.book.scrubTally = 0xFFFF then s
  else { s with part := { s.part with
    scrubFor := s.part.scrubFor ++ [(s.book.scrubTally, madeDirty s.part.staged s)] } }
/-- The effects of S10's commit: the shared fields, the floors and the Pattern Book. -/
def restoreEffects (s : State) (empty : Bool) : State :=
  if empty then
    bookWritten { s with part := { s.part with pshared := [], rshared := [], versions := [] } }
  else if s.boot.fast then bookWritten (restoredShared s (retained s))
  else
    let s1 := restoredShared s (retained s)
    bookWritten ((tenants.filter (fun p => pstate s1 p ≠ .free)).foldl setFloor s1)

/-! ## The end of a commit -/

/-- After a rollback every region that the failed version assigned is DIRTY (R276 step 3). -/
def assignedDirty (s : State) : State :=
  let b := s.part.active
  let c := s.part.staged
  (b.regions.filter (fun i => decide (b.rOwner i = 0xFF) && c.rValid i && decide (c.rOwner i ≠ 0xFF))).foldl
    (fun t i => makeDirty t b i) s
/-- A registration that ended without a ring in use withdraws the right its region may still hold (R15). -/
def dropRing (s : State) (p i : Nat) : State :=
  if s.part.active.rOwner i = p && decide (2 ≤ s.part.active.rG0 i) && !ringIn s p i then pushJob s (.ringDrop p i) else s
/-- What a job's requester gets at its end. -/
def jobDone (s : State) (j : Job) (ok : Bool) : State :=
  match j with
  | .bundle =>
    if ok then bookEnd (followScrubs s) 0
    else if s.epoch.rolledBack then bookEnd (undoQuiesce s true) 14
    else bookEnd (undoQuiesce s false) 13
  | .boot => bootLayoutDone s ok
  | .restoreBook _ => restoreDone s ok
  | .irqApply p _ => irqApplied s p ok
  | .irqBind c tag _ _ => replyCode s c tag 0x0307 (if ok then 0 else 11)
  | .ring p i =>
    let s1 := ringDone s p true (ok && ringPlaced s p i)
    if (xlat s1 p).ringOn then s1 else dropRing s1 p i
  | .ringRelease p _ => ringDone s p false ok
  | .log p i =>
    let s1 := logDone s p true (ok && logPlaced s p i)
    if (apart s1 p).ringOn then s1 else dropRing s1 p i
  | .logRelease p _ => logDone s p false ok
  | .grantRead p k =>
    weightGranted s p k (match weight s p k with | some o => weightRegions s p o | none => []) ok
  | .withdrawRead _ _ | .ringDrop _ _ => s
  | .domain ds => domCommitted s ds ok
  | .keys p =>
    let s1 := keysCommitted s p ok
    (s1.pwr.doms.filter (fun q => decide (q.why = .quench p ∧ q.step = 4))).foldl (fun t q =>
      domEnd (domBack t q.dom ok) q ok) s1
/-- After a rollback, units that the failed version had bound elsewhere get their roots again (R288). -/
def rootsBack (s : State) (p : Nat) : State :=
  let new := unitsOf s s.part.staged p
  let us := (unitsOf s s.part.active p).filter (fun a => !new.contains a && addressable s a)
  if us.isEmpty then s else sendRoots s p us
/-- A run of the sequencer has ended: the effects of its version, then the job it was for. -/
def commitEnded (s : State) : State :=
  let ok := !s.epoch.rolledBack && !s.epoch.prepFailed
  let s0 := setEpoch s { s.epoch with ended := false }
  let s1 := if s0.epoch.rolledBack then tenants.foldl rootsBack (assignedDirty s0) else s0
  match (if s.part.composed then s.part.jobs else []) with
  | [] => if ok && s.block ≠ .boot then closeEffects false s1 else s1
  | j :: rest =>
    let s2 := match j with
      | .boot => s1
      | .restoreBook _ => if ok then restoreEffects s1 (decide (s.boot.pos = BootAt.restore true)) else s1
      | _ => if ok then closeEffects j.grantOnly s1 else s1
    jobDone { s2 with part := { s2.part with jobs := rest ++ s2.part.jobs.drop (rest.length + 1), composed := false } } j ok
/-- One step of the commits: the end of a run, or the next job composed. -/
def pollJobs (s : State) : State :=
  if s.epoch.ended then commitEnded s
  else match s.part.jobs with
    | [] => s
    | j :: _ =>
      if s.part.composed then
        if s.epoch.phase = .prepareHalt && !s.epoch.running then prepareHalted s j
        else if s.epoch.running && decide (s.part.rewrote = 1) then { s with part := { s.part with rewrote := 2 } }
        else if epochFree s && !listFits s then relist s j
        else s
      else if epochFree s && jobReady s j then compose s j else s

/-! ## Scrub (R279, R280) -/

/-- The region to scrub next, none that an accepted bundle moves: DIRTY ones that have not failed first, in index order, then those that are due again. -/
def nextScrub (s : State) : Option Nat :=
  let held := s.book.phase = .quiesce || s.book.phase = .committing || s.book.phase = .rollback
  let ds := s.part.active.regions.filter (fun i =>
    decide ((rshared s i).state = 1) && !(held && regionMoves s.part.active s.book.cand i))
  match ds.find? (fun i => decide (smGet 0 s.part.failed i = 0)) with
  | some i => some i
  | none => ds.find? (fun i => decide (smGet 0 s.part.failed i = 1))
def setScrub (s : State) (c : Option Scrub) : State := { s with part := { s.part with scrub := c } }
/-- SCRUBBING begins. -/
def scrubStart (s : State) (i : Nat) : State :=
  setScrub (setRshared s i { rshared s i with state := 2 }) (some {
    region := i, base := s.part.active.rBase i, size := s.part.active.rSize i, issued := 0, written := 0, readAt := 0, readOk := 0,
    bad := false })
/-- Requests that may still be outstanding: 64 (R279). -/
def scrubRoom (c : Scrub) : Nat := 64 - ((c.issued - c.written) / 4096 + (c.readAt - c.readOk))
/-- Zeros in requests of 4 KiB, then one granule of 64 bytes in every 2 MiB. -/
def scrubIssue (c : Scrub) (s : State) : State :=
  if c.issued < c.size then
    let n := Nat.min (scrubRoom c) ((c.size - c.issued) / 4096)
    let s1 := (List.range n).foldl (fun t k =>
      hipIssue t (.scrub c.region false) (c.base + c.issued + 4096 * k) 4096 true (List.replicate 4096 0)) s
    setScrub s1 (some { c with issued := c.issued + 4096 * n })
  else if c.written = c.size && decide (c.readAt < c.size / 2097152) then
    let n := Nat.min (scrubRoom c) (c.size / 2097152 - c.readAt)
    let s1 := (List.range n).foldl (fun t k =>
      hipIssue t (.scrub c.region true) (c.base + 2097152 * (c.readAt + k)) 64 false []) s
    setScrub s1 (some { c with readAt := c.readAt + n })
  else s
/-- A scrub ends: FREE_CLEAN, or DIRTY with a record and the time of the failure. -/
def scrubEnd (c : Scrub) (s : State) : State :=
  let s1 := setScrub s none
  if c.bad then
    let s2 := setRshared s1 c.region { rshared s1 c.region with state := 1 }
    record { s2 with part := { s2.part with failed := smSet 0 s2.part.failed c.region (s.time + 2) } } 0x0033 0 1 0 c.region
  else
    let s2 := setRshared s1 c.region { rshared s1 c.region with state := 0 }
    { s2 with part := { s2.part with failed := smSet 0 s2.part.failed c.region 0 } }
/-- Nothing is outstanding for the scrub. -/
def scrubIdle (c : Scrub) : Bool := decide (c.issued = c.written ∧ c.readAt = c.readOk)
/-- Every request of the scrub has been made and answered. -/
def scrubWhole (c : Scrub) : Bool := decide (c.written = c.size ∧ c.readOk = c.size / 2097152)
/-- A version whose regions are all clean or assigned signals its Tally once. -/
def scrubTallies (s : State) : State :=
  let clean (i : Nat) : Bool := decide ((rshared s i).state ≠ 1 ∧ (rshared s i).state ≠ 2)
  let done := s.part.scrubFor.filter (fun x => x.2.all clean)
  done.foldl (fun t x => operSignal t x.1)
    { s with part := { s.part with scrubFor := s.part.scrubFor.filter (fun x => !x.2.all clean) } }
/-- One step of the scrub. -/
def pollScrub (s : State) : State :=
  if !serving s || decide (2 ≤ s.pwr.phase) then s
  else
    let t := scrubTallies s
    match t.part.scrub with
    | none => match nextScrub t with | some i => scrubStart t i | none => t
    | some c =>
      if c.bad then (if scrubIdle c then scrubEnd c t else t)
      else if scrubWhole c then scrubEnd c t
      else scrubIssue c t
/-- A response to a request of the scrub. -/
def scrubAnswer (s : State) (region : Nat) (readback ok : Bool) (data : List Byte) : State :=
  match s.part.scrub with
  | none => s
  | some c =>
    if c.region ≠ region then s
    else
      let good := ok && (!readback || data.all (fun b => b = 0))
      let c1 := if readback then { c with readOk := c.readOk + 1 } else { c with written := c.written + 4096 }
      setScrub s (some { c1 with bad := c.bad || !good })
/-- A sleep entry or a takeover leaves the region in progress DIRTY (Tables 17-9, 18-4). What is on HIP for it completes there and
is counted for no region. -/
def scrubDrop (s : State) : State :=
  match s.part.scrub with
  | none => s
  | some c =>
    let isScrub (r : HipReq) : Bool := match r.use with | .scrub _ _ => true | _ => false
    let s1 := setScrub (setRshared s c.region { rshared s c.region with state := 1 }) none
    { s1 with hip := { s1.hip with out := s1.hip.out.map (fun r => if isScrub r then { r with use := .scrub 8192 false } else r)
                                   waiting := s1.hip.waiting.filter (fun r => !isScrub r) } }
/-- A second after its failure a region is due again. -/
def scrubDue (s : State) (i : Nat) : State :=
  match smGet 0 s.part.failed i with
  | _ + 2 => if (rshared s i).state = 1 then { s with part := { s.part with failed := smSet 0 s.part.failed i 1 } } else s
  | _ => s

end Sys2Proof.Machine
end

