-- ==== Sys2Proof/Machine/QuenchSeq.lean ====
section
/-! DEFINITION. The Quench sequence from step 2 on (Table 11-8), its requests, the lift of a quarantine and the start of a partition
(R262, R263, R323 to R332). -/
namespace Sys2Proof.Machine

/-- The current form of a Quench. -/
def withQuench (s : State) (pid : Nat) (f : Quench → Quench) : State :=
  match quenchOf s pid with
  | some q => setQuench s (f q)
  | none => s
def quenchStep (s : State) (pid step : Nat) : State := withQuench s pid (fun q => { q with step := step, blocked := false })
/-- Quenches that hold a place (R329). -/
def placedCount (s : State) : Nat := (s.qn.active.filter (fun q => q.place.isSome)).length
/-- The lowest place that no Quench holds. -/
def quenchPlace (s : State) : Nat :=
  ((List.range 4).find? (fun k => !(s.qn.active.any (fun q => decide (q.place = some k))))).getD 3

/-! ## Steps 2 to 4 -/

/-- The region checkers of step 2. -/
def quenchCheckers (s : State) (pid : Nat) : List Nat :=
  let b := s.part.active
  (dedup ((b.regions.filter (fun i => decide (b.rOwner i = pid ∨ b.rGt i ≠ 0))).flatMap (regionCheckers s b))).filter (addressable s)
/-- GEN_SET sets RGEN of the PID's regions at the checkers; a fenced one keeps its fence (R56). -/
def rgenFollow (s : State) (pid : Nat) : State :=
  (regionsOf s.part.active pid).foldl (fun t i =>
    if (rshared t i).fenced then t else setRshared t i { rshared t i with rgen := genOf t pid }) s
/-- Step 2. -/
def quenchTwo (s : State) (pid : Nat) : State :=
  cpbSendAll (quenchStep (rgenFollow s pid) pid 2) (quenchCheckers s pid) 7 (genSetPay pid (genOf s pid)) (.quench pid 2)
/-- Step 3: DRAIN to the controllers of the sites that run. -/
def quenchThree (s : State) (pid : Nat) : State :=
  ((sitesOf s pid).filter (fun k => s.pins.siteHoldN.getLsbD k)).foldl (fun t k =>
    match siteCtrl t k with
    | some a => if addressable t a then cpbSend t { agent := a, op := 0x0B, payload := payPid pid 0, use := .quench pid 3 } else t
    | none => t) (withQuench s pid (fun q => { q with step := 3, place := some (quenchPlace s), blocked := false }))
/-- Step 4: the sites are held, and GEN_SET goes to every other agent. -/
def quenchFour (s : State) (pid : Nat) : State :=
  let s1 := quenchStep (holdSites s (sitesOf s pid)) pid 4
  let cs := quenchCheckers s1 pid
  cpbSendAll s1 ((liveAgents s1).filter (fun a => !cs.contains a)) 7 (genSetPay pid (genOf s1 pid)) (.quench pid 4)

/-! ## Steps 5 to 8 -/

/-- What waits for HIP for a PID goes no further; a request already there completes (R326, Table 11-9). -/
def dropHip (s : State) (pid : Nat) : State :=
  { s with hip := { s.hip with waiting := s.hip.waiting.filter (fun r => match r.use with
      | .post p _ | .batch p | .weight p _ => decide (p ≠ pid)
      | _ => true) } }
/-- Step 5 (R326). -/
def flushPid (s0 : State) (pid : Nat) : State :=
  let s := dropHip s0 pid
  let s1 := endSession (channelClear s (pid - 2)) (pid - 2)
  let s2 := xlDiscard (clearPartTallies s1 pid) pid
  dropPend (dropHeld (asyFlush (discardPreps (discardWeights s2 pid) pid) pid) pid) pid
/-- Steps 5 and 6, and step 7 begins for every domain that the partition owns. -/
def quenchFlush (s : State) (pid : Nat) : State :=
  let s1 := eraseStale (flushPid s pid) pid
  let s2 := { s1 with att := { s1.att with
    keys := s1.att.keys.map (fun k => if k.pid = pid then { k with asker := none } else k) } }
  let s3 := withQuench s2 pid (fun q => { q with step := 7, flushed := true, lastAck := s.time })
  (bitsOf 40 (s.part.active.pResets pid)).foldl (fun t d => domStart t d (.quench pid)) s3
def quenchDoms (s : State) (pid : Nat) : List DomSeq := s.pwr.doms.filter (fun q => decide (q.why = .quench pid))
/-- Every domain of the Quench has ended step 4. -/
def quenchDomsReady (s : State) (pid : Nat) : Bool :=
  (quenchDoms s pid).all (fun q => decide (q.step = 4) && keysIdle s (domainAgents s q.dom))
def keysOfPid (s : State) (pid : Nat) : List DKey := s.att.keys.filter (fun k => decide (k.pid = pid))
/-- Step 8 begins: with domains to reload or keys to remove there is a commit; otherwise nothing is committed. -/
def quenchEight (s : State) (pid : Nat) : State :=
  let s1 := withQuench s pid (fun q => { q with step := 8, domsDone := true })
  if (quenchDoms s pid).isEmpty then s1 else pushJob s1 (.keys pid)
/-- The keys in force are marked for removal by a commit, and erased at their agents after it. -/
def quenchKeys (s : State) (pid : Nat) : State :=
  let ks := keysOfPid s pid
  let busy := s.part.jobs.any (fun j => j = .keys pid)
  if ks.any (fun k => decide (k.phase = 2)) then
    pushJob { s with att := { s.att with
      keys := s.att.keys.map (fun k => if k.pid = pid && decide (k.phase = 2) then { k with phase := 3 } else k) } } (.keys pid)
  else if ks.isEmpty && !busy && (quenchDoms s pid).isEmpty then
    withQuench s pid (fun q => { q with step := 9, keysDone := true })
  else s

/-! ## Steps 10 and 11 -/

/-- QUENCH_DONE to the requester's operator channel, or to operator channel 0 (R327). -/
def quenchTell (s : State) (q : Quench) : State :=
  let ch := match q.requester with | .oper c => c | _ => 64
  queueMessage s ch 0x0306 0 0
    [w32 ((pstate s q.pid).num * 65536 + genOf s q.pid * 256 + q.pid), w32 (bitmap (heldSites s q.pid))]
/-- The place is free again. -/
def quenchLeave (s : State) (pid : Nat) : State :=
  { s with qn := { s.qn with active := s.qn.active.filter (fun x => decide (x.pid ≠ pid)) } }
/-- Step 10 (R327); a restart goes on to step 11. -/
def quenchTen (s : State) (q : Quench) : State :=
  let pid := q.pid
  let s1 := noVersion (windowReset s pid) (pid - 2)
  let s2 := match q.outcome with
    | 0 => s1
    | 1 => setState s1 pid .configured
    | _ => setState s1 pid .quarantined
  let s3 := record s2 0x0042 pid 0 1 (pstate s2 pid).num (bitmap (heldSites s2 pid))
  let s4 := fwEvent { s3 with qn := { s3.qn with doneCnt := satInc s3.qn.doneCnt } } (pgFw 0xD) 1
  if q.outcome = 0 then startLoads (quenchStep s4 pid 11) (sitesOf s4 pid) (.quench pid)
  else quenchTell (quenchLeave s4 pid) q
/-- Step 11 ends: every site of the restart has been loaded or stays held. -/
def quenchEleven (s : State) (q : Quench) : State := quenchTell (setState (quenchLeave s q.pid) q.pid .running) q

/-! ## Polling -/

/-- One step of the Quench of `pid`, when what it waits for has come. -/
def quenchPoll (s : State) (pid : Nat) : State :=
  match quenchOf s pid with
  | none => s
  | some q =>
    match q.step with
    | 1 =>
      if q.blocked then
        match genStep s pid with
        | (true, s1) => withQuench s1 pid (fun x => { x with blocked := false })
        | (false, s1) => s1
      else quenchTwo s pid
    | 2 =>
      if q.blocked || !cpbIdle s (.quench pid 2) then s
      else if placedCount s < 4 && !s.qn.active.any (fun x => decide (x.step = 2) && x.blocked) then quenchThree s pid
      else fwEvent (withQuench s pid (fun x => { x with blocked := true })) (pgFw 0xD) 2
    | 3 => if cpbIdle s (.quench pid 3) then quenchFour s pid else s
    | 4 => if cpbIdle s (.quench pid 4) then quenchFlush s pid else s
    | 7 => if quenchDomsReady s pid then quenchEight s pid else s
    | 8 => quenchKeys s pid
    | 9 => if q.drained then quenchTen s q else s
    | 11 => if loadsDone s (.quench pid) then quenchEleven s q else s
    | _ => s
def pollQuench (s : State) : State := (s.qn.active.map (fun q => q.pid)).foldl quenchPoll s
/-- A place frees: the oldest Quench that waits goes on (R329). -/
def quenchResume (s : State) : State :=
  match s.qn.active.find? (fun q => decide (q.step = 2) && q.blocked) with
  | some q => if placedCount s < 4 then quenchThree s q.pid else s
  | none => s
/-- The wait of step 9 has ended: 5 ms on both time bases since the last ACK of step 4 (R477). -/
def quenchDrained (s : State) (pid : Nat) : State :=
  withQuench s pid (fun q => if 5 ≤ q.step then { q with drained := true } else q)

/-! ## Requests -/

/-- QN_CMD.START (Table 11-12). -/
def qnStart (s : State) (pid outcome : Nat) : State :=
  let s := setReg s 0xD040 (w32 (outcome * 2 ^ 24 + pid * 256))
  let done (r : Nat) (s : State) : State := { s with qn := { s.qn with result := r } }
  if !tenant pid then done 2 s
  else if outcome = 3 then done 1 s
  else
    let (ok, s1) := quenchRequest s pid outcome .firmware
    done (if ok then 0 else 1) s1
/-- QUENCH (R323). -/
def quenchMsg (s : State) (c tag : Nat) (body : List Word) : State :=
  let w := body.headD 0
  if body.length ≠ 1 then replyError s c tag 2 0x0304
  else
    let pid := if operChan c then fld w 7 0 else chanPid c
    if !tenant pid then replyCode s c tag 0x0304 6
    else if 2 ≤ fld w 9 8 then replyCode s c tag 0x0304 1
    else
      let (ok, s1) := quenchRequest s pid (fld w 9 8) (if operChan c then .oper c else .tenant)
      if !ok then replyCode s1 c tag 0x0304 1 else if operChan c then replyCode s1 c tag 0x0304 0 else s1
/-- QUARANTINE_LIFT (R263). -/
def liftMsg (s : State) (c tag : Nat) (body : List Word) : State :=
  let pid := if operChan c then fld (body.headD 0) 7 0 else chanPid c
  if operChan c && decide (body.length ≠ 1) then replyError s c tag 2 0x0305
  else if !tenant pid then replyCode s c tag 0x0305 6
  else if pstate s pid ≠ .quarantined then replyCode s c tag 0x0305 1
  else
    let v := pshared s pid
    let v1 := if operChan c then { v with liftOper := true } else { v with liftPriv := true }
    let s1 := replyCode (setPshared s pid v1) c tag 0x0305 0
    if v1.liftOper && v1.liftPriv then record (setState s1 pid .configured) 0x0043 pid 0 1 else s1
/-- PART_START (R262): a second one for a partition that is being loaded finds it CONFIGURED and is answered BUSY. -/
def partStart (s : State) (c tag cls : Nat) (body : List Word) : State :=
  let pid := fld (body.headD 0) 7 0
  let loading := s.boot.loads.any (fun l => match l.why with | .partStart q _ _ _ => decide (q = pid) | _ => false)
  if body.length ≠ 1 then replyError s c tag 2 0x0303
  else if !tenant pid then replyCode s c tag 0x0303 6
  else if pstate s pid ≠ .configured then replyCode s c tag 0x0303 1
  else if loading then replyCode s c tag 0x0303 8
  else startLoads s (sitesOf s pid) (.partStart pid c tag cls)

end Sys2Proof.Machine
end

