-- ==== Sys2Proof/Machine/Sleep.lean ====
section
/-! DEFINITION. Sleep entry, the power handshake around it, and the wake logic (R69, R156, R157, R496 to R509; Tables 18-4 to 18-7). -/
namespace Sys2Proof.Machine

/-! ## Requests (R500, Table 18-9) -/

/-- The first result that refuses a sleep request, as a code of Table 8-7: LIMIT, BAD_RESOURCE, BUSY, REFUSED_STATE; 0 for none. -/
def sleepRefused (s : State) (grace retain : Nat) : Nat :=
  if 10000 < grace then 4
  else if 2 ^ 40 ≤ retain then 6
  else if s.pwr.phase ≠ 0 then 8
  else if s.block ≠ .run ∨ bundleBusy s ∨ s.qn.active ≠ [] ∨ s.pwr.doms ≠ [] ∨ s.fuse.busy then 1
  else 0
/-- MEM_KEPT: every region of the partition is governed only by checkers whose domains are retained (R501). -/
def memKept (s : State) (pid : Nat) : Bool :=
  (regionsOf s.part.active pid).all (fun i => (regionCheckers s s.part.active i).all (fun a =>
    (domainsOf s a).all (fun d => s.pwr.retain.getLsbD d)))
/-- SLEEP_NOTICE to every partition that is CONFIGURED, RUNNING or QUARANTINED. -/
def sleepNotice (s : State) (grace : Nat) : State :=
  (tenants.filter (fun p => (pstate s p).attested)).foldl (fun t p =>
    notice t (p - 2) 0x0602 [w32 (b2n (memKept s p) * 65536 + grace)]) s
/-- Step 1. -/
def sleepBegin (s : State) (grace retain : Nat) : State :=
  sleepNotice { s with pwr := { s.pwr with
    phase := 1, grace := grace, retain := BitVec.ofNat 40 retain, graceDone := false, started := s.time, noDigest := false } } grace
/-- SLEEP_REQUEST. -/
def sleepMsg (s : State) (c tag : Nat) (body : List Word) : State :=
  if body.length ≠ 3 then replyError s c tag 2 0x0601
  else
    let grace := fld (body.getD 0 0) 13 0
    let retain := (body.getD 1 0).toNat + 2 ^ 32 * (body.getD 2 0).toNat
    let r := sleepRefused s grace retain
    if r ≠ 0 then replyCode s c tag 0x0601 r else sleepBegin (replyCode s c tag 0x0601 0) grace retain
/-- PWR_CMD SLEEP. -/
def sleepCmd (s : State) (grace : Nat) : State :=
  let s := setReg s 0x14040 (putFld (reg s 0x14040) 26 13 grace)
  let done (r : Nat) (s : State) : State := { s with pwr := { s.pwr with result := r } }
  if s.pwr.busy then done 3 s
  else match sleepRefused s grace s.pwr.staged.toNat with
    | 0 => sleepBegin { s with pwr := { s.pwr with result := 0, busy := true } } grace s.pwr.staged.toNat
    | 4 => done 4 s
    | 6 => done 2 s
    | 8 => done 3 s
    | _ => done 1 s
/-- A core fault in step 1 or 2 cancels the entry (Table 18-7). -/
def sleepCancel (s : State) : State :=
  if s.pwr.phase = 1 then
    let s1 := sleepNotice s 0x3FFF
    { s1 with pwr := { s1.pwr with phase := 0, grace := 0, graceDone := false, busy := false } }
  else { s with pwr := { s.pwr with noDigest := s.pwr.noDigest || decide (2 ≤ s.pwr.phase) } }
/-- The grace has passed. -/
def graceEnd (s : State) : State := if s.pwr.phase = 1 then { s with pwr := { s.pwr with graceDone := true } } else s

/-! ## Steps 3 to 8 -/

def sleepPhase (s : State) (n : Nat) : State := { s with pwr := { s.pwr with phase := n } }
/-- Step 4 for one partition: what R326 lists, its Assay work with records, without a generation step. -/
def sleepFlush (s : State) (pid : Nat) : State :=
  if pstate s pid = .free then s
  else flushPid (((openOps s).filter (fun x => decide (x.1 = pid))).foldl (fun t x => opAbort t x.1 x.2.1 x.2.2 0) s) pid
/-- Step 3 ends and step 4. -/
def sleepQuiesced (s : State) : State :=
  sleepPhase (scrubDrop (tenants.foldl sleepFlush (holdSites s (List.range 16)))) 3
/-- The slots of R503: those of the keys in force, and the pod master's. -/
def sealSlots (s : State) : List (Option DKey × Slot) :=
  (s.att.keys.filter (fun k => decide (k.phase = 2))).map (fun k => (some k, slotOf s k.slot)) ++
  (((List.range 248).map (· + 8)).filter (isPodMaster s)).map (fun n => (none, slotOf s n))
/-- The sealed area: each item's number, the key that it is, and its wrapped bytes. Without slot 0 nothing can be sealed. Item 1 is
the Pattern Book's (R277), so these are numbered from 2 (DESIGN CHOICE, log entry 91). -/
def sealItems (s : State) : List (Nat × Option DKey × List Byte) :=
  if slotEmpty s 0 then [] else (sealSlots s).mapIdx (fun n x => (n + 2, x.1, sealSlot s (n + 2) x.2))
/-- The current version as the Pattern Book holds it at step 5. -/
def bookKept (s : State) : State :=
  match s.part.versions with
  | v :: rest =>
    if v.num = s.epoch.curVersion then
      let v1 := { v with shared := s.part.pshared, regions := s.part.rshared }
      { s with part := { s.part with versions := v1 :: rest, bookTag := bookSealed s v1 } }
    else s
  | [] => s
/-- Step 6: the digest is written and armed, unless one is armed already (R157) or a core fault came. -/
def sleepArm (s : State) : State :=
  if s.pwr.noDigest || s.boot.armed then s
  else { s with boot := { s.boot with sleepDigest := digestWords (sleepDigestNow s) 12, armed := true } }
/-- Steps 5 to 8. -/
def sleepSeal (s : State) : State :=
  let s1 := bookKept { s with att := { s.att with sealedArea := sealItems s } }
  let s2 := cpbShutter (sleepArm s1)
  let s3 := { s2 with pins := { s2.pins with shutterN := false, hubRstN := 0 }, pwr := { s2.pwr with doms := [] } }
  (List.range 40).foldl (fun t d => pwrAsk t d (if t.pwr.retain.getLsbD d then 2 else 0)) (sleepPhase s3 4)
/-- Step 9 begins: SLEEP, and the request for KX3 itself. -/
def sleepReached (s : State) : State :=
  pwrAsk { setBlock s .sleep with tmp := { s.tmp with sleepTamper := false } } 63 0
/-- One step of the entry, when what it waits for has come. A commit that runs is let end first. -/
def pollSleep (s : State) : State :=
  match s.pwr.phase with
  | 1 =>
    if s.pwr.graceDone && s.qn.active.isEmpty && !s.epoch.running && !s.epoch.window then
      cpbSendAll (sleepPhase s 2) (liveAgents s) 0x0B (payPid 0xFF 0) .sleep
    else s
  | 2 => if cpbIdle s .sleep then sleepQuiesced s else s
  | 3 => sleepSeal s
  | 4 => if s.block ≠ .sleep && s.pwr.queue.isEmpty && !s.pwr.asked then sleepReached s else s
  | _ => s

/-! ## The core island off and on (R504, R505) -/

/-- Only the contents of Table 18-5 are left. -/
def islandOff (s : State) : State :=
  let t := coreReset s true
  { t with block := .sleep, boot := { t.boot with wakeStart := false } }
/-- Step 3 of Table 18-6: the core island is powered again; its start is a wake. -/
def islandOn (s : State) : State :=
  let t := coreReset s true
  { t with pwr := { t.pwr with wakes := satAdd 65535 t.pwr.wakes 1 } }
/-- The wake latch acts in SLEEP, once KX3's own handshake has ended: steps 1 and 2 of Table 18-6. -/
def pollWake (s : State) : State :=
  if s.block = .sleep && s.pwr.wakeLatch && !s.pwr.waking && !s.pwr.asked && s.pwr.queue.isEmpty then
    let ds := (List.range 40).filter (fun d => !s.pins.pdStatus.getLsbD d)
    pwrAsk (ds.foldl (fun t d => pwrAsk t d 1) { s with pwr := { s.pwr with waking := true } }) 63 1
  else s
/-- A rising edge of KX_WAKE. -/
def wakeEdge (s : State) : State := { s with pwr := { s.pwr with wakeLatch := true } }

/-! ## The handshake (R69) -/

/-- A request has ended. -/
def pwrFinished (s : State) (r : PwrReq) : State :=
  let s1 := { s with pwr := { s.pwr with asked := false, queue := s.pwr.queue.drop 1 } }
  if r.dom ≠ 63 then pwrPoll (pwrAnswered s1 r)
  else if s.block ≠ .sleep then s1
  else if r.state = 0 then islandOff s1
  else islandOn s1
/-- KX_PWR_ACK changes: at 1 KX_PWR_REQ falls; at 0 after that the request has ended. -/
def pwrAck (s : State) (level : Bool) : State :=
  match (if s.pwr.asked then s.pwr.queue else []) with
  | [] => s
  | r :: _ =>
    if level then { s with pins := { s.pins with pwrReq := false } }
    else if s.pins.pwrReq then s
    else pwrFinished s r
/-- No KX_PWR_ACK within 10 ms: HALTED with 0x61, and the wake is abandoned. -/
def pwrSilent (s : State) : State :=
  if s.pwr.asked then
    haltWith { s with
      pwr := { s.pwr with asked := false, queue := [], waking := false, phase := 0, doms := [] },
      pins := { s.pins with pwrReq := false } } 0x61
  else s

/-! ## The sleep digest (R157, R158) -/

/-- A write to word 11 of BOOT_SLEEP_DIGEST. -/
def sleepDigestArm (s : State) (w : Who) (word : Word) : State :=
  if s.boot.armed then refuse s (.fab w) (.fw 2 0xAC) 0x20AC .elock
  else respond { s with boot := { s.boot with sleepDigest := smSet 0 s.boot.sleepDigest 11 word, armed := true } } (.fab w) .ok
/-- A write to word 11 of BOOT_WAKE_DIGEST: the one comparison with the armed digest. -/
def wakeDigestCompare (s : State) (w : Who) (word : Word) : State :=
  if w ≠ .bc ∨ s.block ≠ .boot ∨ 6 ≤ s.boot.step then refuse s (.fab w) (.fw 2 0xDC) 0x20DC .eaccess
  else
    let d := smSet 0 s.boot.wakeDigest 11 word
    let eq := (List.range 12).all (fun i => smGet 0 d i = smGet 0 s.boot.sleepDigest i)
    let s1 := respond { s with boot := { s.boot with
      wakeDigest := d
      wakeMatch := if s.boot.armed then eq else s.boot.wakeMatch
      armed := false
      sleepDigest := [] } } (.fab w) .ok
    if s.boot.pos = .wakeCheck then wakeDecide s1 else s1

end Sys2Proof.Machine
end

