-- ==== Sys2Proof/Machine/Tamper.lean ====
section
/-! DEFINITION. Tamper alarms, KX_TREF, core faults and the takeover, memory errors, the array BIST, halts by firmware, the timing
band, the debug unlock, and the Ledger's commands (R114, R470 to R487, R493, R513, R514, R542). -/
namespace Sys2Proof.Machine

/-! ## Tamper sources (R470, R478) -/

/-- TMP_RAW, and TMP_IN for the sources 0 to 15. -/
def rawSet (s : State) (src : Nat) (on : Bool) : State :=
  let m := BitVec.ofNat 32 (2 ^ src)
  let raw := if on then s.tmp.raw ||| m else s.tmp.raw &&& ~~~ m
  { s with tmp := { s.tmp with raw := raw },
           pins := { s.pins with tmpIn := if src < 16 then raw.truncate 16 else s.pins.tmpIn } }
/-- TAMPER_CONDITION. -/
def execTamperCondition (src : BitVec 5) (s : State) : Host.Outcome State Fault Refusal :=
  if src.toNat = 31 then .fault .noSuchSource else .next (rawSet s src.toNat true)
/-- TAMPER_CONDITION_END. -/
def execTamperConditionEnd (src : BitVec 5) (s : State) : Host.Outcome State Fault Refusal :=
  if src.toNat = 31 then .fault .noSuchSource else .next (rawSet s src.toNat false)

/-! ## Confirmed alarms (R471 to R474, Table 17-2) -/

/-- Droop and overvoltage are armed from the self-check of S1 until entry into SLEEP (Table 17-1). -/
def sourceArmed (s : State) (src : Nat) : Bool :=
  !(decide (16 ≤ src) && decide (src ≤ 24)) ||
  (s.block ≠ .reset && s.block ≠ .sense && s.block ≠ .sleep && decide (1 ≤ s.boot.step))
/-- The moment code of Table 17-2. -/
def alarmMoment (s : State) : Nat :=
  match s.block with
  | .reset => 0 | .sense => 1
  | .boot => if s.sbox.rootValid then 2 else 1
  | .run | .degraded => 3 | .safe => 4 | .halted => 5 | .sleep => 6
/-- The effects of every confirmed alarm (R472). -/
def alarmNoted (s : State) (src m : Nat) : State :=
  let s1 := fuseStopFree s 10
  let s2 := { s1 with
    fuse := { s1.fuse with unlockLatch := false },
    tmp := { s1.tmp with alarm := true, alarms := satAdd 65535 s1.tmp.alarms 1,
                         first := match s1.tmp.first with | some f => some f | none => some (src, m) } }
  record (fwEvent s2 (pgFw 0x12) 1) 0x0010 0 6 2 (src + 256 * m)
/-- The pre-key record: the ROM programs counter 17 where it runs with the supply in its window, and a recording that ends with OK
clears PEND; otherwise PEND stays (R474, R553). With the page locked the area enables stand as they are (R93). -/
def alarmCounter (s : State) : State :=
  if s.block = .boot && decide (s.boot.step < 7) && decide (s.fuse.window = 1) && decide (s.fuse.sensed.lcs ≠ 6) then
    let s1 := if (hdr s (pgFw 1)).lock then s
      else setHdr s (pgFw 1) { hdr s (pgFw 1) with ctrl := (hdr s (pgFw 1)).ctrl ||| w32 0x10 }
    let s2 := fuseDone (counterAdvance s1 17 1) 0
    { s2 with tmp := { s2.tmp with pend := decide (s2.fuse.result ≠ 0) } }
  else { s with tmp := { s.tmp with pend := true } }
/-- A confirmed alarm. Once the Shutter has fired it changes nothing further (R472). -/
def alarmConfirmed (s : State) (src : Nat) : State :=
  if s.tmp.shutter || !sourceArmed s src then s
  else
    let m := alarmMoment s
    let s1 := alarmNoted s src m
    match m with
    | 0 => shutterFire { s1 with tmp := { s1.tmp with pend := true } }
    | 1 => haltWith (shutterFire (alarmCounter s1)) 0x40
    | 2 => haltWith (shutterFire s1) 0x41
    | 3 => safeEntry (shutterFire s1) 0x0010 true
    | 6 => let s2 := shutterFire s1; { s2 with tmp := { s2.tmp with sleepTamper := true } }
    | _ => shutterFire s1
/-- ALARM_CONFIRMED. -/
def execAlarmConfirmed (src : BitVec 5) (s : State) : Host.Outcome State Fault Refusal :=
  if src.toNat = 31 then .fault .noSuchSource else .next (alarmConfirmed s src.toNat)

/-! ## KX_TREF (R477) -/

/-- A deviation over a window of 10 us, in units of 0.01 %: above 2 % it sets BAD and is recorded. -/
def execTrefDeviation (dev : BitVec 16) (s : State) : Host.Outcome State Fault Refusal :=
  let s1 : State := { s with tmp := { s.tmp with trefDev := Nat.max s.tmp.trefDev dev.toNat } }
  .next (if 200 < dev.toNat then record { s1 with tmp := { s1.tmp with trefBad := true } } 0x0012 0 1 0 dev.toNat else s1)
/-- 100 ms without a deviation. -/
def execTrefBadClear (s : State) : Host.Outcome State Fault Refusal :=
  .next { s with tmp := { s.tmp with trefBad := false } }

/-! ## Escalation to SAFE -/

/-- L4: the ESCALATION record, then SAFE (R479, R486, R491). -/
def escalateSafe (s : State) (cause : Nat) : State := safeEntry (escRecord s 0 4 0 cause 0) cause false
/-- A core can run, and the fault controller acts on its faults. -/
def coresLive (s : State) : Bool := s.block = .boot || serving s

/-! ## Core faults (R483 to R485, Tables 17-8, 17-9) -/

/-- Whether the core runs: BC in every start, a service core once it has been released; none that is held. -/
def coreRuns (s : State) (core : Nat) : Bool :=
  coresLive s && !s.cores.failed.getLsbD core && (decide (core = 0) || s.cores.released.getLsbD core)
/-- SC3 can take the work of a failed core. -/
def standby (s : State) : Bool :=
  s.cores.released.getLsbD 3 && !s.cores.failed.getLsbD 3 && !s.cores.standbyLost && decide (s.cores.work = 0)
/-- Hallmarks in preparation are discarded; their requests stay queued for a new snapshot (Table 17-9). -/
def prepsAgain (s : State) : State :=
  let s1 := s.att.preps.foldl (fun t p => if p.place = 255 then t else setHmkPlace t p.place hmkPlaceReset) s
  setPreps s1 (s1.att.preps.map (fun p => { p with place := 255, payload := [] }))
/-- Measurements in progress end with STALE. -/
def measureStale (s : State) : State := tenants.foldl staleWeights s
/-- What SC3 resumes for SC1: the region that is SCRUBBING from its start, Hallmarks anew, measurements not at all. -/
def resumeWork (s : State) (core : Nat) : State := if core = 1 then measureStale (prepsAgain (scrubDrop s)) else s
/-- DEGRADED with its record, from RUN. -/
def enterDegraded (s : State) : State :=
  if s.block = .run then qosRescale (record (setBlock s .degraded) 0x0003 0 1 2 (degradation s))
  else if s.block = .degraded then qosRescale s
  else s
/-- SC3 takes over. -/
def takeover (s : State) (core : Nat) : State :=
  let s1 := sleepCancel { s with cores := { s.cores with work := core } }
  enterDegraded (record (resumeWork s1 core) 0x0021 0 1 0 core)
/-- A core fault (cause 1 an exception, 2 parity, 3 no heartbeat): the core is held, recorded, and its work goes to SC3, or the fault
goes to L4. An exception in the ROM, which no firmware kernel reports, halts with 0xF1 (Table 5-16). -/
def coreFault (s : State) (core cause : Nat) : State :=
  if !coreRuns s core then s
  else
    let free := standby s
    let s1 := record { s with cores := { s.cores with failed := s.cores.failed ||| BitVec.ofNat 4 (2 ^ core) } }
      0x0020 0 1 0 (core + 16 * cause)
    match core with
    | 0 =>
      if s.block = .boot && decide (cause = 1) && decide (1 ≤ s.boot.step ∧ s.boot.step ≤ 6) then haltWith s1 0xF1
      else if s.block = .boot && decide (3 ≤ s.boot.step ∨ s.boot.pos = .wakeCheck) then escalateSafe s1 0x0020 else sleepCancel s1
    | 3 =>
      if s.cores.work ≠ 0 || s.cores.failed.getLsbD 1 || s.cores.failed.getLsbD 2 then escalateSafe s1 0x0020
      else sleepCancel (record { s1 with cores := { s1.cores with standbyLost := true } } 0x0022 0 1 0)
    | _ => if free then takeover s1 core else escalateSafe s1 0x0020
/-- The number of the core behind an initiator. -/
def heartbeat (s : State) (w : Who) : State :=
  { s with cores := { s.cores with beat := smSet 0 s.cores.beat w.num s.time } }
/-- HEARTBEAT_WRITE. -/
def execHeartbeatWrite (w : Who) (s : State) : Host.Outcome State Fault Refusal := .next (ownCore s w (fun s => heartbeat s w))
/-- BC counts as released from stage 1 on. -/
def beatDue (s : State) (core : Nat) : Bool := decide (core ≠ 0) || serving s || decide (7 ≤ s.boot.step)

/-! ## Memory errors (R480) -/

/-- An uncorrectable error in retained SRAM: in the journal's 16 KiB, which lie after the image cache and the Ledger (log entry 75), the
entry no longer matches its CRC. -/
def journalDamage (s : State) (off : Nat) : State :=
  let k := (off - 0x220000) / 32
  if off < 0x220000 ∨ 512 ≤ k then s
  else if k = 0 then { s with boot := { s.boot with journalOk := false } }
  else match smGet none s.boot.journal k with
    | some r => { s with boot := { s.boot with journal := smSet none s.boot.journal k (some { r with damaged := true }) } }
    | none => s
/-- An error in main SRAM (0), Assay scratch control state (1), retained SRAM other than the Ledger (2) or the Ledger (3); the
numbers are the model's (log entry 65). -/
def sramError (s : State) (mem : Nat) (unc : Bool) (pid off : Nat) : State :=
  if !coresLive s then s
  else
    let p0 := b2n unc + 2 * mem
    let s := if unc && mem = 2 then journalDamage s off else s
    if !unc then (if mem = 1 then s else record s 0x0023 0 1 0 p0 off)
    else match mem with
      | 0 =>
        if tenant pid then faultPid (record s 0x0023 pid 3 1 p0 off) pid 0x0023 0
        else escalateSafe (record s 0x0023 0 5 0 p0 off) 0x0023
      | 1 | 2 => escalateSafe (record s 0x0023 0 5 0 p0 off) 0x0023
      | _ =>
        match smGet none s.ledger.slots (off / 4 % 4096) with
        | some r => { s with ledger := { s.ledger with slots := smSet none s.ledger.slots (off / 4 % 4096) (some { r with damaged := true }) } }
        | none => s
/-- The logic BIST of an Assay array ends (R14, R430, R480). It runs from the array's third disagreement within 1 s on. -/
def arrayBist (s : State) (array : Nat) (pass : Bool) : State :=
  if !serving s || decide ((smGet [] s.tmp.disagree array).length < 3) then s
  else if pass then { s with tmp := { s.tmp with disagree := smSet [] s.tmp.disagree array [] } }
  else if !s.cores.arrays.getLsbD array then s
  else
    let s1 := record { s with cores := { s.cores with arrays := s.cores.arrays &&& ~~~ BitVec.ofNat 16 (2 ^ array) } }
      0x0054 0 1 2 array
    enterDegraded s1
/-- ARRAY_BIST_DONE. -/
def execArrayBistDone (array : BitVec 4) (pass : Bool) (s : State) : Host.Outcome State Fault Refusal :=
  .next (arrayBist s array.toNat pass)

/-! ## TOP (R513, R514) -/

/-- TOP_HALT: a permitted code in BOOT halts; every other write is refused with EACCESS. -/
def execTopHaltWrite (w : Who) (code : Byte) (s : State) : Host.Outcome State Fault Refusal :=
  .next (byCore s w (fun s =>
    let c := code.toNat
    if s.block = .boot ∧ ((0x20 ≤ c ∧ c ≤ 0x3F) ∨ (0x60 ≤ c ∧ c ≤ 0x6F)) then haltWith (answer s .ok) c
    else refuse s (.fab w) (.fw 0 0x4C) 0x4C .eaccess))
/-- TOP_VT.CLR. -/
def execTopVtClr (w : Who) (s : State) : Host.Outcome State Fault Refusal :=
  .next (byCore s w (fun s => answer { s with tmp := { s.tmp with slowest := s.tmp.band } } .ok))
/-- VDD_KX crosses a band boundary, or Tj changes. -/
def execTimingBandChange (band : BitVec 2) (tj : Byte) (s : State) : Host.Outcome State Fault Refusal :=
  let b := band.toNat
  let s1 : State := { s with tmp := { s.tmp with tj := tj, band := b, slowest := Nat.max s.tmp.slowest b } }
  .next (if b = s.tmp.band then { s with tmp := { s.tmp with tj := tj } } else if coreOn s then topEvent s1 2 else s1)

/-! ## Debug unlock (R113, R114) -/

/-- The key sets whose unlock a life-cycle state honours (Table 4-4). -/
def unlockSets (lcs : Nat) : List Nat := match lcs with | 2 | 3 | 5 => [0] | 4 => [2, 3] | _ => []
/-- The challenge that a token has to cover: the one held, or a new one from the DRBG. It holds for one token. -/
def unlockChallenge (s : State) : Option (State × BitVec 256) :=
  match s.fuse.challenge with
  | some c => some ({ s with fuse := { s.fuse with challenge := none } }, c)
  | none => (drbgGrant s false).map (fun s1 => (drew s1, BitVec.ofNat 256 (freeNow s1).toNat))
/-- A token that firmware has received through O_MBOX0 is checked against a challenge of this start and the device serial; a new
challenge is then drawn (R114). -/
def debugUnlock (s : State) (token : List Byte) : State :=
  if !(serving s || (s.block = .boot && decide (7 ≤ s.boot.step))) || s.fuse.sensed.noDebugUnlock then s
  else match unlockChallenge s with
    | none => s
    | some (s1, c) =>
      let s2 := match drbgGrant s1 false with
        | some t => drew { t with fuse := { t.fuse with challenge := some (BitVec.ofNat 256 (freeNow t).toNat) } }
        | none => s1
      match Config.unlockCheck token (leBytes 32 c.toNat) (leBytes 8 (identRow s 0x000)) with
      | none => s2
      | some (set, scope) =>
        if (unlockSets s.fuse.sensed.lcs).contains set && keysetLive s set then
          record { s2 with fuse := { s2.fuse with unlockLatch := true } } 0x0013 0 0 2 set scope
        else s2
/-- DEBUG_UNLOCK. -/
def execDebugUnlock (token : List Byte) (s : State) : Host.Outcome State Fault Refusal := .next (debugUnlock s token)

/-! ## The Ledger's commands (R493, R542) -/

/-- RELEASE: RELEASED is written and the ring resumes over every slot; without a freeze nothing happens. -/
def ledgerRelease (s : State) : State :=
  match s.ledger.mode with
  | .ring => s
  | _ => record { s with ledger := { s.ledger with mode := .ring } } 0x0007 0 0 0 s.ledger.frozenSeq
/-- LG_RELEASE. -/
def execLgRelease (src : Src) (s : State) : Host.Outcome State Fault Refusal :=
  .next (hcpOnly s src (fun s => access s src (.oper 5 0x50) 0x85050 true (fun s => respond (ledgerRelease s) src .ok)))
/-- The event codes of Table 17-13. -/
def eventCodes : List Nat :=
  [1, 2, 3, 4, 5, 6, 7, 0x10, 0x11, 0x12, 0x13, 0x14, 0x20, 0x21, 0x22, 0x23, 0x24, 0x25, 0x30, 0x31, 0x32, 0x33, 0x34, 0x40, 0x41,
   0x42, 0x43, 0x44, 0x45, 0x46, 0x50, 0x51, 0x52, 0x53, 0x54]
/-- LGF_CMD.WRITE. -/
def ledgerWrite (s : State) (w : Who) : State :=
  let e := reg s (whoKey w 0x13060)
  let p (i : Nat) : Nat := (reg s (whoKey w (0x13064 + 4 * i))).toNat
  let cmd := whoKey w 0x13070
  let old := putFld (reg s cmd) 31 28 0
  if !eventCodes.contains (fld e 15 0) || decide (6 < fld e 23 20 ∨ fld e 17 16 = 3 ∨ 65 < fld e 31 24) then
    answer (setReg s cmd (putFld old 31 28 2)) .ok
  else if s.ledger.mode = .stopped then
    answer (record (setReg s cmd (putFld old 31 28 1)) (fld e 15 0) (fld e 31 24) (fld e 23 20) (fld e 17 16) (p 0) (p 1) (p 2)) .ok
  else
    answer (record (setReg s cmd (w32 (s.ledger.nextSeq * 256))) (fld e 15 0) (fld e 31 24) (fld e 23 20) (fld e 17 16) (p 0) (p 1) (p 2)) .ok
/-- LGF_WRITE: JTAG has no registers of its own here. -/
def execLgfWrite (w : Who) (s : State) : Host.Outcome State Fault Refusal :=
  .next (ownCore s w (fun s => ledgerWrite s w))

end Sys2Proof.Machine
end

