-- ==== Sys2Proof/Machine/Regs.lean ====
section
/-! DEFINITION. The register map: which registers a page defines, the header registers, the registers that only hold a value, the
writes that are performed by name, the 64-bit pairs, and the checks of steps 4 and 5 of Table 3-9 (chapters 3, 19, 20). -/
namespace Sys2Proof.Machine

/-! ## The register map -/

/-- What a register is to a write: undefined; read only; a register with a row of its own; RW under a mask; RWL under a mask;
the halves of a 64-bit pair under masks; a header register; or one whose write is performed by name. -/
inductive RKind where
  | undef | ro | own
  | rw (mask : Nat)
  | rwl (mask : Nat)
  | lo (mask : Nat)
  | hi (mask : Nat)
  | head | special
deriving DecidableEq, Repr

/-- Whether an offset lies in [lo, hi). -/
def within (o lo hi : Nat) : Bool := decide (lo ≤ o ∧ o < hi)
/-- The kind that the first range holding the offset gives. -/
def kindIn (o : Nat) : List (Nat × Nat × RKind) → RKind
  | [] => .undef
  | (a, b, k) :: rest => if within o a b then k else kindIn o rest
/-- The bodies of the firmware pages (Tables 19-2 to 19-26, 20-3 to 20-20). -/
def fwBody (p : Nat) : List (Nat × Nat × RKind) :=
  match p with
  | 0x00 => [(0x40, 0x4C, .ro), (0x4C, 0x50, .own), (0x50, 0x58, .ro), (0x58, 0x60, .own), (0x60, 0x64, .ro)]
  | 0x01 => [(0x40, 0x44, .special), (0x44, 0x48, .special), (0x48, 0x4C, .lo 0xFFFFFFFF), (0x4C, 0x50, .hi 0xFFFFFFFF),
             (0x50, 0x60, .ro)]
  | 0x02 => [(0x40, 0x48, .special), (0x48, 0x4C, .rwl 0xFFFF), (0x4C, 0x50, .ro), (0x80, 0xAC, .special), (0xAC, 0xB0, .own),
             (0xB0, 0xDC, .special), (0xDC, 0xE0, .own)]
  | 0x03 => [(0x40, 0x48, .special), (0x48, 0x4C, .ro), (0x4C, 0x50, .own), (0x50, 0x54, .special), (0x54, 0x58, .lo 0xFFFFFFFF),
             (0x58, 0x5C, .hi 0xFFFFFFFF), (0x5C, 0x60, .rwl 0xFFFF), (0x60, 0x64, .own), (0x80, 0x100, .special),
             (0x100, 0x130, .rwl 0xFFFFFFFF)]
  | 0x04 => [(0x40, 0x48, .own), (0x48, 0x50, .ro)]
  | 0x05 => [(0x40, 0x80, .own), (0x80, 0x90, .ro)]
  | 0x06 => [(0x40, 0x44, .own), (0x44, 0x50, .ro)]
  | 0x07 => [(0x40, 0x44, .ro)]
  | 0x08 => [(0x40, 0x44, .special), (0x44, 0x48, .special), (0x48, 0x60, .ro)]
  | 0x09 => [(0x40, 0x44, .rw 0x1FF), (0x44, 0x48, .ro), (0x48, 0x4C, .special), (0x4C, 0x50, .rw 0x11FFF), (0x50, 0x58, .ro),
             (0x80, 0xD0, .special)]
  | 0x0A => [(0x40, 0x44, .ro), (0x44, 0x48, .rw 0x8001FFFF), (0x48, 0x4C, .own), (0x4C, 0x50, .ro), (0x50, 0x54, .rw 0x3FFFF0),
             (0x54, 0x58, .rw 0x1FFFF), (0x58, 0x5C, .ro), (0x5C, 0x60, .rw 7), (0x60, 0x68, .ro)]
  | 0x0B => [(0x40, 0x44, .rw 0xFF), (0x44, 0x60, .ro), (0x100, 0x200, .ro)]
  | 0x0C => [(0x40, 0x44, .rw 0x1FFF), (0x44, 0x58, .ro), (0x58, 0x5C, .rw 0xFF), (0x60, 0x84, .ro)]
  | 0x0D => [(0x40, 0x44, .special), (0x50, 0x6C, .ro)]
  | 0x0E => [(0x40, 0x48, .ro), (0x48, 0x4C, .own), (0x4C, 0x50, .rw 0xFFFFFF), (0x50, 0x54, .rw 0xFF), (0x54, 0x60, .ro)]
  | 0x0F => [(0x40, 0x44, .rw 0x13FFF), (0x44, 0x48, .rw 0xFF1F37), (0x48, 0x4C, .lo 0xFFFFFFFF), (0x4C, 0x50, .hi 0xFFFFFFFF),
             (0x50, 0x54, .rw 0xFFFFFFFF), (0x54, 0x58, .own), (0x58, 0x5C, .ro), (0x5C, 0x60, .rw 0x7F),
             (0x60, 0x64, .rw 0x0FFF3FFF), (0x64, 0x68, .rw 0xFF), (0x68, 0x78, .ro)]
  | 0x10 => [(0x40, 0x44, .rw 0x7F), (0x44, 0x4C, .ro), (0x4C, 0x54, .own), (0x60, 0x6C, .ro), (0x100, 0x200, .ro),
             (0x200, 0x300, .own)]
  | 0x11 => [(0x40, 0x44, .rw 0xFF), (0x44, 0x48, .own), (0x48, 0x70, .ro)]
  | 0x12 => [(0x40, 0x54, .ro), (0x54, 0x58, .own), (0x58, 0x60, .ro)]
  | 0x13 => [(0x40, 0x48, .ro), (0x48, 0x4C, .rw 0xFFF), (0x4C, 0x54, .ro), (0x60, 0x64, .rw 0xFFF3FFFF), (0x64, 0x70, .rw 0xFFFFFFFF),
             (0x70, 0x74, .own), (0x74, 0x78, .rw 0xFF), (0x78, 0x7C, .ro), (0x100, 0x120, .ro)]
  | 0x14 => [(0x40, 0x44, .special), (0x44, 0x48, .ro), (0x48, 0x54, .special), (0x54, 0x60, .ro)]
  | 0x15 => [(0x40, 0x44, .own), (0x44, 0x48, .rw 0x3FF), (0x48, 0x54, .ro), (0x54, 0x58, .lo 0xFFFFFFFF), (0x58, 0x5C, .hi 0xFFFFFF),
             (0x5C, 0x64, .ro), (0x64, 0x68, .rw 0xFFFF300F)]
  | _ => []

/-- A unit's block of the CVU page (Table 7-13). -/
def cvuBody : List (Nat × Nat × RKind) :=
  [(0x00, 0x18, .special), (0x18, 0x1C, .lo 0xFFFFFFFF), (0x1C, 0x20, .hi 0xFFFFFFFF), (0x20, 0x28, .own), (0x28, 0x2C, .ro),
   (0x2C, 0x30, .own), (0x30, 0x3C, .special)]
/-- The bodies of the operator pages (R546, Tables 13-10, 17-15, 18-8, 20-23). -/
def operBody (p : Nat) : List (Nat × Nat × RKind) :=
  match p with
  | 0 => [(0x40, 0x44, .ro), (0x48, 0x5C, .ro)]
  | 1 | 2 | 3 | 4 => [(0x40, 0x50, .ro), (0x100, 0x200, .own), (0x200, 0x300, .ro)]
  | 5 => [(0x40, 0x48, .ro), (0x48, 0x4C, .rw 0xFFF), (0x4C, 0x50, .ro), (0x50, 0x54, .own), (0x100, 0x120, .ro)]
  | 6 => [(0x44, 0x60, .ro)]
  | 7 => [(0x40, 0x44, .own), (0x44, 0x4C, .ro), (0x4C, 0x50, .rw 7), (0x50, 0x5C, .ro), (0x5C, 0x60, .rw 0x3FFF8), (0x60, 0x64, .ro),
          (0x400, 0x800, .ro), (0x800, 0x1000, .own)]
  | _ => []
/-- The bodies of the partition pages (Tables 10-7, 11-3, 13-4, 13-10, 15-13, 16-10, 17-15, 20-25). -/
def winBody (p : Nat) : List (Nat × Nat × RKind) :=
  match p with
  | 0 => [(0x40, 0x60, .ro), (0x80, 0x88, .ro)]
  | 1 => [(0x40, 0x50, .ro), (0x100, 0x200, .own), (0x200, 0x300, .ro)]
  | 2 => [(0x40, 0x44, .rw 0x107FF), (0x44, 0x48, .rw 0xFF1F37), (0x48, 0x4C, .lo 0xFFFFFFFF), (0x4C, 0x50, .hi 0xFFFFFFFF),
          (0x50, 0x54, .rw 0xFFFFFFFF), (0x54, 0x58, .own), (0x58, 0x5C, .ro), (0x5C, 0x60, .rw 0x7F), (0x80, 0x100, .special)]
  | 3 => [(0x40, 0x44, .own), (0x48, 0x4C, .lo 0xFFFFFFFF), (0x4C, 0x50, .hi 0xFFFF), (0x50, 0x54, .rw 0x387FF),
          (0x58, 0x5C, .lo 0xFFE00000), (0x5C, 0x60, .hi 0xFFFFF), (0x60, 0x64, .rw 0x7FFFFF), (0x68, 0x6C, .lo 0xFFFFFFFF),
          (0x6C, 0x70, .hi 0xFFFFFFFF), (0x70, 0x74, .rw 0x07FF01FF), (0x74, 0x78, .ro), (0x78, 0x7C, .special), (0x7C, 0x80, .ro),
          (0x100, 0x120, .own)]
  | 4 => [(0x40, 0x44, .ro), (0x44, 0x48, .rw 0x1FFF), (0x48, 0x4C, .ro), (0x4C, 0x50, .special), (0x50, 0x54, .own),
          (0x54, 0x58, .rw 0x87FF), (0x58, 0x5C, .ro), (0x60, 0x7C, .rw 0x301FF)]
  | 5 => [(0x40, 0x44, .own), (0x44, 0x48, .rw 0x3FFFF), (0x48, 0x60, .ro), (0x60, 0x64, .lo 0xFFFFFFFF), (0x64, 0x68, .hi 0xFFFFFFFF),
          (0x68, 0x6C, .rw 0x07FF1FFF), (0x6C, 0x70, .ro), (0x70, 0x74, .special), (0x74, 0x78, .ro), (0x100, 0x300, .rw 0xFFFFFFFF),
          (0x300, 0x304, .own), (0x304, 0x308, .rw 3), (0x308, 0x310, .ro), (0x340, 0x370, .ro), (0x400, 0xC00, .own)]
  | 6 => [(0x40, 0x48, .ro), (0x48, 0x4C, .rw 0xFFF), (0x4C, 0x54, .ro), (0x100, 0x120, .ro)]
  | _ => []

/-- The header registers (Tables 3-2 to 3-7). -/
def headKind (o : Nat) : RKind := if within o 0x08 0x0C || within o 0x10 0x18 || within o 0x1C 0x20 then .head else .ro
/-- The register at a word address. -/
def kindAt (l : Loc) : RKind :=
  match l with
  | .fw p o =>
    if 0x15 < p then .undef
    else if o < 0x20 then headKind o
    else if p = 7 && within o 0x100 0x300 then kindIn (o % 0x40) cvuBody
    else kindIn o (fwBody p)
  | .oper p o => if 7 < p then .undef else if o < 0x20 then headKind o else kindIn o (operBody p)
  | .win _ p o => if 6 < p then .undef else if o < 0x20 then headKind o else kindIn o (winBody p)
  | .fwTally _ o | .slot _ _ o => if o < 4 then .lo 0xFFFFFFFF else .own
  | .hole => .undef

/-- The event bits that a page defines (Tables 19-9 to 19-29, 20-2 and the chapters' own). -/
def eventBits (l : Loc) : Nat :=
  match l with
  | .fw p _ => [7, 1, 0, 3, 3, 0xFFFF, 3, 0xFF, 1, 1, 3, 1, 1, 3, 3, 1, 3, 7, 3, 3, 1, 0x1F].getD p 0
  | .oper p _ => [3, 0xF, 0xF, 0xF, 0xF, 1, 1, 1].getD p 0
  | .win _ p _ => [0xF, 0xF, 1, 3, 1, 7, 1].getD p 0
  | _ => 0
/-- The RW and RWL bits of a page's PG_CTRL. -/
def ctrlBits (l : Loc) : Nat :=
  match l with
  | .fw p _ => if p = 1 then 0x3FF else if 4 ≤ p ∧ p ≤ 7 then 3 else 0
  | _ => 0
/-- Whether a register holds an RWL field: frozen while its page is locked. -/
def rwlAt (l : Loc) : Bool :=
  match l, kindAt l with
  | .fw 1 o, .head => within o 0x08 0x0C
  | _, .rwl _ => true
  | _, _ => false
/-- Whether the page of a register is locked. -/
def lockedAt (s : State) (l : Loc) : Bool :=
  match pageKey l with
  | some k => (hdr s k).lock
  | none => false

/-! ## Header registers (R75 to R77, R92) -/

/-- Raises the interrupt of a window or operator page whose event bits are latched and now enabled; a firmware page's is a level
(`fwLines`). -/
def raiseEvents (s : State) (l : Loc) (bits : Nat) : State :=
  if bits = 0 then s
  else match l with
  | .win p k _ => winEvent s p k bits
  | .oper k _ => operEvent s k bits
  | _ => s
/-- The interrupt lines of a firmware page follow its latches and its mask (R76). -/
def fwLines (s : State) (l : Loc) (h : Hdr) : Hdr :=
  match l with
  | .fw p _ => relines (pageOwner s p h.ctrl) h
  | _ => h
/-- A write to a header register. -/
def headWrite (s : State) (l : Loc) (w : Word) : State :=
  match pageKey l with
  | none => s
  | some k =>
    let h := hdr s k
    let o := l.off
    if o = 0x08 then
      match l with
      | .fw _ _ => setHdr s k { h with ctrl := w &&& w32 (ctrlBits l) }
      | .oper p _ => if 1 ≤ p ∧ p ≤ 4 ∧ bitOf w 0 then operChanReset s (p - 1) else s
      | _ => s
    else if o = 0x10 then
      setHdr s k (fwLines s l { h with event := h.event &&& ~~~w, errinfo := if bitOf w 31 then 0 else h.errinfo })
    else if o = 0x14 then
      let m := w &&& w32 (2 ^ 31 + eventBits l)
      raiseEvents (setHdr s k (fwLines s l { h with evmask := m })) l (m &&& ~~~h.evmask &&& h.event).toNat
    else if o = 0x1C then setHdr s k { h with lock := h.lock || bitOf w 0 }
    else s

/-! ## Where a plain register is kept -/

/-- Pages whose plain registers exist once for each initiator (R174, R538, R539, R542, R543). -/
def ownSet (p o : Nat) : Bool :=
  (p = 3 && within o 0x54 0x5C) || (p = 0xF && within o 0x40 0x68) || (p = 0x10 && within o 0x40 0x44) ||
  (p = 0x13 && within o 0x60 0x78) || (p = 0x15 && within o 0x44 0x68)
/-- The key of a plain register. -/
def plainKey (src : Src) (l : Loc) (a : Nat) : Nat :=
  match src, l with
  | .fab w, .fw p o => if ownSet p o then whoKey w a else a
  | _, _ => a
/-- The key of a pair's latch and staging register: one per view, and per initiator in the firmware view (R89). -/
def pairKey (src : Src) (a : Nat) : Nat :=
  match src with
  | .fab w => whoKey w a
  | .hcp _ _ => a
/-- The staged low half (R90). -/
def stagedLo (s : State) (src : Src) (a : Nat) : Word := smGet 0 s.wstage (pairKey src a)
def setStagedLo (s : State) (src : Src) (a : Nat) (v : Word) : State :=
  { s with wstage := smSet 0 s.wstage (pairKey src a) v }
/-- Sets the pair whose low half is at `a`. -/
def pairSet (s : State) (src : Src) (l : Loc) (a : Nat) (lo hi : Word) : State :=
  let v : DWord := BitVec.ofNat 64 (lo.toNat + 2 ^ 32 * hi.toNat)
  match l with
  | .fw 1 _ => { s with fuse := { s.fuse with data := v } }
  | .fw 7 o =>
    let u := (o - 0x100) / 0x40
    setCvu s u { cvu s u with fold := v }
  | _ => setReg (setReg s (plainKey src l a) lo) (plainKey src (locate (a + 4)) (a + 4)) hi
/-- The keys of the staging registers of one pair: every initiator's where the fabric's initiators share the pair (R89, R90). -/
def stageKeys (src : Src) (a : Nat) : List Nat :=
  match src, locate a with
  | .fab w, .fw p o => if ownSet p o then [whoKey w a] else [Who.bc, .sc1, .sc2, .sc3, .jtag].map (fun c => whoKey c a)
  | _, _ => [pairKey src a]
/-- A write of the high half: the pair becomes the staged low half and this, and every staging register of the pair holds its low
half. -/
def pairCommit (s : State) (src : Src) (a : Nat) (hi : Word) : State :=
  let lo := stagedLo s src a &&& w32 (match kindAt (locate a) with | .lo m => m | _ => 0)
  let t := pairSet s src (locate a) a lo hi
  { t with wstage := (stageKeys src a).foldl (fun m k => smSet 0 m k lo) t.wstage }

/-! ## Registers whose write is performed by name -/

/-- Replaces word `i` of a value of `n` bits. -/
def putWord {n : Nat} (v : BitVec n) (i : Nat) (w : Word) : BitVec n :=
  BitVec.ofNat n (v.toNat - v.toNat / 2 ^ (32 * i) % 2 ^ 32 * 2 ^ (32 * i) + w.toNat * 2 ^ (32 * i))
/-- The staged domain states of PWR_DOMREQ register `k`, of which SLEEP takes those that ask for retention (Table 18-9). -/
def domStage (b : BitVec 40) (k : Nat) (w : Word) : BitVec 40 :=
  (List.range 16).foldl (fun (b : BitVec 40) i =>
    let bit : BitVec 40 := BitVec.ofNat 40 (2 ^ (16 * k + i))
    if fld w (2 * i + 1) (2 * i) = 2 then b ||| bit else b &&& ~~~bit) b
/-- The bits of word `i` of a partition entry that a version holds (Table 9-1). -/
def partMask (i : Nat) : Nat :=
  [0xE00000FF, 0xFFFF, 0x03FFFFFF, 0xFF0001FF, 0xFFFFFFFF, 0xFFFFFFFF, 0xFF, 0xFFFFFFFF, 0xFFFFFFFF, 0xFFFFFFFF, 0xFFFFFFFF].getD i 0
/-- A write to a word of the PART_ENTRY or REGION_ENTRY window (R530). -/
def partEntryWrite (s : State) (o : Nat) (w : Word) : State :=
  let ps := reg s 0x9040
  let rs := reg s 0x904C
  if o < 0xC0 then
    let pid := fld ps 7 0
    let i := (o - 0x80) / 4
    if !bitOf ps 8 || !tenant pid then s
    else { s with part := { s.part with staged := s.part.staged.setP pid i (w &&& w32 (partMask i)) } }
  else
    let i := fld rs 12 0
    let k := (o - 0xC0) / 4
    let s1 := if k = 2 then
        setRshared s i { state := fld w 17 16, fenced := bitOf w 6, rgen := fld w 5 0 }
      else s
    if !bitOf rs 16 then s1
    else
      let v := if k = 3 then w &&& w32 0xF else if k = 2 then w &&& w32 0x03F00000 else w
      { s1 with part := { s1.part with staged := s1.part.staged.setR i k v } }
/-- A write to a firmware register that is no plain register. -/
def fwSpecial (s : State) (w : Who) (p o : Nat) (v : Word) : State :=
  match p with
  | 0x01 =>
    if o = 0x44 then { s with fuse := { s.fuse with row := v &&& w32 0xC00007FF } }
    else { s with fuse := { s.fuse with check := BitVec.ofNat 8 (fld v 23 16), group := fld v 15 8 } }
  | 0x02 =>
    if o = 0x40 then
      { s with boot := { s.boot with hostWait := bitOf v 29, site := fld v 23 16, reason := fld v 15 8, step := fld v 3 0 } }
    else if o = 0x44 then { s with boot := { s.boot with jnext := fld v 8 0 } }
    else if o < 0xB0 then { s with boot := { s.boot with sleepDigest := smSet 0 s.boot.sleepDigest ((o - 0x80) / 4) v } }
    else { s with boot := { s.boot with wakeDigest := smSet 0 s.boot.wakeDigest ((o - 0xB0) / 4) v } }
  | 0x03 =>
    let q := sboxPort s w
    if o = 0x40 then setSboxPort s w { q with sel := fld v 7 0 }
    else if o = 0x44 then setSboxPort s w { q with attr := v &&& w32 0x3FFCFF07 }
    else if o = 0x50 then setSboxPort s w { q with derive := v &&& w32 0xFFFFFF87 }
    else if o < 0xC0 then
      let i := (o - 0x80) / 4
      setSboxPort s w { q with data := putWord q.data i v, mask := q.mask ||| BitVec.ofNat 16 (2 ^ i) }
    else
      let i := (o - 0xC0) / 4
      { s with sbox := { s.sbox with root := putWord s.sbox.root i v, rootValid := s.sbox.rootValid || i = 15 } }
  | 0x07 =>
    let u := (o - 0x100) / 0x40
    let c := cvu s u
    setCvu s u (match o % 0x40 with
      | 0x00 => { c with poly := v }
      | 0x04 => { c with width := fld v 5 0 }
      | 0x08 => { c with init := v }
      | 0x0C => { c with xorout := v }
      | 0x10 => { c with cfg := v &&& w32 0xFF3 }
      | 0x14 => { c with running := v }
      | 0x30 => { c with src := v }
      | 0x34 => { c with len := v }
      | 0x38 => { c with foldStep := v }
      | _ => c)
  | 0x08 =>
    if o = 0x44 then { s with hmk := { s.hmk with sel := fld v 1 0 } }
    else { s with hmk := { s.hmk with pid := fld v 23 16 } }
  | 0x09 =>
    if o = 0x48 then
      setReg s 0x9048 (putFld (putFld (reg s 0x9048) 15 8 (fld v 15 8)) 6 4 (fld v 6 4))
    else partEntryWrite s o v
  | 0x0D => setReg s 0xD040 (v &&& w32 0x0300FF00)
  | 0x14 =>
    if o = 0x40 then
      setReg s 0x14040 (v &&& w32 0x07FFFFE0)
    else if w = .sc1 then { s with pwr := { s.pwr with staged := domStage s.pwr.staged ((o - 0x48) / 4) v } }
    else s
  | _ => s
/-- A write to an RWL field. -/
def rwlWrite (s : State) (p o : Nat) (v : Word) : State :=
  match p with
  | 2 => { s with boot := { s.boot with keyset := fld v 15 8, tried := fld v 7 4, src := fld v 3 0 } }
  | 3 =>
    if o = 0x5C then { s with sbox := { s.sbox with svn := BitVec.ofNat 16 (fld v 15 0) } }
    else { s with sbox := { s.sbox with meas := putWord s.sbox.meas ((o - 0x100) / 4) v } }
  | _ => s
/-- A write to a window register that is no plain register: doorbell words, XL_FQ_CONS, IRQ_STAGE, LOG_CONS. -/
def winSpecial (s : State) (pid p o a : Nat) (v : Word) : State :=
  match p with
  | 2 =>
    let n := (o - 0x80) / 4
    { s with tl := { s.tl with db := smSet 0 s.tl.db (32 * pid + n) (smGet 0 s.tl.db (32 * pid + n) &&& ~~~v) } }
  | 3 => xlRingStep (setReg s a v) pid
  | 4 =>
    match (s.part.active.sources pid)[fld (pReg s pid 0x4044) 12 0]? with
    | some n => setStaged s n (some (v &&& w32 0x100FF))
    | none => s
  | 5 => pollLog (setReg s a v) pid
  | _ => s

/-! ## Requests (R79, R84 to R87) -/

/-- The words of a request in ascending order, each with its four strobes. -/
def requestWords (a : Nat) : List (DWord × Byte) → List (Nat × Word × Nat)
  | [] => []
  | (d, st) :: rest =>
    (a, w32 d.toNat, st.toNat % 16) :: (a + 4, w32 (d.toNat / 2 ^ 32), st.toNat / 16) :: requestWords (a + 8) rest
/-- The words that a request writes. -/
def written (ws : List (Nat × Word × Nat)) : List (Nat × Word) := (ws.filter (fun x => x.2.2 = 15)).map (fun x => (x.1, x.2.1))

/-- A firmware register that this initiator, or this moment, may not write: EACCESS, or ELOCK of an armed sleep digest (R81,
R157, R161, R530). -/
def fwBarred (s : State) (c : Who) (l : Loc) : Option Rsp :=
  match l with
  | .fw 1 _ => if c = .bc then none else some .eaccess
  | .fw 2 o =>
    if within o 0x80 0xB0 then (if s.boot.armed then some .elock else none)
    else if within o 0xB0 0xE0 then (if c = .bc ∧ s.block = .boot ∧ s.boot.step < 6 then none else some .eaccess)
    else none
  | .fw 3 o => if within o 0xC0 0x100 && !(c = .bc && !s.sbox.lockRoot) then some .eaccess else none
  | .fw 9 o =>
    if s.epoch.window && ((within o 0x80 0xC0 && bitOf (reg s 0x9040) 8) || (within o 0xC0 0xD0 && bitOf (reg s 0x904C) 16))
    then some .eaccess else none
  | .fw _ _ | .fwTally _ _ => none
  | _ => some .edecode

/-- Steps 4 and 5 of Table 3-9: the first word that fails, and how. -/
def wordsRefused (s : State) (ws : List (Nat × Word × Nat)) : Option (Nat × Rsp) :=
  match ws.find? (fun x => x.2.2 ≠ 0 && (x.2.2 ≠ 15 || kindAt (locate x.1) = .undef)) with
  | some x => some (x.1, .edecode)
  | none => (ws.find? (fun x => x.2.2 = 15 && rwlAt (locate x.1) && lockedAt s (locate x.1))).map (fun x => (x.1, .elock))

/-- A slot's low half is part of SET, so its access list must permit SET (R359). -/
def slotBarred (s : State) (l : Loc) : Bool :=
  match l with
  | .slot p k o => decide (o < 4) && (match tallyOfSlot s p k with | some t => !(tallyAcl s t).getLsbD 2 | none => false)
  | _ => false

/-! ## Reads of a pair (R89, R91) -/

/-- The root pair of context `n` of the PID in XLF_SEL (Table 20-11). -/
def rootPair (s : State) (n : Nat) : Nat :=
  let pid := fld (reg s 0xB040) 7 0
  if !tenant pid then 0
  else
    let x := xlat s pid
    match x.roots.find? (fun c => c.1 = n) with
    | none => 0
    | some (_, v) => v / 4096 * 4096 % 2 ^ 52 + (smGet 0 x.classes n - 1) * 4 + 1
/-- The present value of the pair whose low half is at `a`. -/
def pairValue (s : State) (src : Src) (a : Nat) : Option Nat :=
  let l := locate a
  let plain := (reg s (plainKey src l a)).toNat + 2 ^ 32 * (reg s (plainKey src (locate (a + 4)) (a + 4))).toNat
  match l with
  | .fw 0x00 0x50 | .oper 0 0x50 => some s.time
  | .win p 0 0x50 => some (shownTime s p s.time)
  | .fw 0x01 0x48 => some s.fuse.data.toNat
  | .fw 0x08 0x50 => some (hmkPlace s s.hmk.sel).time
  | .fw 0x0C 0x50 => some (s.irq.postAddr / 8 * 8)
  | .fw 0x14 0x54 | .oper 6 0x54 => some s.pins.pdStatus.toNat
  | .fw 0x15 0x5C =>
    match src with
    | .fab w => let p := cpbPort s w.num; some (p.reply.toNat + p.replyOp * 2 ^ 56)
    | .hcp _ _ => none
  | .fw 0x0B o => if within o 0x100 0x200 && o % 8 = 0 then some (rootPair s ((o - 0x100) / 8)) else none
  | .fw 0x07 o => if within o 0x100 0x300 && o % 0x40 = 0x18 then some (cvu s ((o - 0x100) / 0x40)).fold.toNat else none
  | .fwTally t 0 => some (tallyValue s t).toNat
  | .slot p k 0 => (tallyOfSlot s p k).map (fun t => (tallyValue s t).toNat)
  | _ =>
    match kindAt l with
    | .lo _ => some plain
    | _ => none
/-- PWR_DOMREQ2, which shares a beat with PWR_PD_LO. -/
def domReqWord (s : State) (k : Nat) : Nat :=
  listSum ((List.range 16).map (fun i => smGet 0 s.pwr.domReq (16 * k + i) * 4 ^ i))
/-- Whether a register is the low half of a 64-bit pair: those that `pairValue` knows (R89). -/
def pairLow (l : Loc) : Bool :=
  match l with
  | .fw 0x00 0x50 | .oper 0 0x50 | .win _ 0 0x50 | .fw 0x01 0x48 | .fw 0x08 0x50 | .fw 0x0C 0x50 | .fw 0x14 0x54 | .oper 6 0x54
  | .fw 0x15 0x5C | .fwTally _ 0 | .slot _ _ 0 => true
  | .fw 0x0B o => within o 0x100 0x200 && o % 8 = 0
  | .fw 0x07 o => within o 0x100 0x300 && o % 0x40 = 0x18
  | _ => match kindAt l with | .lo _ => true | _ => false

end Sys2Proof.Machine
end

