-- ==== Sys2Proof/Machine/Reads.lean ====
section
/-! DEFINITION. What every register of every page reads as, and the resolution of a read request (R75, R78, R79, R84, R88, R89, R91;
Tables 3-2 to 3-8, 19-1 to 19-29, 20-1 to 20-26 and the page tables of chapters 4 to 18). -/
namespace Sys2Proof.Machine

/-! ## Page identity (R78, R510, R528) -/

/-- KIND of a page (Table 3-8); 0 is a reserved slot. -/
def pageKind : Loc → Nat
  | .fw p _ => if p ≤ 0x15 then p + 1 else 0
  | .oper p _ => [0x101, 0x102, 0x102, 0x102, 0x102, 0x103, 0x104, 0x105].getD p 0
  | .win _ p _ => if p ≤ 6 then 0x201 + p else 0
  | _ => 0
/-- PG_IDENT: every page of version 3.1 reports layout version 1.0. -/
def pageIdent (l : Loc) : Nat := if pageKind l = 0 then 0 else pageKind l * 65536 + 0x100
/-- PG_CAPS (Tables 19-9 to 19-29, 20-2); of an operator mailbox page, its channel number. -/
def pageCaps : Loc → Nat
  | .fw p _ => [0x1015, 32 * 2 ^ 24 + 64 * 2 ^ 16 + 2048, 0, 8 * 2 ^ 12 + 256, 2 ^ 16 + 16384, 7 * 2 ^ 8 + 16, 0x3FE, 32 * 2 ^ 8 + 8, 4,
                8192 * 2 ^ 16 + 66, 8, 32, 8192, 0, 0, 16384, 68, 16 * 2 ^ 8 + 16, 0, 4096, 0, 1024].getD p 0
  | .oper p _ => if 1 ≤ p ∧ p ≤ 4 then p - 1 else 0
  | _ => 0
/-- EMPTY Strongbox slots. -/
def slotsFree (s : State) : Nat := 256 - (s.sbox.slots.filter (fun c => decide (c.2.use ≠ 0))).length
/-- PG_STATUS: BOOT (Table 5-15e) and SBOX (R174). -/
def pageStatus (s : State) : Loc → Nat
  | .fw 2 _ => 4 * b2n s.boot.wakeStart + 2 * b2n s.boot.wakeMatch + b2n s.boot.armed
  | .fw 3 _ => 2 ^ 31 * b2n s.sbox.shutterFired + 2 ^ 30 * b2n s.sbox.rootSubst + 2 ^ 29 * b2n s.sbox.rootValid +
      2 ^ 28 * b2n s.sbox.podRootValid + slotsFree s
  | _ => 0
/-- A header register. -/
def headWord (s : State) (l : Loc) : Nat :=
  match pageKey l with
  | none => 0
  | some k =>
    let h := hdr s k
    match l.off with
    | 0x00 => pageIdent l
    | 0x04 => pageCaps l
    | 0x08 => h.ctrl.toNat
    | 0x0C => pageStatus s l
    | 0x10 => h.event.toNat
    | 0x14 => h.evmask.toNat
    | 0x18 => h.errinfo.toNat
    | 0x1C => b2n h.lock
    | _ => 0

/-! ## TOP and the pages that show its registers -/

/-- TOP_VERSION (Table 19-3): 3.1, the patch level and the strap. -/
def topVersion (s : State) : Nat := 3 * 2 ^ 24 + 2 ^ 16 + Config.patch.toNat * 2 ^ 8 + s.pins.integStrap.toNat
/-- TOP_STATE (Table 19-5). -/
def topState (s : State) : Nat :=
  2 ^ 31 * b2n s.sbox.shutterFired + 2 ^ 30 * b2n s.fuse.sensed.podKeyed + 2 ^ 29 * b2n s.fuse.sensed.kx2 +
  2 ^ 24 * s.fuse.sensed.lcs + 2 ^ 19 * b2n s.cores.standbyLost + 2 ^ 18 * b2n (s.cores.arrays ≠ 0xFFFF) +
  2 ^ 17 * b2n (s.cores.failed.getLsbD 2) + 2 ^ 16 * b2n (s.cores.failed.getLsbD 1) + 2 ^ 4 * s.cores.safeCause + s.block.num
/-- TOP_HALT (Table 19-6). -/
def topHalt (s : State) : Nat := (reg s 0x4C).toNat + s.pins.halt.toNat
/-- TOP_VT (Table 19-7); SLOWEST is reserved in O_TOP. -/
def topVt (s : State) (oper : Bool) : Nat :=
  s.tmp.tj.toNat * 2 ^ 24 + (if oper then 0 else s.tmp.slowest * 16) + s.tmp.band
def topWord (s : State) (o : Nat) : Nat :=
  match o with
  | 0x40 => topVersion s
  | 0x44 => s.pins.sitePresent.toNat * 2 ^ 16 + s.cores.arrays.toNat
  | 0x48 => topState s
  | 0x4C => topHalt s
  | 0x58 => topVt s false
  | 0x5C => s.cores.released.toNat / 2 * 2
  | 0x60 => presentCount s * 2 ^ 16 + faultedCount s
  | _ => 0

/-! ## FUSE, BOOT, SBOX -/

def fuseWord (s : State) (o : Nat) : Nat :=
  let f := s.fuse
  match o with
  | 0x40 => f.result * 2 ^ 28 + b2n f.busy * 2 ^ 27 + f.check.toNat * 2 ^ 16 + f.group * 2 ^ 8
  | 0x44 => f.row.toNat
  | 0x50 => f.interrupted * 2 ^ 24 + f.sensed.mismatch * 2 ^ 20 + b2n f.sensed.highSens * 2 ^ 19 + b2n f.sensed.integFail * 2 ^ 18 +
      f.sensed.corrected * 2 ^ 8 + f.sensed.failArea * 16
  | 0x54 => f.window
  | 0x58 => b2n f.sensed.redirInvalid * 2 ^ 31 + f.sensed.redirEntry * 2 ^ 24 + f.sensed.redirUsed
  | 0x5C => b2n f.sensed.unlockActive * 2 ^ 9 + b2n s.pins.critValid * 2 ^ 8 + f.sensed.lcs
  | _ => 0
def bootWord (s : State) (o : Nat) : Nat :=
  let b := s.boot
  match o with
  | 0x40 => b2n b.fast * 2 ^ 31 + b2n b.deferred * 2 ^ 30 + b2n b.hostWait * 2 ^ 29 + b.site * 2 ^ 16 + b.reason * 2 ^ 8 + b.step
  | 0x44 => b.bootNo * 2 ^ 16 + b.jnext
  | 0x48 => b.keyset * 2 ^ 8 + b.tried * 16 + b.src
  | 0x4C => b2n b.wdog * 2 ^ 31 + b.attempts
  | _ => 0
def sboxWord (s : State) (w : Who) (o : Nat) : Nat :=
  let q := sboxPort s w
  match o with
  | 0x40 => q.sel
  | 0x44 => q.attr.toNat
  | 0x48 => (slotOf s q.sel).attr.toNat
  | 0x4C => q.result * 2 ^ 28 + b2n q.busy * 2 ^ 27 + q.seq % 4096 * 2 ^ 8
  | 0x50 => q.derive.toNat
  | 0x5C => s.sbox.svn.toNat
  | 0x60 => b2n s.sbox.lockRoot + 2 * b2n s.sbox.lockFixed
  | o => if within o 0x100 0x130 then s.sbox.meas.toNat / 2 ^ (32 * ((o - 0x100) / 4)) % 2 ^ 32 else 0

/-! ## The engines and HMK -/

/-- Jobs of class `c` in a queue. -/
def classDepth (q : List (Nat × Nat)) (c : Nat) : Nat := (q.filter (fun e => decide (e.1 = c))).length
/-- DEPTH0 to DEPTH3 (Tables 7-6, 19-21). -/
def depths (q : List (Nat × Nat)) : Nat :=
  classDepth q 0 + classDepth q 1 * 2 ^ 5 + classDepth q 2 * 2 ^ 10 + classDepth q 3 * 2 ^ 15
def pkeWord (s : State) (o : Nat) : Nat :=
  let a := s.anvil
  let cls (j : Option PJob) : Nat := match j with | some x => x.cls | none => 0
  match o with
  | 0x40 => slotCount s * 2 ^ 23 + b2n a.latRes * 2 ^ 16 + a.words
  | 0x48 => b2n a.run.isSome * 2 ^ 31 + b2n a.susp.isSome * 2 ^ 30 + cls a.run * 2 ^ 28 + cls a.susp * 2 ^ 26 + depths a.queue
  | 0x4C => a.yields * 2 ^ 16 + a.maxStretch
  | _ => 0
/-- Jobs queued or running on a lane. -/
def laneDepth (s : State) (n : Nat) : Nat := (lane s n).queue.length + b2n (laneRuns s n)
def measWord (s : State) (o : Nat) : Nat :=
  match o with
  | 0x80 => listSum ((List.range 8).map (fun m => laneDepth s m * 16 ^ m))
  | 0x84 => listSum ((List.range 8).map (fun m => laneDepth s (m + 8) * 16 ^ m))
  | 0x88 => listSum ((List.range 16).map (fun n => b2n (lane s n).msg.isSome * 2 ^ n)) + deriveLanes s * 2 ^ 16
  | 0x8C => s.hash.err.toNat
  | _ => 0
def symWord (s : State) (o : Nat) : Nat :=
  match o with
  | 0x44 => depths s.aes.queue
  | 0x48 => s.rng.es * 2 ^ 30 + s.rng.intermittent * 2 ^ 16 + Nat.min 65535 (s.rng.genCount / 16)
  | 0x4C => s.rng.reseeds.toNat
  | _ => 0
def cvuWord (s : State) (o : Nat) : Nat :=
  if o = 0x40 then listSum ((List.range 8).map (fun u => (cvu s u).holder * 16 ^ u))
  else if within o 0x100 0x300 then
    let c := cvu s ((o - 0x100) / 0x40)
    match o % 0x40 with
    | 0x00 => c.poly.toNat
    | 0x04 => c.width
    | 0x08 => c.init.toNat
    | 0x0C => c.xorout.toNat
    | 0x10 => c.cfg.toNat
    | 0x14 => c.running.toNat
    | 0x28 => (cvuResult c).toNat
    | 0x2C => b2n c.busy * 2 ^ 31 + b2n c.memErr * 2 ^ 30
    | 0x30 => c.src.toNat
    | 0x34 => c.len.toNat
    | 0x38 => c.foldStep.toNat
    | _ => 0
  else 0
def hmkWord (s : State) (o : Nat) : Nat :=
  let p := hmkPlace s s.hmk.sel
  match o with
  | 0x40 => s.hmk.result * 2 ^ 28 + s.hmk.pid * 2 ^ 16
  | 0x44 => s.hmk.sel
  | 0x48 => b2n p.held * 2 ^ 31 + b2n p.assembling * 2 ^ 30 + b2n p.stale * 2 ^ 29 + p.state * 2 ^ 24 + p.gen * 2 ^ 16 + p.pid * 2 ^ 8
  | 0x4C => b2n p.ep * 2 ^ 16 + p.version
  | 0x58 => s.hmk.issued.toNat
  | 0x5C => s.hmk.staleCnt.toNat
  | _ => 0

/-! ## PART and EPOCH -/

/-- Word `w` of a partition entry with its shared fields (Table 9-1, R530). -/
def partEntryWord (s : State) (staged : Bool) (pid w : Nat) : Word :=
  let v := (if staged then s.part.staged else s.part.active).pword pid w
  let sh := pshared s pid
  if w = 0 then putFld (putFld v 19 17 sh.state.num) 13 8 sh.gen else v
/-- Word `w` of a region entry with its shared fields and its index (Table 9-2, R530). -/
def regionEntryWord (s : State) (staged : Bool) (i w : Nat) : Word :=
  let v := (if staged then s.part.staged else s.part.active).rword i w
  let r := rshared s i
  if w = 2 then putFld (putFld (putFld v 17 16 r.state) 6 6 (b2n r.fenced)) 5 0 r.rgen
  else if w = 3 then putFld v 28 16 i else v
/-- Regions of the active bank in a state. -/
def regionsIn (s : State) (st : Nat) : List Nat := s.part.active.regions.filter (fun i => decide ((rshared s i).state = st))
def partWord (s : State) (o : Nat) : Nat :=
  let sel := reg s 0x9040
  let rs := reg s 0x904C
  let pid := fld sel 7 0
  match o with
  | 0x44 => if !tenant pid then pid else b2n (s.part.active.pValid pid) * 2 ^ 31 + b2n (pshared s pid).genHold * 2 ^ 20 +
      (pshared s pid).state.num * 2 ^ 17 + (pshared s pid).gen * 2 ^ 8 + pid
  | 0x48 => s.part.partRes * 2 ^ 28 + s.part.partWait * 2 ^ 16 + (reg s 0x9048).toNat
  | 0x50 => countState s .running * 2 ^ 24 + countState s .configured * 2 ^ 16 + countState s .quenching * 2 ^ 8 + countState s .quarantined
  | 0x54 => (match regionsIn s 2 with | i :: _ => 2 ^ 31 + i | [] => 0) + (regionsIn s 1).length * 2 ^ 16
  | o =>
    if within o 0x80 0xC0 then (if tenant pid then (partEntryWord s (bitOf sel 8) pid ((o - 0x80) / 4)).toNat else 0)
    else if within o 0xC0 0xD0 then (regionEntryWord s (bitOf rs 16) (fld rs 12 0) ((o - 0xC0) / 4)).toNat
    else 0
/-- The layout of EPOCH_CUR and EPOCH_STAGED (R532). -/
def versionWord (valid ep : Bool) (v : Nat) : Nat := b2n valid * 2 ^ 31 + b2n ep * 2 ^ 16 + v
def curWord (s : State) : Nat := if s.epoch.curValid then versionWord true s.epoch.curEp s.epoch.curVersion else 0
/-- The version in a slot of the Pattern Book; VALID 0 for an empty one. -/
def slotVersionWord (s : State) (k : Nat) : Nat := match bookSlot s k with | some v => versionWord true v.ep v.num | none => 0
/-- EPOCH_STAT.PHASE (Table 20-9). -/
def EPhase.num : EPhase → Nat
  | .idle => 0 | .writing => 1 | .preparing => 2 | .prepared => 3 | .committing => 4 | .closing => 5 | .rollingBack => 6 | .done => 7
  | .prepareHalt => 8
/-- BOOK_SLOT.KEPT beside the RW field SEL. Its three bits hold the eight versions that a full book keeps as 0 (log entry 77). -/
def keptVersions (s : State) : Nat := s.part.versions.length % 8 * 2 ^ 16
def epochWord (s : State) (o : Nat) : Nat :=
  let e := s.epoch
  match o with
  | 0x40 => curWord s
  | 0x48 => e.result * 2 ^ 28 + b2n e.running * 2 ^ 27
  | 0x4C => e.phase.num * 2 ^ 28 + b2n e.rolledBack * 2 ^ 27 + b2n e.prepFailed * 2 ^ 26 + b2n e.hmkWait * 2 ^ 25 + b2n e.window * 2 ^ 24 +
      e.failOp * 2 ^ 20 + e.failReason * 2 ^ 16 + e.firstFail
  | 0x58 => Nat.min 65535 e.resent * 2 ^ 16 + e.addressed
  | 0x60 => slotVersionWord s (fld (reg s 0xA05C) 2 0)
  | 0x64 => Nat.min 0xFFFFFFFF e.time
  | _ => 0

/-! ## XLAT, IRQV, QNCH, QOS -/

/-- XL_STATUS (Table 10-7). -/
def xlStatus (x : Xlat) : Nat := b2n x.fqLost * 2 ^ 31 + b2n x.ringOn * 2 ^ 30 + x.queue.length * 2 ^ 16 + x.timeouts
def xlfWord (s : State) (o : Nat) : Nat :=
  let pid := fld (reg s 0xB040) 7 0
  let x := xlat s pid
  let own (n : Nat) : Nat := if tenant pid then n else 0
  match o with
  | 0x44 => own (xlStatus x)
  | 0x48 => own x.prod.toNat
  | 0x4C => own (pReg s pid 0x3078).toNat
  | 0x50 => own (x.openB.length * 2 ^ 16 + x.closed.length)
  | 0x54 => s.xcnt.sent.toNat
  | 0x58 => s.xcnt.timeouts.toNat
  | 0x5C => s.xcnt.records.toNat
  | _ => 0
/-- Sources numbered by the census (R306). -/
def sourceCount (s : State) : Nat := Nat.min 8192 (listSum (s.irq.iscs.map (fun c => c.2)))
def irvWord (s : State) (o : Nat) : Nat :=
  let n := fld (reg s 0xC040) 12 0
  match o with
  | 0x44 => (s.part.active.srcWord n).toNat
  | 0x48 => match sourceLoc s n with | some (a, e) => 2 ^ 31 + a * 2 ^ 16 + e | none => 0
  | 0x4C => sourceCount s
  | 0x80 => s.irq.droppedAll.toNat
  | o => if within o 0x60 0x80 then
      listSum ((List.range 32).map (fun v => b2n (pendOf s (fld (reg s 0xC058) 7 0) ((o - 0x60) / 4 * 32 + v)).isSome * 2 ^ v))
    else 0
/-- The Quenches that hold a place, in their places. -/
def placeWord (s : State) (q : Quench) : Nat := 2 ^ 31 + q.step * 2 ^ 24 + genOf s q.pid * 2 ^ 16 + q.pid * 2 ^ 8 + q.outcome
def qnWord (s : State) (o : Nat) : Nat :=
  match o with
  | 0x40 => s.qn.result * 2 ^ 28 + (reg s 0xD040).toNat
  | 0x60 => (s.qn.active.filter (fun q => decide (q.step = 2) && q.blocked)).length
  | 0x64 => s.qn.doneCnt.toNat
  | 0x68 => s.qn.genHold.toNat
  | o => if within o 0x50 0x60 then
      match s.qn.active.find? (fun q => q.place = some ((o - 0x50) / 4)) with
      | some q => placeWord s q
      | none => 0
    else 0
/-- QOS_PSTAT and P_QOS_STAT (Table 12-8). -/
def qosStat (s : State) (pid : Nat) : Nat :=
  let b := bucket s pid
  b2n (s.part.active.pSealed pid) * 2 ^ 31 + b2n (s.part.active.pRsv pid) * 2 ^ 30 + b.out * 2 ^ 24 + b.tokens * 2 ^ 22 +
  Nat.min 63 b.overrun * 2 ^ 16 + b.demoted
def qosWord (s : State) (o : Nat) : Nat :=
  match o with
  | 0x40 => s.qos.capacity
  | 0x44 => rateSum s % 2 ^ 19
  | 0x48 => s.qos.operRate
  | 0x54 => qosStat s (fld (reg s 0xE050) 7 0)
  | 0x58 => s.qos.overrun.toNat
  | 0x5C => s.qos.scale
  | _ => 0

/-! ## Tallies and mailboxes -/

/-- TL_CMD and TL_STATE of one register set (Tables 13-4, 13-7). -/
def tlWord (s : State) (view o : Nat) : Nat :=
  let p := tlPort s view
  match o with
  | 0x54 => p.result * 2 ^ 28 + p.seq * 2 ^ 8
  | 0x58 => p.st * 2 ^ 30 + p.stSeq * 2 ^ 8
  | _ => 0
def talyWord (s : State) (w : Who) (o : Nat) : Nat :=
  match o with
  | 0x68 => freeTallies s
  | 0x6C => armedCount s
  | 0x70 => s.tl.fired.toNat
  | 0x74 => s.tl.noteLost.toNat
  | o => tlWord s w.num o
/-- [16] a version is held, [15:8] major, [7:0] minor. -/
def mbVersion (c : Channel) : Nat := match c.version with | some (a, b) => 2 ^ 16 + a.toNat * 256 + b.toNat | none => 0
/-- A whole frame stands at the head of TX. -/
def txWhole (s : State) (c : Nat) : Bool := !(headFrame (txLen s c) (channel s c).tx).isEmpty
def mbfWord (s : State) (w : Who) (o : Nat) : Nat :=
  let c := mbfSel s w
  let ch := channel s c
  let p := mbPort s w
  match o with
  | 0x44 => if 68 ≤ c then 0 else b2n (txWhole s c) * 2 ^ 31 + b2n ch.version.isSome * 2 ^ 30 + b2n (resetReq s c) * 2 ^ 29 +
      ch.notes.length * 2 ^ 16 + (queueSize c - ch.rx.length) * 2 ^ 8 + ch.tx.length
  | 0x48 => ((headFrame (txLen s c) ch.tx).headD 0).toNat
  | 0x4C => mbVersion ch
  | 0x50 => p.result * 2 ^ 28 + p.words * 2 ^ 16
  | o =>
    if within o 0x60 0x6C then listSum ((List.range 32).map (fun b =>
      let c := (o - 0x60) / 4 * 32 + b
      if c < 68 then b2n (txWhole s c) * 2 ^ b else 0))
    else if within o 0x100 0x200 then (p.frame.getD ((o - 0x100) / 4) 0).toNat
    else 0
/-- A mailbox page but its windows and MB_NOTE (Tables 13-10, 13-11). -/
def mbWord (s : State) (c o : Nat) : Nat :=
  let ch := channel s c
  match o with
  | 0x40 => ch.noteLost * 2 ^ 24 + ch.notes.length * 2 ^ 16 + ch.rx.length * 2 ^ 8 + (queueSize c - ch.tx.length)
  | 0x44 => (ch.rx.headD 0).toNat
  | 0x48 => mbVersion ch
  | _ => 0

/-! ## ASY, TMP, LDG, PWR, CPB -/

/-- Byte values as a little-endian word. -/
def word4 (f : Nat → Nat) : Nat := f 0 + f 1 * 2 ^ 8 + f 2 * 2 ^ 16 + f 3 * 2 ^ 24
/-- Quota and slots of a PID (ASY_QUOTA, ASF_QUOTA). -/
def quotaWord (s : State) (pid : Nat) : Nat := (apart s pid).slots * 2 ^ 24 + (apart s pid).quota
def asfWord (s : State) (o : Nat) : Nat :=
  let pid := fld (reg s 0x11040) 7 0
  let mask (f : Tap → Bool) : Nat := listSum ((List.range 16).map (fun n => b2n (f (tapPort s n)) * 2 ^ n))
  match o with
  | 0x44 => quotaWord s pid
  | 0x48 => scratchUsed s pid
  | 0x4C => slotTotal s * 2 ^ 24 + quotaTotal s % 2 ^ 12
  | 0x50 => mask (fun t => t.disabled) * 2 ^ 16 + mask (fun t => t.checker.isSome)
  | 0x54 => s.asy.tapFaults.toNat
  | 0x58 => s.asy.disagree.toNat
  | 0x5C => s.asy.progs.length
  | o => if within o 0x60 0x70 then word4 (fun j => s.asy.frame.getD ((o - 0x60) / 4 * 4 + j) 0) else 0
def tmpWord (s : State) (o : Nat) : Nat :=
  let t := s.tmp
  match o with
  | 0x40 => b2n t.alarm * 2 ^ 31 + b2n t.pend * 2 ^ 30 + b2n t.sleepTamper * 2 ^ 29 + b2n t.shutter * 2 ^ 28 + t.count
  | 0x44 => t.raw.toNat
  | 0x48 => match t.first with | some (src, m) => 2 ^ 31 + src * 2 ^ 8 + m | none => 0
  | 0x4C => t.alarms
  | 0x50 => b2n t.trefBad * 2 ^ 31 + t.trefDev
  | 0x58 => s.cores.failed.toNat + s.cores.work * 16 + b2n s.cores.standbyLost * 2 ^ 8
  | 0x5C => t.escCount * 2 ^ 16 + t.escMax
  | _ => 0
/-- The records that a view shows, with their slots: every record, or those of Table 17-14 for a partition. -/
def ledgerShown (s : State) (view : Option Nat) : List (Nat × LRec) :=
  s.ledger.slots.filterMap (fun c => match c.2 with
    | some r => (match view with
      | none => some (c.1, r)
      | some p => if ledgerVisible s.ledger p r then some (c.1, r) else none)
    | none => none)
/-- The k-th newest of a view: the one with exactly k later ones (R494). -/
def ledgerNth (rs : List (Nat × LRec)) (k : Nat) : Option (Nat × LRec) :=
  rs.find? (fun x => (rs.filter (fun y => seqLater y.2.seq x.2.seq)).length = k)
/-- LG_REC: the 32 bytes as they stand, TIME rounded for a sealed partition and the CRC as stored; the bytes of a record that no
longer matches its CRC are open (R492, R494, R495, log entry 75). -/
def recBytes (s : State) (view : Option Nat) (slot : Nat) (r : LRec) : List Byte :=
  if r.damaged then (List.range 32).map (Config.damagedRec slot)
  else
    let shown : LRec := match view with
      | some p => { r with time := BitVec.ofNat 48 (shownTime s p r.time.toNat) }
      | none => r
    ledgerBytes shown ++ leBytes 4 (ledgerCrc slot r).toNat
/-- The registers 0x40 to 0x11F of a Ledger page (Tables 17-15, 17-16); `sel` is LG_SEL. -/
def ldgWord (s : State) (view : Option Nat) (sel o : Nat) : Nat :=
  let rs := ledgerShown s view
  let frozen : Bool := s.ledger.mode ≠ .ring
  match o with
  | 0x40 => b2n frozen * 2 ^ 31 + rs.length * 2 ^ 16 + (if view.isSome then 0 else s.ledger.discarded)
  | 0x44 => match ledgerNth rs 0 with | some x => x.2.seq | none => 0
  | 0x4C => match ledgerNth rs sel with | some x => 2 ^ 31 + b2n x.2.damaged * 2 ^ 30 | none => 0
  | o => if within o 0x100 0x120 then
      match ledgerNth rs sel with
      | some x => le (recBytes s view x.1 x.2) (o - 0x100) 4
      | none => 0
    else 0
def ldgFwWord (s : State) (w : Who) (o : Nat) : Nat :=
  match o with
  | 0x70 => (reg s (whoKey w 0x13070)).toNat
  | 0x78 => smGet 0 s.ledger.floors (fld (reg s (whoKey w 0x13074)) 7 0)
  | o => ldgWord s none (reg s 0x13048).toNat o
/-- PWR and O_PWR (Tables 18-8 to 18-10); PWR_CMD exists in the firmware page only. -/
def pwrWord (s : State) (o : Nat) : Nat :=
  let p := s.pwr
  match o with
  | 0x44 => p.phase * 2 ^ 28 + b2n p.lastFast * 2 ^ 27 + b2n p.lastCold * 2 ^ 26 + p.reason * 2 ^ 16 + p.grace
  | 0x48 => domReqWord s 0
  | 0x4C => domReqWord s 1
  | 0x50 => domReqWord s 2 % 2 ^ 16
  | 0x5C => p.fastWakes * 2 ^ 16 + p.wakes
  | _ => 0
def pwrFwWord (s : State) (o : Nat) : Nat :=
  if o = 0x40 then s.pwr.result * 2 ^ 28 + b2n s.pwr.busy * 2 ^ 27 + (reg s 0x14040).toNat else pwrWord s o
def cpbWord (s : State) (w : Who) (o : Nat) : Nat :=
  let p := cpbPort s w.num
  let n := fld (reg s (whoKey w 0x15044)) 9 0
  let a := agent s n
  match o with
  | 0x40 => p.result * 2 ^ 28 + b2n p.busy * 2 ^ 27
  | 0x48 => b2n a.present * 2 ^ 31 + b2n a.faulted * 2 ^ 30 + b2n (agentDown s n) * 2 ^ 29 + b2n a.delivering * 2 ^ 28 +
      a.kind * 2 ^ 24 + a.cause * 2 ^ 16
  | 0x4C => a.seq
  | 0x50 => s.cpb.retryCnt.toNat
  | _ => 0

/-! ## The operator view and the partition windows -/

/-- BOOK_STATUS.PHASE (Table 20-24). -/
def BPhase.num : BPhase → Nat
  | .idle => 0 | .loading => 1 | .checking => 2 | .consent => 3 | .quiesce => 4 | .committing => 5 | .rollback => 6 | .done => 7
def bookWord (s : State) (o : Nat) : Nat :=
  let b := s.book
  match o with
  | 0x44 => b.phase.num * 2 ^ 28 + b.result * 2 ^ 23 + b.cmdres * 2 ^ 20 + b2n b.rbReady * 2 ^ 16 + b.version
  | 0x48 => b.buf.length
  | 0x50 => slotVersionWord s (fld (reg s 0x8704C) 2 0)
  | 0x54 => curWord s
  | 0x58 => b.readback.length
  | 0x60 => b.needed.length * 2 ^ 8 + (b.needed.filter (fun p => !b.given.contains p)).length
  | o => if within o 0x400 0x800 then le b.readback ((reg s 0x8705C).toNat + (o - 0x400)) 4 else 0
def operWord (s : State) (p o : Nat) : Nat :=
  match p with
  | 0 => if o = 0x40 || o = 0x48 || o = 0x4C then topWord s o else if o = 0x58 then topVt s true else 0
  | 1 | 2 | 3 | 4 => mbWord s (63 + p) o
  | 5 => ldgWord s none (reg s 0x85048).toNat o
  | 6 => pwrWord s o
  | 7 => bookWord s o
  | _ => 0
/-- P_TOP (Tables 20-25, 20-26). -/
def pTopWord (s : State) (pid o : Nat) : Nat :=
  let b := s.part.active
  match o with
  | 0x40 => topVersion s
  | 0x44 => b2n (b.pSealed pid) * 2 ^ 31 + b2n (b.pRsv pid) * 2 ^ 30 + (pshared s pid).state.num * 2 ^ 24 + (pshared s pid).gen * 2 ^ 16 +
      pid * 2 ^ 8 + s.block.num
  | 0x48 => b.pTallyCount pid * 2 ^ 16 + b.pSites pid
  | 0x4C => bitmap (heldSites s pid)
  | 0x58 => b2n s.epoch.curEp * 2 ^ 16 + s.epoch.curVersion
  | 0x5C => if b.pVf pid = 0xFF then 0xFF else 2 ^ 31 + tdisp s (b.pVf pid) * 2 ^ 24 + b.pVf pid
  | 0x80 => qosStat s pid
  | 0x84 => (bucket s pid).rate
  | _ => 0
/-- P_XLAT (Tables 10-7, 10-8). -/
def pXlatWord (s : State) (pid o : Nat) : Nat :=
  let x := xlat s pid
  match o with
  | 0x40 => x.result * 2 ^ 28 + x.seq * 2 ^ 8
  | 0x74 => x.prod.toNat
  | 0x78 => (pReg s pid 0x3078).toNat
  | 0x7C => xlStatus x
  | _ => 0
/-- P_IRQ (Tables 11-3 to 11-5). -/
def pIrqWord (s : State) (pid o : Nat) : Nat :=
  let ss := s.part.active.sources pid
  let sel := ss[fld (pReg s pid 0x4044) 12 0]?
  match o with
  | 0x40 => vectors s pid * 2 ^ 16 + ss.length % 2 ^ 13
  | 0x48 => match sel with | some n => (entryView (s.part.active.srcWord n)).toNat | none => 0
  | 0x4C => match sel with | some n => (stagedOf s n).toNat | none => 0
  | 0x50 => smGet 0 s.irq.result pid * 2 ^ 28 + b2n (smGet false s.irq.running pid) * 2 ^ 27
  | 0x58 => smGet 0 s.irq.dropped pid * 2 ^ 16
  | _ => 0
/-- P_ASY (Tables 15-13 to 15-15, 16-10 to 16-13). -/
def pAsyWord (s : State) (pid o : Nat) : Nat :=
  let a := apart s pid
  match o with
  | 0x40 => a.result * 2 ^ 28 + a.lastOp * 2 ^ 12
  | 0x58 => quotaWord s pid
  | 0x5C => scratchUsed s pid
  | 0x6C => a.prod.toNat
  | 0x70 => (pReg s pid 0x5070).toNat
  | 0x74 => b2n a.ringOn * 2 ^ 31 + a.lost
  | 0x300 => a.prgRes * 2 ^ 28 + a.prgHandle * 2 ^ 26
  | 0x308 => a.badIndex * 2 ^ 16 + a.loadBuf.length
  | 0x30C => a.info
  | o =>
    if within o 0x48 0x58 then
      let p := place s pid ((o - 0x48) / 4)
      let closing : Bool := match p.op with | some x => decide (x.stage ≠ 0) | none => false
      b2n p.op.isSome * 2 ^ 31 + b2n closing * 2 ^ 30 + p.verdict * 2 ^ 24 + b2n p.valid * 2 ^ 23 + p.bandsE * 2 ^ 16 + p.opno
    else if within o 0x340 0x370 then le a.infoDig (o - 0x340) 4
    else 0
def winWord (s : State) (pid p o : Nat) : Nat :=
  match p with
  | 0 => pTopWord s pid o
  | 1 => mbWord s (pid - 2) o
  | 2 => if within o 0x80 0x100 then (doorbell s pid ((o - 0x80) / 4)).toNat else tlWord s (256 + pid) o
  | 3 => pXlatWord s pid o
  | 4 => pIrqWord s pid o
  | 5 => pAsyWord s pid o
  | 6 => ldgWord s (some pid) (pReg s pid 0x6048).toNat o
  | _ => 0
def fwWord (s : State) (w : Who) (p o : Nat) : Nat :=
  match p with
  | 0x00 => topWord s o
  | 0x01 => fuseWord s o
  | 0x02 => bootWord s o
  | 0x03 => sboxWord s w o
  | 0x04 => pkeWord s o
  | 0x05 => measWord s o
  | 0x06 => symWord s o
  | 0x07 => cvuWord s o
  | 0x08 => hmkWord s o
  | 0x09 => partWord s o
  | 0x0A => epochWord s o
  | 0x0B => xlfWord s o
  | 0x0C => irvWord s o
  | 0x0D => qnWord s o
  | 0x0E => qosWord s o
  | 0x0F => talyWord s w o
  | 0x10 => mbfWord s w o
  | 0x11 => asfWord s o
  | 0x12 => tmpWord s o
  | 0x13 => ldgFwWord s w o
  | 0x14 => pwrFwWord s o
  | 0x15 => cpbWord s w o
  | _ => 0

/-! ## One register (R84, R88, R89) -/

/-- What a register reads as, where it is not half of a 64-bit pair: a plain register its value, every other one its page's table;
an undefined or write-only one 0. -/
def regWord (s : State) (src : Src) (l : Loc) (a : Nat) : Nat :=
  match kindAt l with
  | .rw _ => (reg s (plainKey src l a)).toNat + (if l = .fw 0xA 0x5C then keptVersions s else 0)
  | _ =>
    if l.off < 0x20 then headWord s l
    else match src, l with
      | .fab w, .fw p o => fwWord s w p o
      | _, .oper p o => operWord s p o
      | _, .win pid p o => winWord s pid p o
      | _, _ => 0
/-- The channel whose MB_NOTE stands here. -/
def noteAt : Loc → Option Nat
  | .win pid 1 0x4C => some (pid - 2)
  | .oper p 0x4C => if 1 ≤ p ∧ p ≤ 4 then some (63 + p) else none
  | _ => none
/-- A read of one register: a low half loads the latch, a high half is the latch's, MB_NOTE removes the oldest word, and nothing
else changes (R88, R89, R373). -/
def readWord (s : State) (src : Src) (a : Nat) : Word × State :=
  let l := locate a
  match pairValue s src a with
  | some v => (w32 v, { s with latch := smSet 0 s.latch (pairKey src a) (BitVec.ofNat 64 v) })
  | none =>
    if 4 ≤ a && a % 4 = 0 && pairLow (locate (a - 4)) then (w32 ((smGet 0 s.latch (pairKey src (a - 4))).toNat / 2 ^ 32), s)
    else match noteAt l with
      | some c => (match (channel s c).notes with
        | [] => (0, s)
        | w :: rest => (w, setChannel s c { channel s c with notes := rest }))
      | none => (w32 (regWord s src l a), s)
/-- `n` registers from `a` in ascending order (R86). -/
def readWords (src : Src) : Nat → Nat → State → List Word × State
  | 0, _, s => ([], s)
  | n + 1, a, s =>
    let (w, s1) := readWord s src a
    let (ws, s2) := readWords src n (a + 4) s1
    (w :: ws, s2)
/-- Words in beats of 8 bytes. -/
def beatsOf : List Word → List DWord
  | lo :: hi :: rest => BitVec.ofNat 64 (lo.toNat + 2 ^ 32 * hi.toNat) :: beatsOf rest
  | [w] => [BitVec.ofNat 64 w.toNat]
  | [] => []

/-! ## A request (Table 3-9, R38, R39) -/

/-- The channel of an MB_RX window that holds the whole of a request. -/
def rxWindow (addr beats : Nat) : Option Nat :=
  let inside (o : Nat) : Bool := decide (0x200 ≤ o ∧ o + 8 * beats ≤ 0x300)
  match locate addr with
  | .win pid 1 o => if inside o then some (pid - 2) else none
  | .oper p o => if 1 ≤ p ∧ p ≤ 4 && inside o then some (63 + p) else none
  | _ => none
/-- The registers of a request that has passed its checks. -/
def readPerform (s : State) (src : Src) (addr beats : Nat) : State :=
  match rxWindow addr beats with
  | some c => rxRead s src c beats
  | none =>
    let (ws, t) := readWords src (2 * beats) addr s
    respond t src .ok (beatsOf ws)
/-- Whether an initiator of the fabric may read the page of an address: a core that runs, or JTAG as Table 4-4 grants it (R72). -/
def fabReads (s : State) (w : Who) (a : Nat) : Bool :=
  fabOk s w ||
  (w = .jtag && s.pins.critValid && s.fuse.sensed.unlockActive &&
    match s.fuse.sensed.lcs, locate a with
    | 3, .fw p _ => [0x00, 0x01, 0x02, 0x13, 0x14].contains p
    | 4, .fw p _ => [0x00, 0x13, 0x14].contains p
    | _, _ => false)
/-- A read request of HCP by the steps of Table 3-9, or of an initiator of the fabric, which reaches the firmware view and the firmware
Tally window (R81) by beats of 8 bytes or, with `beats` 0, by one register. -/
def readRequest (s : State) (src : Src) (addr beats : Nat) : State :=
  match src with
  | .hcp tag _ =>
    arrive s src (fun s =>
      let places := (List.range (2 * beats)).map (fun i => addr + 4 * i)
      if !shapeOk addr beats then respond s src .edecode (List.replicate beats 0)
      else match places.find? (fun a => !reaches s tag (locate a)) with
        | some a => refuse s src (locate a) a .epoison beats
        | none =>
          if places.any (fun a => !inService s false (locate a)) then respond s src .edown (List.replicate beats 0)
          else readPerform s src addr beats) beats
  | .fab c =>
    let n := if beats = 0 then 1 else 2 * beats
    let a := if beats = 0 then addr / 4 * 4 else addr / 8 * 8
    if !fabReads s c a then s
    else if 0x80000 < a + 4 * n then respond s src .edecode (List.replicate beats 0)
    else
      let (ws, t) := readWords src n a s
      respond t src .ok (beatsOf ws)

/-- READ_LO_LATCH, the row of register reads: of a _LO it loads the latch, of any other register it returns its value. -/
def execReadLoLatch (src : Src) (span : ReadSpan) (s : State) : Host.Outcome State Fault Refusal :=
  .next (readRequest s src span.addr.toNat span.beats.toNat)
/-- MB_RX_READ: a read of beats + 1 beats from the start of MB_RX (R371). -/
def execMbRxRead (src : Src) (ch : Chan) (beats : BitVec 10) (s : State) : Host.Outcome State Fault Refusal :=
  .next (hcpOnly s src (fun s => readRequest s src (chanAddr ch.num 0x200) (beats.toNat + 1)))
/-- MB_NOTE_READ: the beat that holds MB_VERSION and MB_NOTE (R373). -/
def execMbNoteRead (src : Src) (ch : Chan) (s : State) : Host.Outcome State Fault Refusal :=
  .next (hcpOnly s src (fun s => readRequest s src (chanAddr ch.num 0x48) 1))

end Sys2Proof.Machine
end

