-- ==== Sys2Proof/Machine/Settle.lean ====
section
/-! DEFINITION. The sequencers move on: after a command that can end what a sequencer waits for, every sequencer takes its
steps until none can move. `quiet` says that none has work. -/
namespace Sys2Proof.Machine

/-- The epoch sequencer waits for nothing inside KX3. -/
def epochQuiet (s : State) : Bool :=
  !s.epoch.ended && (match s.epoch.phase with
    | .idle | .done | .prepared | .prepareHalt => true
    | _ => false)
/-- No PID has a request, a fence or a closed batch on its way. -/
def xlatQuiet (s : State) : Bool :=
  s.xlat.all (fun c => c.2.queue.isEmpty && c.2.fence.isNone && c.2.closed.isEmpty)
/-- No measurement waits for a hash lane. -/
def weightsQuiet (s : State) : Bool :=
  s.att.weights.all (fun c => match c.2 with
    | some o => decide (o.status ≠ 1 ∨ o.phase ≠ 1 ∨ o.lane ≠ none)
    | none => true)
/-- No bundle is between its consent and its result. -/
def bookQuiet (s : State) : Bool :=
  match s.book.phase with
  | .consent | .quiesce | .committing => false
  | _ => true
/-- No scrub runs, is due, or is followed. -/
def scrubQuiet (s : State) : Bool :=
  s.part.scrub.isNone && s.part.scrubFor.isEmpty && (nextScrub s).isNone
/-- The start has ended. -/
def bootQuiet (s : State) : Bool := s.block ≠ .boot || s.boot.pos = .done || s.boot.pos = .off
/-- The power handshake has nothing to ask. -/
def powerQuiet (s : State) : Bool := s.pwr.asked || s.pwr.queue.isEmpty
/-- No job waits to be composed, and the list of the composed one is as it should be. -/
def jobsQuiet (s : State) : Bool := s.part.jobs.isEmpty || (s.part.composed && (!epochFree s || listFits s))
/-- No sequencer has anything to do. -/
def quiet (s : State) : Bool :=
  epochQuiet s && jobsQuiet s && s.pwr.doms.isEmpty && s.boot.loads.isEmpty && xlatQuiet s &&
  s.att.preps.all (fun p => decide (p.place ≠ 255)) && weightsQuiet s && s.att.keys.all (fun k => decide (k.phase ≠ 0 ∧ k.phase ≠ 4)) &&
  s.qn.active.isEmpty && bookQuiet s && decide (s.pwr.phase = 0) && scrubQuiet s && bootQuiet s && powerQuiet s

/-- The states in which the sequencers of firmware and BC run. -/
def live (s : State) : Bool := s.block = .boot || serving s
/-- One step of every sequencer, while the block runs. -/
def pollAll (s : State) : State :=
  pwrPoll ([pollEpoch, pollJobs, pollDoms, pollLoads, pollXlat, pollPreps, pollWeights, pollKeys, pollQuench, pollBook, pollSleep, pollScrub,
    pollBoot].foldl (fun t f => if live t then f t else t) s)
/-- Steps until no sequencer has anything to do, or the bound. -/
def settleLive : Nat → State → State
  | 0, s => s
  | n + 1, s => if !live s || quiet s then s else settleLive n (pollAll s)
/-- The sequencers run while KX3 starts and runs; in SLEEP only the wake logic and the power handshake do. -/
def settle (s : State) : State :=
  match s.block with
  | .boot | .run | .degraded => settleLive 40 s
  | .sleep => pwrPoll (pollWake s)
  | _ => s

end Sys2Proof.Machine
end

