-- ==== Sys2Proof/Machine/Events.lean ====
section
/-! DEFINITION. What arrives at the ports: replies on the Checker Programming Bus, HIP responses, flash reads, sites and power
domains that report, and the limits that pass. -/
namespace Sys2Proof.Machine

/-! ## Replies on CPB (R47 to R51) -/

/-- The fields of a received frame (Table 2-7). -/
def frAgent (f : BitVec 128) : Nat := nfld f.toNat 127 118
def frOp (f : BitVec 128) : Nat := nfld f.toNat 117 112
def frSeq (f : BitVec 128) : Nat := nfld f.toNat 111 88
def frPayload (f : BitVec 128) : BitVec 56 := BitVec.ofNat 56 (nfld f.toNat 87 32)
/-- The agent-side operations (Table 2-8). -/
def replyOp (op : Nat) : Bool := decide (0x20 ≤ op ∧ op ≤ 0x24)
/-- The frame that a received frame answers: the outstanding one of its agent, when the SEQ is that frame's and the CRC
matches under KX3's own expectation (R48, R49). -/
def flightOf (s : State) (f : BitVec 128) : Option Flight :=
  s.cpb.flights.find? (fun x =>
    decide (x.frame.agent = frAgent f ∧ x.seq = frSeq f) && replyOp (frOp f) &&
    decide (frameCrc x.frame.agent x.seq (f.toNat / 2 ^ 32) = w32 f.toNat))
/-- The frame is no longer outstanding. -/
def flightDone (s : State) (a : Nat) : State :=
  { s with cpb := { s.cpb with flights := s.cpb.flights.filter (fun x => decide (x.frame.agent ≠ a)) } }

/-- Chunks that a NAK makes void: those of a refused descriptor (R185). A chunk is refused only as the last one, with
reason 5, which a descriptor gives only to WRAP_SET. -/
def nakedChunks (f : Frame) (reason : Nat) : Nat :=
  let p := f.payload.toNat
  if reason ≠ 5 ∨ p = 0x17 * 2 ^ 48 then chunksOf (nfld p 55 52) else 0
/-- A delivery that CPB_CMD started has ended: its initiator's BUSY clears (R544). -/
def keyPortDone (s : State) (a result : Nat) (reply : BitVec 56) (op : Nat) : State :=
  [0, 1, 2, 3].foldl (fun t w =>
    let p := cpbPort t w
    if p.busy && decide (p.agent = a ∧ p.op = 0x0A) then cpbPortDone t w result op reply else t) s
/-- An answer to a KEY frame. -/
def keyReply (s : State) (a : Nat) (ok : Bool) (pay : BitVec 56) : State :=
  let s1 := keyDone s a ok
  if !ok then
    let s2 := keyPortDone s1 a 1 pay 0x21
    if (agent s a).kekValid then keyNaked s2 a else s2
  else if cpbIdle s1 (.key a) then keyPortDone s1 a 0 pay 0x20
  else s1
/-- An NI that has taken a GEN_SET has left every other value (R322, R531). -/
def niLeft (s : State) (f : Frame) : State :=
  if f.op = 7 && decide ((agent s f.agent).kind = 1) then
    markLeft s (nfld f.payload.toNat 55 48) (nfld f.payload.toNat 45 40)
  else s
/-- What a reply brings about in the sequence that sent its frame. -/
def replyAct (s : State) (f : Frame) (op : Nat) (pay : BitVec 56) : State :=
  let ok : Bool := op ≠ 0x21
  let reason := nfld pay.toNat 7 0
  match f.use with
  | .cmd w => cpbPortDone s w (if ok then 0 else 1) op pay
  | .census => censusReply s f.agent op pay
  | .epoch | .rollback => epochReply s f ok reason
  | .key a => keyReply s a ok pay
  | .post => postReply s f op pay
  | .quench _ _ | .retire _ | .quiesce | .hold _ | .restore | .inval _ | .fence _ _ | .roots _ | .domain _ _ | .sleep => s
/-- A received frame: it completes the frame it answers; any other is no reply. -/
def cpbReply (s : State) (fr : BitVec 128) : State :=
  match flightOf s fr with
  | none => s
  | some x =>
    let f := x.frame
    let naked := decide (frOp fr = 0x21)
    let s1 := flightDone s f.agent
    let s2 := match f.use with
      | .key a => if naked then dropChunks s1 a (nakedChunks f (nfld (frPayload fr).toNat 7 0)) else s1
      | _ => s1
    let s3 := cpbPump s2
    replyAct (if naked then s3 else tableAck (niLeft s3 f) f) f (frOp fr) (frPayload fr)
/-- CPB_REPLY. -/
def execCpbReply (frame : BitVec 128) (s : State) : Host.Outcome State Fault Refusal := .next (settle (cpbReply s frame))

/-- A resend is counted, and the first one is an L1 fault (R51, Table 17-7). -/
def resend (s : State) (x : Flight) : State :=
  let again : Nat := if x.frame.use = .epoch || x.frame.use = .rollback then 1 else 0
  let s1 := { s with epoch := { s.epoch with resent := s.epoch.resent + again }, cpb := { s.cpb with
    retryCnt := satInc s.cpb.retryCnt
    flights := s.cpb.flights.map (fun y => if y = x then { x with resends := x.resends + 1 } else y) } }
  if x.resends = 0 then escNote s1 1 else s1
/-- Three resends have passed: the agent is marked faulted, and its frame has failed. -/
def noReply (s : State) (x : Flight) : State :=
  let f := x.frame
  match f.use with
  | .census => censusSilent (flightDone s f.agent) f.agent
  | .key a =>
    let s1 := markFaulted (keyPortDone s a 2 0 0) f.agent 1
    keyNaked (keyDone s1 a false) a
  | .epoch => markFaulted (epochNoReply s f) f.agent 1
  | .rollback => epochNoReply (markFaulted s f.agent 3) f
  | _ => markFaulted s f.agent 1
/-- 2 us without a valid reply. A DRAIN, or an INVAL of kinds 0 to 3, goes on waiting after its third resend (R294, R544). An
agent that the directory does not list is asked once in the census. -/
def replyTimeout (s : State) (a : Nat) : State :=
  match s.cpb.flights.find? (fun x => decide (x.frame.agent = a)) with
  | none => s
  | some x =>
    if x.released then s
    else if x.frame.use = .census && (listedKind s a).isNone then flightDone s a
    else if x.resends < 3 then resend s x
    else if drainFrame x.frame then
      { s with cpb := { s.cpb with flights := s.cpb.flights.map (fun y => if y = x then { x with released := true } else y) } }
    else cpbPump (noReply s x)
/-- CPB_REPLY_TIMEOUT. -/
def execCpbReplyTimeout (agent : BitVec 10) (s : State) : Host.Outcome State Fault Refusal :=
  .next (settle (replyTimeout s agent.toNat))

/-! ## HIP responses (R41, R42) -/

/-- The class and the PID that a HIP request carries (R334, R335, Table 12-2); site loads are KX3's own Journeyman work (DESIGN
CHOICE, log entry 94). -/
def hipClass (s : State) (r : HipReq) : Nat × Nat :=
  match r.use with
  | .load _ | .staging _ => (1, 0)
  | .weight pid _ => (2, pid)
  | .lane n => match (lane s n).run with
    | some (_, d, _) => (fld (w32 (d.getD 1 0).toNat) 5 4, 0)
    | none => (2, 0)
  | .batch pid => (match (xlat s pid).closed with | b :: _ => if b.recs.any (fun x => x.master) then 0 else 1 | [] => 1, pid)
  | .log pid => (1, pid)
  | .scrub _ _ => (2, 0)
  | .post pid vec => (match pendOf s pid vec with | some p => p.cls | none => 1, pid)
/-- The request of a class that is served next: the PIDs take turns, and each PID's requests keep their order. -/
def hipTurn (s : State) (c : Nat) : Option HipReq :=
  let rs := s.hip.waiting.filter (fun r => decide ((hipClass s r).1 = c))
  let last := smGet 0 s.hip.turn c
  let pids := (List.range 66).map (fun k => (last + 1 + k) % 66)
  pids.findSome? (fun p => rs.find? (fun r => decide ((hipClass s r).2 = p)))
/-- Moves a waiting request to the port when one has completed: a Master request first; the others' classes share by weights whose
unit is open, so which of them comes is free (R333; log entry 94). -/
def hipPump (s : State) : State :=
  let cs := (List.range 4).filter (fun c => (hipTurn s c).isSome)
  let (c, s1) := if cs.length < 2 || cs.contains 0 then (cs.headD 0, s) else (cs.getD ((freeNow s).toNat % cs.length) 0, drew s)
  match (if s.hip.out.length < 64 then hipTurn s c else none) with
  | none => s
  | some r =>
    { s1 with hip := {
        out := s1.hip.out ++ [{ r with id := hipFreeId s1.hip }]
        waiting := s1.hip.waiting.erase r
        turn := smSet 0 s1.hip.turn c (hipClass s r).2 } }
/-- What the response brings about in its use. -/
def hipAct (s : State) (r : HipReq) (code : Nat) (data : List Byte) : State :=
  let ok : Bool := code = 0
  match r.use with
  | .load num => loadWriteDone s num r.addr ok
  | .staging num => stagingDone s num ok (slice data 0 r.len)
  | .weight pid obj => weightBytes s pid obj ok (slice data 0 r.len)
  | .batch pid => batchWritten s pid ok
  | .log pid => logWritten s pid ok
  | .scrub region readback => scrubAnswer s region readback ok data
  | .post pid vec => postDone s r pid vec code
  | .lane n => laneHip s n ok r.len data
/-- A response to an outstanding request: a refusal is recorded, a post's only once (R42). -/
def hipResponse (s : State) (id code : Nat) (data : List Byte) : State :=
  match s.hip.out.find? (fun r => decide (r.id = id)) with
  | none => s
  | some r =>
    let s1 := hipPump { s with hip := { s.hip with out := s.hip.out.filter (fun x => decide (x.id ≠ id)) } }
    let isPost : Bool := match r.use with | .post _ _ => true | _ => false
    hipAct (if code ≠ 0 && !isPost then hipRefused s1 code r else s1) r code data
/-- HIP_RESPONSE. -/
def execHipResponse (id : BitVec 6) (code : BitVec 3) (data : List Byte) (s : State) : Host.Outcome State Fault Refusal :=
  .next (settle (hipResponse s id.toNat code.toNat data))

/-! ## The boot flash (R71, R130, R139) -/

/-- A site's image is being read from the flash. -/
def siteReads (s : State) : Bool :=
  match curLoad s with
  | some l => decide (l.alt < 2) || l.pos = .probe
  | none => false
/-- A read of the flash ends: bytes of a site's image, or of the boot image. -/
def flashDone (s : State) (ok : Bool) (bytes : List Byte) : State :=
  match s.boot.flash with
  | none => s
  | some q =>
    let s1 : State := { s with boot := { s.boot with flash := none } }
    let bs := slice bytes 0 q.length
    if siteReads s1 then loadBytes s1 ok bs
    else match s.boot.pos with
      | .fetch src => bootFetch s1 src ok bs
      | .block src i => bootBlockDone s1 src i ok bs
      | _ => s1
/-- FLASH_READ_DONE. -/
def execFlashReadDone (ok : Bool) (bytes : List Byte) (s : State) : Host.Outcome State Fault Refusal :=
  .next (settle (flashDone s ok bytes))

/-! ## Starts and pushes -/

/-- SENSE_BIAS_READY, with what the self-tests and the flash will answer. -/
def execSenseBiasReady (report : StartReport) (arrays : BitVec 16) (coresBad : BitVec 4) (sfdp : Option (Bool × DWord)) (s : State) :
    Host.Outcome State Fault Refusal :=
  .next (settle (senseReady s report.disturbed.toNat report.fail.toNat arrays.toNat coresBad sfdp))
/-- PUSH_WAIT_TIMEOUT. -/
def execPushWaitTimeout (s : State) : Host.Outcome State Fault Refusal := .next (settle (pushTimeout s))
/-- PUSH_OFFER. -/
def execPushOffer (origin : Byte) (length : DWord) (s : State) : Host.Outcome State Fault Refusal :=
  .next (settle (pushOffer s origin.toNat length.toNat))
/-- PUSH_DATA. -/
def execPushData (words : List Word) (s : State) : Host.Outcome State Fault Refusal := .next (settle (pushData s words))
/-- PUSH_END. -/
def execPushEnd (s : State) : Host.Outcome State Fault Refusal := .next (settle (pushEnd s))
/-- STAGED. -/
def execStaged (origin : Byte) (length : DWord) (s : State) : Host.Outcome State Fault Refusal :=
  .next (settle (stagedAnswer s origin.toNat length.toNat))
/-- STAGED_TIMEOUT. -/
def execStagedTimeout (s : State) : Host.Outcome State Fault Refusal := .next (settle (stagedTimeout s))

/-! ## Sites (R62 to R65) -/

/-- SITE_READY rises at its input. -/
def siteUp (s : State) (k : Nat) : State :=
  { s with pins := { s.pins with siteReady := s.pins.siteReady ||| BitVec.ofNat 16 (2 ^ k) } }
def execSiteReady (site : BitVec 4) (s : State) : Host.Outcome State Fault Refusal := .next (settle (siteUp s site.toNat))
/-- SITE_READY_TIMEOUT. -/
def execSiteReadyTimeout (site : BitVec 4) (s : State) : Host.Outcome State Fault Refusal :=
  .next (settle (siteReadyTimeout s site.toNat))
/-- The uses whose DRAIN precedes a hold. -/
def holdUse : CpbUse → Bool
  | .hold _ | .quench _ 3 => true
  | _ => false
/-- The 5 ms of a site's DRAIN have passed: its controller is waited for no longer (R65). -/
def siteDrainLimit (s : State) (k : Nat) : State :=
  match siteCtrl s k with
  | none => s
  | some a =>
    cpbPump { s with cpb := { s.cpb with
      flights := s.cpb.flights.filter (fun x => !(decide (x.frame.agent = a) && holdUse x.frame.use))
      waiting := s.cpb.waiting.filter (fun x => !(decide (x.agent = a) && holdUse x.use)) } }
def execSiteDrainTimeout (site : BitVec 4) (s : State) : Host.Outcome State Fault Refusal :=
  .next (settle (siteDrainLimit s site.toNat))
/-- The DRAINs of a removal, of step 1 of a domain sequence and of a sleep entry. -/
def drainUse : CpbUse → Bool
  | .retire _ | .domain _ 1 | .sleep => true
  | _ => false
/-- The 5 ms of such DRAINs have passed: what is missing is waited for no longer (R264, R321, R502). -/
def drainLimit (s : State) : State :=
  cpbPump { s with cpb := { s.cpb with
    flights := s.cpb.flights.filter (fun x => !drainUse x.frame.use)
    waiting := s.cpb.waiting.filter (fun x => !drainUse x.use) } }
/-- DRAIN_ACK_LIMIT. -/
def execDrainAckLimit (s : State) : Host.Outcome State Fault Refusal := .next (settle (drainLimit s))

/-! ## Power (R61, R68, R69, R321, R505) -/

/-- KX_WAKE. -/
def execKxWake (s : State) : Host.Outcome State Fault Refusal := .next (settle (wakeEdge s))
/-- PWR_ACK. -/
def execPwrAck (level : Bool) (s : State) : Host.Outcome State Fault Refusal := .next (settle (pwrAck s level))
/-- PWR_ACK_TIMEOUT. -/
def execPwrAckTimeout (s : State) : Host.Outcome State Fault Refusal := .next (settle (pwrSilent s))
/-- The hub has domains 0 to 39 (Table 2-3). -/
def domainRow (d : BitVec 6) (s : State) (k : State → Nat → State) : Host.Outcome State Fault Refusal :=
  if d.toNat < 40 then .next (settle (k s d.toNat)) else .fault .noSuchDomain
/-- PD_STATUS_FALL. -/
def execPdStatusFall (d : BitVec 6) (s : State) : Host.Outcome State Fault Refusal := domainRow d s pdFall
/-- PD_STATUS_RISE. -/
def execPdStatusRise (d : BitVec 6) (s : State) : Host.Outcome State Fault Refusal := domainRow d s pdRise
/-- The 100 ms for a domain pass: a start that waits for its power halts with 0x62 (R145); a sequence goes on. -/
def domainSilent (s : State) (d : Nat) : State :=
  if s.block = .boot && s.boot.pos = .layout && (missingDomains s).contains d then haltWith s 0x62 else domPowerTimeout s d
/-- DOMAIN_POWER_TIMEOUT. -/
def execDomainPowerTimeout (d : BitVec 6) (s : State) : Host.Outcome State Fault Refusal := domainRow d s domainSilent

end Sys2Proof.Machine
end

