-- ==== Sys2Proof/Machine/Rows.lean ====
section
/-! DEFINITION. The commands that start or end a sequence: the cores, the fuse engine, the HMK and EPOCH pages, translation,
interrupts, Quench, the Pattern Book, power, CPB_CMD, and the messages of the operator and the tenants. -/
namespace Sys2Proof.Machine

/-! ## Cores and memory -/

/-- CORE_RELEASE. -/
def execCoreRelease (w : Who) (data : Word) (s : State) : Host.Outcome State Fault Refusal :=
  .next (settle (byCore s w (fun s => coreRelease s w data)))
/-- HEARTBEAT_TIMEOUT: 300 us without a heartbeat of a core that owes one. -/
def execHeartbeatTimeout (core : BitVec 2) (s : State) : Host.Outcome State Fault Refusal :=
  .next (settle (if beatDue s core.toNat then coreFault s core.toNat 3 else s))
/-- CORE_FAULT. -/
def execCoreFault (core : BitVec 2) (parity : Bool) (s : State) : Host.Outcome State Fault Refusal :=
  .next (settle (coreFault s core.toNat (if parity then 2 else 1)))
/-- SRAM_ERROR. -/
def execSramError (mem : BitVec 3) (uncorrectable : Bool) (pid : Byte) (off : Word) (s : State) :
    Host.Outcome State Fault Refusal :=
  .next (settle (sramError s mem.toNat uncorrectable pid.toNat off.toNat))

/-! ## Entropy (R215, R216) -/

/-- 1,024 raw bits on which a continuous test fails, or does not. What waits for the source goes on once it has restarted or
ended. -/
def execEntropyTestFail (raw : BitVec 1024) (s : State) : Host.Outcome State Fault Refusal :=
  .next (if coreOn s then settle (drbgResume (rawWindow s raw)) else s)
/-- The start-up test passes, while the source restarts. -/
def execEntropyRestartDone (s : State) : Host.Outcome State Fault Refusal :=
  .next (if coreOn s && s.rng.es = 1 then settle (drbgResume (startupPass s)) else s)

/-! ## Fuses and digests -/

/-- A fuse operation has ended; the tamper record of a start lets it go on, and BC goes on with what it programs by itself. -/
def fuseEnded (s : State) (failed : BitVec 72) : State :=
  match s.fuse.op with
  | none => s
  | some o =>
    let t := fuseDone s failed
    if s.boot.pos = .tamperRec then tamperRecorded t else if fabOk t .bc then fuseNext t o.key else t
/-- FUSE_OP_DONE. -/
def execFuseOpDone (failed : BitVec 72) (s : State) : Host.Outcome State Fault Refusal := .next (settle (fuseEnded s failed))
/-- SLEEP_DIGEST_ARM. -/
def execSleepDigestArm (w : Who) (word : Word) (s : State) : Host.Outcome State Fault Refusal :=
  .next (settle (byCore s w (fun s => sleepDigestArm s w word)))
/-- WAKE_DIGEST_COMPARE. -/
def execWakeDigestCompare (w : Who) (word : Word) (s : State) : Host.Outcome State Fault Refusal :=
  .next (settle (byCore s w (fun s => wakeDigestCompare s w word)))

/-! ## The HMK page (R524 to R526) -/

/-- HMK_SEAL. -/
def execHmkSeal (w : Who) (s : State) : Host.Outcome State Fault Refusal := .next (settle (hmkSealCmd w s))
/-- RELEASE of the selected place; the Hallmark that was prepared there is issued, or answered STALE (R236). -/
def hmkReleaseCmd (w : Who) (s : State) : State :=
  byCore s w (fun s =>
    let k := s.hmk.sel
    let (r, s1) := hmkRelease s k
    let s2 := setHmkResult s1 r
    if r = 0 then prepEnd s2 k true else if r = 4 then prepEnd s2 k false else s2)
/-- HMK_RELEASE. -/
def execHmkRelease (w : Who) (s : State) : Host.Outcome State Fault Refusal := .next (settle (hmkReleaseCmd w s))
/-- DROP of the selected place; a Hallmark that was prepared there waits for a new snapshot. -/
def hmkDropCmd (w : Who) (s : State) : State :=
  byCore s w (fun s =>
    let k := s.hmk.sel
    let s1 := setHmkResult (setHmkPlace s k hmkPlaceReset) 0
    setPreps s1 (s1.att.preps.map (fun p => if p.place = k then { p with place := 255 } else p)))
/-- HMK_DROP. -/
def execHmkDrop (w : Who) (s : State) : Host.Outcome State Fault Refusal := .next (settle (hmkDropCmd w s))
/-- HMK_ASSEMBLE_LIMIT. -/
def execHmkAssembleLimit (place : BitVec 2) (s : State) : Host.Outcome State Fault Refusal :=
  .next (settle (hmkLimit s place.toNat))

/-! ## Partitions and epochs -/

/-- SET_STATE (R531). -/
def execSetState (w : Who) (pid : Byte) (newState : BitVec 3) (s : State) : Host.Outcome State Fault Refusal :=
  .next (settle (setStateCmd w pid newState s))
/-- GEN_STEP (R531). -/
def execGenStep (w : Who) (pid : Byte) (s : State) : Host.Outcome State Fault Refusal := .next (settle (genStepCmd w pid s))
/-- GEN_READY. -/
def execGenReady (pid : Byte) (s : State) : Host.Outcome State Fault Refusal := .next (settle (genReady s pid.toNat))
/-- A command of EPOCH_CMD: what SC1 has to stage is staged before it. -/
def epochCmd (w : Who) (s : State) (k : State → State) : State := settle (byCore (settle s) w k)
/-- EPOCH_PREPARE. -/
def execEpochPrepare (w : Who) (s : State) : Host.Outcome State Fault Refusal := .next (epochCmd w s (fun s => epochStart s false))
/-- EPOCH_RUN. -/
def execEpochRun (w : Who) (s : State) : Host.Outcome State Fault Refusal := .next (epochCmd w s (fun s => epochStart s true))
/-- EPOCH_COMMIT. -/
def execEpochCommit (w : Who) (s : State) : Host.Outcome State Fault Refusal := .next (epochCmd w s epochCommitCmd)
/-- EPOCH_ROLLBACK. -/
def execEpochRollback (w : Who) (s : State) : Host.Outcome State Fault Refusal := .next (epochCmd w s epochAbandon)
/-- REPREPARE. -/
def execReprepare (w : Who) (s : State) : Host.Outcome State Fault Refusal := .next (epochCmd w s epochReprepare)
/-- COMMIT_TIMEOUT. -/
def execCommitTimeout (s : State) : Host.Outcome State Fault Refusal := .next (settle (commitTimeout s))
/-- SCRUB_RETRY. -/
def execScrubRetry (region : BitVec 13) (s : State) : Host.Outcome State Fault Refusal := .next (settle (scrubDue s region.toNat))

/-! ## Translation and interrupts -/

/-- FQ_REGISTER. -/
def execFqRegister (src : Src) (s : State) : Host.Outcome State Fault Refusal := .next (settle (xlCmd s src fqRegister))
/-- FQ_RELEASE. -/
def execFqRelease (src : Src) (s : State) : Host.Outcome State Fault Refusal := .next (settle (xlCmd s src fqRelease))
/-- IRQ_APPLY. -/
def execIrqApply (src : Src) (s : State) : Host.Outcome State Fault Refusal := .next (settle (irqCmd s src irqApply))

/-! ## The verdict ring (R440) -/

/-- LOG_REGISTER. -/
def execLogRegister (src : Src) (s : State) : Host.Outcome State Fault Refusal := .next (settle (asyCmd s src 0x40 logRegister))
/-- LOG_RELEASE. -/
def execLogRelease (src : Src) (s : State) : Host.Outcome State Fault Refusal := .next (settle (asyCmd s src 0x40 logRelease))

/-! ## Quench -/

/-- QN_START. -/
def execQnStart (w : Who) (pid : Byte) (outcome : BitVec 2) (s : State) : Host.Outcome State Fault Refusal :=
  .next (settle (byCore s w (fun s => qnStart s pid.toNat outcome.toNat)))
/-- QUENCH_RESUME. -/
def execQuenchResume (s : State) : Host.Outcome State Fault Refusal := .next (settle (quenchResume s))
/-- QUENCH_DRAIN_WAIT_END. -/
def execQuenchDrainWaitEnd (pid : Byte) (s : State) : Host.Outcome State Fault Refusal :=
  .next (settle (quenchDrained s pid.toNat))

/-! ## The Pattern Book (R547) -/

/-- BOOK_OPEN. -/
def execBookOpen (src : Src) (s : State) : Host.Outcome State Fault Refusal := .next (settle (bookAccess s src 0x40 bookOpen))
/-- BOOK_SUBMIT. -/
def execBookSubmit (src : Src) (s : State) : Host.Outcome State Fault Refusal := .next (settle (bookAccess s src 0x40 bookSubmit))
/-- BOOK_ABORT. -/
def execBookAbort (src : Src) (s : State) : Host.Outcome State Fault Refusal := .next (settle (bookAccess s src 0x40 bookAbort))
/-- BOOK_RESTORE. -/
def execBookRestore (src : Src) (s : State) : Host.Outcome State Fault Refusal := .next (settle (bookAccess s src 0x40 bookRestore))
/-- BOOK_READBACK. -/
def execBookReadback (src : Src) (s : State) : Host.Outcome State Fault Refusal :=
  .next (settle (bookAccess s src 0x40 bookReadback))
/-- BOOK_WINDOW_WRITE. -/
def execBookWindowWrite (src : Src) (bytes : List Byte) (s : State) : Host.Outcome State Fault Refusal :=
  .next (settle (bookWrite s src bytes))
/-- CONSENT_TIMEOUT. -/
def execConsentTimeout (s : State) : Host.Outcome State Fault Refusal :=
  .next (settle (if s.book.phase = .consent then bookEnd s 12 else s))

/-! ## Power -/

/-- PWR_DOMAIN. -/
def pwrDomainCmd (w : Who) (d st : Nat) (s : State) : State := byCore s w (fun s => pwrDomain s d st)
def execPwrDomain (w : Who) (d : BitVec 6) (st : BitVec 2) (s : State) : Host.Outcome State Fault Refusal :=
  .next (settle (pwrDomainCmd w d.toNat st.toNat s))
/-- PWR_SLEEP. -/
def execPwrSleep (w : Who) (grace : BitVec 14) (s : State) : Host.Outcome State Fault Refusal :=
  .next (settle (byCore s w (fun s => sleepCmd s grace.toNat)))
/-- SLEEP_GRACE_END. -/
def execSleepGraceEnd (s : State) : Host.Outcome State Fault Refusal := .next (settle (graceEnd s))

/-! ## CPB_CMD (R544) -/

/-- The operations that firmware may send through CPB_CMD: those of KX3 but PREPARE, COMMIT and CLOSE. -/
def cpbCmdOp (op : Nat) : Bool := [1, 2, 3, 7, 8, 9, 0x0A, 0x0B, 0x0C].contains op
/-- The operands of an initiator. -/
def cpbSel (s : State) (w : Who) : Nat := fld (reg s (whoKey w 0x15044)) 9 0
def cpbPay (s : State) (w : Who) : BitVec 56 :=
  BitVec.ofNat 56 ((reg s (whoKey w 0x15054)).toNat + 2 ^ 32 * fld (reg s (whoKey w 0x15058)) 23 0)
/-- A FENCE whose RGEN is neither its owner's GEN nor permitted yet (R322). -/
def fenceHold (s : State) (p : Nat) : Bool :=
  let o := s.part.active.rOwner (nfld p 55 43)
  tenant o && decide (nfld p 37 32 ≠ genOf s o) && !genPermits s o (nfld p 37 32)
/-- The refusals of R544, in its order: BAD_OP 5, WINDOW 3, HOLD 4, FAULTED 6, ABSENT 7. -/
def cpbCmdRefused (s : State) (op a p : Nat) : Option Nat :=
  if !cpbCmdOp op || (op = 7 && decide (nfld p 45 40 ≠ genOf s (nfld p 55 48))) then some 5
  else if (op = 7 || op = 8) && s.epoch.window then some 3
  else if op = 8 && fenceHold s p then some 4
  else if op ≠ 0x0C && !(agent s a).present then some 7
  else if op ≠ 0x0C && (agent s a).faulted then some 6
  else none
/-- A whole delivery from CPB_KEY, none at an index that the agent's active table references (R186): WRAP_SET, ERASE, or the key in a Strongbox slot of USE ENCRYPT_ONLY and ENGINE CPB whose length
is the TYPE's. -/
def cpbKeySend (s : State) (w : Who) (a : Nat) : Option State :=
  let k := reg s (whoKey w 0x15064)
  let v := slotOf s (fld k 31 24)
  let id := fld (reg s (whoKey w 0x15054)) 23 0
  let fits := keyCarried s (fld k 31 24)
  let desc (t : Nat) : KeyDesc := { type := t, index := fld k 23 16, pid := v.pid, gen := v.gen, dir := fld k 13 12, keyId := id }
  if fld k 3 0 ≠ 1 ∧ indexUsed s a (fld k 23 16) then none
  else match fld k 3 0 with
  | 0 => some (keyErase s a (fld k 23 16) id)
  | 1 => if slotEmpty s 2 then none else some (wrapSet s a)
  | 2 => if fits && decide (v.len = 0) then some (keySend s a (desc 2) (wrapKey s a) (keyBytes v)) else none
  | 3 => if fits && decide (v.len ≠ 0) then some (keySend s a (desc 3) (wrapKey s a) (keyBytes v)) else none
  | _ => none
/-- A write of OP to CPB_CMD. -/
def cpbCmd (s : State) (w : Who) (op : Nat) : State :=
  let p := cpbPort s w.num
  let a := cpbSel s w
  let pay := cpbPay s w
  let f : Frame := { agent := a, op := op, payload := pay, use := .cmd w.num }
  if p.busy then setCpbPort s w.num { p with result := 9 }
  else match cpbCmdRefused s op a pay.toNat with
    | some r => setCpbPort s w.num { p with result := r }
    | none =>
      let s1 := setCpbPort s w.num { p with busy := true, agent := a, op := op }
      if drainFrame f && agentDown s a then cpbPortDone s1 w.num 0
      else if op = 0x0A then
        match cpbKeySend s1 w a with
        | some s2 => s2
        | none => setCpbPort s w.num { p with result := 5 }
      else cpbSend s1 f
/-- The page's registers exist for BC and the service cores. -/
def cpbCore (w : Who) (s : State) (k : State → State) : State := ownCore s w k
/-- CPB_CMD_FRAME. -/
def execCpbCmdFrame (w : Who) (op : BitVec 6) (s : State) : Host.Outcome State Fault Refusal :=
  .next (settle (cpbCore w s (fun s => cpbCmd s w op.toNat)))
/-- ABANDON ends the wait of this initiator for a DRAIN_ACK; a late one finds no frame. -/
def cpbAbandon (s : State) (w : Who) : State :=
  let mine (f : Frame) : Bool := f.use = .cmd w.num && drainFrame f
  if (cpbPort s w.num).busy && (s.cpb.flights.any (fun x => mine x.frame) || s.cpb.waiting.any mine) then
    cpbPump (cpbPortDone (cpbDropUse s (.cmd w.num)) w.num 8)
  else s
/-- CPB_ABANDON. -/
def execCpbAbandon (w : Who) (s : State) : Host.Outcome State Fault Refusal :=
  .next (settle (cpbCore w s (fun s => cpbAbandon s w)))

/-! ## Messages -/

/-- A message that SC1 acts on, and what follows from it. -/
def wspRow (ch : Chan) (tag : BitVec 6) (code : Nat) (s : State) (k : State → Nat → List Word → State) :
    Host.Outcome State Fault Refusal := .next (settle (withRequest s ch tag code k))
/-- QUARANTINE_LIFT (R263). -/
def execQuarantineLift (ch : Chan) (tag : BitVec 6) (s : State) : Host.Outcome State Fault Refusal :=
  wspRow ch tag 0x0305 s (fun s _ body => liftMsg s ch.num tag.toNat body)
/-- CONSENT (R268). -/
def execConsent (ch : Chan) (tag : BitVec 6) (s : State) : Host.Outcome State Fault Refusal :=
  wspRow ch tag 0x0302 s (fun s _ body => consentMsg s ch.num tag.toNat body)
/-- PART_START (R262). -/
def execPartStart (ch : Chan) (tag : BitVec 6) (s : State) : Host.Outcome State Fault Refusal :=
  wspRow ch tag 0x0303 s (fun s cls body => partStart s ch.num tag.toNat cls body)
/-- QUENCH (R323). -/
def execQuench (ch : Chan) (tag : BitVec 6) (s : State) : Host.Outcome State Fault Refusal :=
  wspRow ch tag 0x0304 s (fun s _ body => quenchMsg s ch.num tag.toNat body)
/-- IRQ_BIND (R316). -/
def execIrqBind (ch : Chan) (tag : BitVec 6) (s : State) : Host.Outcome State Fault Refusal :=
  wspRow ch tag 0x0307 s (fun s cls body => irqBind s ch.num tag.toNat cls body)
/-- DOMAIN_RESET (R321). -/
def execDomainReset (ch : Chan) (tag : BitVec 6) (s : State) : Host.Outcome State Fault Refusal :=
  wspRow ch tag 0x0308 s (fun s cls body => domainReset s ch.num tag.toNat cls body)
/-- SLEEP_REQUEST (R500). -/
def execSleepRequest (ch : Chan) (tag : BitVec 6) (s : State) : Host.Outcome State Fault Refusal :=
  wspRow ch tag 0x0601 s (fun s _ body => sleepMsg s ch.num tag.toNat body)
/-- DOMAIN_POWER (R498). -/
def execDomainPower (ch : Chan) (tag : BitVec 6) (s : State) : Host.Outcome State Fault Refusal :=
  wspRow ch tag 0x0603 s (fun s cls body => domainPower s ch.num tag.toNat cls body)
/-- WEIGHT_MEASURE (R232 to R234). -/
def execWeightMeasure (ch : Chan) (tag : BitVec 6) (car : Carriage) (s : State) : Host.Outcome State Fault Refusal :=
  .next (settle (carried s ch tag 0x0203 car false (fun s sec _ body => weightMeasure s ch.num tag.toNat sec body)))
/-- KEY_REVOKE (R248). -/
def execKeyRevoke (ch : Chan) (tag : BitVec 6) (car : Carriage) (s : State) : Host.Outcome State Fault Refusal :=
  .next (settle (carried s ch tag 0x0207 car true (fun s _ cls body => keyRevoke s ch.num tag.toNat cls body)))

end Sys2Proof.Machine
end

