-- ==== Sys2Proof/Machine/Access.lean ====
section
/-! DEFINITION. Register writes: how a request is resolved (Table 3-9), which command of the table a write to a command register is,
and how the registers of one request are performed (R79, R81, R84 to R87, R90 to R92). -/
namespace Sys2Proof.Machine

/-! ## The command of a register write -/

/-- A command, as a step on the state. -/
abbrev Row := State → Host.Outcome State Fault Refusal
/-- The command that OP selects. -/
def byOp (op : Nat) (rows : List (Nat × Row)) : Option Row := (rows.find? (fun r => decide (r.1 = op))).map (fun r => r.2)
/-- The command that a write of `v` to a firmware register performs. -/
def fwRow (w : Who) (p o : Nat) (v : Word) : Option Row :=
  match p, o with
  | 0x00, 0x4C => some (execTopHaltWrite w (BitVec.ofNat 8 v.toNat))
  | 0x00, 0x58 => if bitOf v 8 then some (execTopVtClr w) else none
  | 0x00, 0x5C => some (execCoreRelease w v)
  | 0x01, 0x40 =>
    let win (s : State) : BitVec 2 := BitVec.ofNat 2 s.fuse.window
    byOp (fld v 3 0) [(1, execReadRaw w), (2, execReadDecoded w), (3, fun s => execProgramRow w (win s) s),
      (4, fun s => execProgramGroup w (win s) (BitVec.ofNat 8 (fld v 15 8)) s), (5, fun s => execProgramSecret w (win s) s),
      (6, fun s => execProgramRaw w (win s) (BitVec.ofNat 8 (fld v 23 16)) s)]
  | 0x02, 0xAC => some (execSleepDigestArm w v)
  | 0x02, 0xDC => some (execWakeDigestCompare w v)
  | 0x03, 0x4C => byOp (fld v 3 0) [(1, execInstall w), (2, execErase w), (3, execDerive w), (4, execErasePid w), (5, execEraseStale w),
      (6, execRootCmd w)]
  | 0x03, 0x60 => some (execSboxLockSet w v)
  | 0x04, 0x40 => some (execPkeSlotLenWrite w v)
  | 0x04, 0x44 => some (execPkeJob w v)
  | 0x06, 0x40 => some (execSymJob w v)
  | 0x08, 0x40 => byOp (fld v 2 0) [(1, execHmkTake w (BitVec.ofNat 8 (fld v 23 16))), (2, execHmkSeal w), (3, execHmkRelease w),
      (4, execHmkDrop w)]
  | 0x09, 0x48 => byOp (fld v 3 0) [(1, execSetState w (BitVec.ofNat 8 (fld v 15 8)) (BitVec.ofNat 3 (fld v 6 4))),
      (2, execGenStep w (BitVec.ofNat 8 (fld v 15 8)))]
  | 0x0A, 0x48 => byOp (fld v 3 0) [(1, execEpochPrepare w), (2, execEpochCommit w), (3, execEpochRun w), (4, execEpochRollback w),
      (5, execReprepare w)]
  | 0x0D, 0x40 => if bitOf v 0 then some (execQnStart w (BitVec.ofNat 8 (fld v 15 8)) (BitVec.ofNat 2 (fld v 25 24))) else none
  | 0x0E, 0x48 => some (execQosOperRateWrite w (BitVec.ofNat 16 (fld v 15 0)))
  | 0x0F, 0x54 => byOp (fld v 2 0) [(1, execTlWait (.fab w)), (2, execTlCancel (.fab w)), (3, execTlRead (.fab w)),
      (4, execTlSetAcl (.fab w)), (5, execTlClear w)]
  | 0x10, 0x4C => some (execMbfVersionWrite w v)
  | 0x10, 0x50 => byOp (fld v 3 0) [(1, execMbfFlush w), (2, execMbfResetDone w), (3, execMbfTake w)]
  | 0x11, 0x44 => some (execAsfQuotaWrite w v)
  | 0x12, 0x54 => some (execHeartbeatWrite w)
  | 0x13, 0x70 => if bitOf v 0 then some (execLgfWrite w) else none
  | 0x14, 0x40 => byOp (fld v 2 0) [(1, execPwrDomain w (BitVec.ofNat 6 (fld v 12 7)) (BitVec.ofNat 2 (fld v 6 5))),
      (2, execPwrSleep w (BitVec.ofNat 14 (fld v 26 13)))]
  | 0x15, 0x40 =>
    if fld v 5 0 = 0x3F then some (execCpbAbandon w)
    else if fld v 5 0 = 0 then none else some (execCpbCmdFrame w (BitVec.ofNat 6 (fld v 5 0)))
  | 0x05, o => if within o 0x40 0x80 then some (execMeasJob w (BitVec.ofNat 4 ((o - 0x40) / 4)) v) else none
  | _, _ => none
/-- Commands one after another, up to one that stops. -/
def rowsThen (f g : Row) : Row := fun s => match f s with
  | .next t => g t
  | r => r
/-- The command of a write to a unit's block of the CVU page. Several bits of CVU_CMD act in ascending order (log entry 78). -/
def cvuRow (w : Who) (o : Nat) (v : Word) : Option Row :=
  let u : BitVec 3 := BitVec.ofNat 3 ((o - 0x100) / 0x40)
  match o % 0x40 with
  | 0x20 => some (execCvuData w u v)
  | 0x24 => some (execCvuData8 w u (BitVec.ofNat 8 v.toNat))
  | 0x2C =>
    (([(0, execCvuStart w u), (1, execCvuFinish w u), (2, execCvuMemrun w u)] : List (Nat × Row)).filter (fun r => bitOf v r.1)).foldl
      (fun acc r => match acc with
        | none => some r.2
        | some f => some (rowsThen f r.2)) none
  | _ => none
/-- The command of a write to a window register. -/
def winRow (src : Src) (p o : Nat) (v : Word) : Option Row :=
  match p, o with
  | 2, 0x54 => byOp (fld v 2 0) [(1, execTlWait src), (2, execTlCancel src), (3, execTlRead src), (4, execTlSetAcl src)]
  | 3, 0x40 => byOp (fld v 1 0) [(1, execXlSend src), (2, execFqRegister src), (3, execFqRelease src)]
  | 4, 0x50 => byOp (fld v 1 0) [(1, execIrqApply src), (2, execIrqDiscard src)]
  | 5, 0x40 => byOp (fld v 2 0) [(1, execAsySubmit src), (2, execAsyClose src), (3, execAsyCancel src), (4, execLogRegister src),
      (5, execLogRelease src), (6, execAsyRun src)]
  | 5, 0x300 => byOp (fld v 2 0) [(1, execPrgOpen src), (2, execPrgLoad src), (3, execPrgUnload src), (4, execPrgInfo src)]
  | _, _ => none
/-- The command of a write to an operator register. -/
def operRow (src : Src) (p o : Nat) (v : Word) : Option Row :=
  match p, o with
  | 5, 0x50 => if bitOf v 0 then some (execLgRelease src) else none
  | 7, 0x40 => byOp (fld v 2 0) [(1, execBookOpen src), (2, execBookSubmit src), (3, execBookAbort src), (4, execBookRestore src),
      (5, execBookReadback src)]
  | _, _ => none
/-- The operation of a Tally slot's registers; a write of TV_HI is WRITE_HI_COMMIT's. -/
def slotRow (src : Src) (k o : Nat) (v : Word) : Option Row :=
  match o with
  | 8 => some (execTallySignal src (BitVec.ofNat 14 k))
  | 0xC => some (execTallyAdd src (BitVec.ofNat 14 k) v)
  | _ => none
/-- A write of TV_HI: SET with the staged low half (Table 13-2). -/
def slotSet (s : State) (src : Src) (slot a : Nat) (hi : Word) : State :=
  slotAccess s src slot 4 2 (fun s t oc =>
    slotSetOp s t (BitVec.ofNat 64 ((stagedLo s src (a - 4)).toNat + 2 ^ 32 * hi.toNat)) oc)
/-- The command that a write of `v` to the register at `a` performs beside its fields, if any. -/
def rowAt (src : Src) (a : Nat) (v : Word) : Option Row :=
  match src, locate a with
  | .fab w, .fw 7 o => if within o 0x100 0x300 then cvuRow w o v else none
  | .fab w, .fw p o => fwRow w p o v
  | _, .win _ p o => winRow src p o v
  | _, .oper p o => operRow src p o v
  | _, .fwTally t o | _, .slot _ t o => if o = 4 then some (fun s => .next (slotSet s src t a v)) else slotRow src t o v
  | _, _ => none

/-! ## Performing a request -/

/-- The writes that the registers of the map hold by themselves (R84, R86, R90). -/
def wordWrite (src : Src) (s : State) (aw : Nat × Word) : State :=
  let (a, w) := aw
  let l := locate a
  match kindAt l with
  | .undef | .ro | .own => s
  | .rw m => setReg s (plainKey src l a) (w &&& w32 m)
  | .rwl m =>
    match l with
    | .fw p o => rwlWrite s p o (w &&& w32 m)
    | _ => s
  | .lo _ => setStagedLo s src a w
  | .hi m => pairCommit s src (a - 4) (w &&& w32 m)
  | .head => headWrite s l w
  | .special =>
    match src, l with
    | .fab c, .fw p o => fwSpecial s c p o w
    | _, .win pid p o => winSpecial s pid p o a w
    | _, _ => s
/-- A window that takes whole writes: MB_TX, BOOK_WINDOW, PRG_WINDOW, XL_FAULT_IN, MBF_RX (R269, R296, R370, R462, R539). -/
inductive WKind where
  | tx (c : Nat) | book | prg | fault | rxf
deriving DecidableEq, Repr
def windowAt : Loc → Option WKind
  | .win pid 1 o => if within o 0x100 0x200 then some (.tx (pid - 2)) else none
  | .win _ 3 o => if within o 0x100 0x120 then some .fault else none
  | .win _ 5 o => if within o 0x400 0xC00 then some .prg else none
  | .oper 7 o => if within o 0x800 0x1000 then some .book else none
  | .oper p o => if 1 ≤ p ∧ p ≤ 4 ∧ within o 0x100 0x200 then some (.tx (63 + p)) else none
  | .fw 0x10 o => if within o 0x200 0x300 then some .rxf else none
  | _ => none
/-- What a request writes: one register, or consecutive beats of one window. -/
inductive WPart where
  | word (a : Nat) (v : Word)
  | window (k : WKind) (a : Nat) (beats : List (DWord × Byte))
deriving DecidableEq, Repr
def WPart.addr : WPart → Nat
  | .word a _ => a
  | .window _ a _ => a
/-- The parts of a request in ascending order (R86). -/
def partsOf (a : Nat) : List (DWord × Byte) → List WPart
  | [] => []
  | (d, st) :: rest =>
    let tail := partsOf (a + 8) rest
    match windowAt (locate a) with
    | some k =>
      if st = 0 then tail
      else match tail with
        | .window k' a' bs :: more => if k' = k ∧ a' = a + 8 then .window k a ((d, st) :: bs) :: more else .window k a [(d, st)] :: tail
        | _ => .window k a [(d, st)] :: tail
    | none =>
      (if st.toNat % 16 = 15 then [.word a (w32 d.toNat)] else []) ++
      (if st.toNat / 16 = 15 then [.word (a + 4) (w32 (d.toNat / 2 ^ 32))] else []) ++ tail
/-- The words of beats whose strobes are set. -/
def strobed (beats : List (DWord × Byte)) : List Word :=
  beats.flatMap (fun b => (if b.2.toNat % 16 = 15 then [w32 b.1.toNat] else []) ++ (if b.2.toNat / 16 = 15 then [w32 (b.1.toNat / 2 ^ 32)] else []))
/-- The channel of a number (R539). -/
def chanOf (c : Nat) : Chan := if operChan c then .oper (BitVec.ofNat 2 (c - 64)) else .priv (BitVec.ofNat 8 (c + 2))
/-- The command of a write to a window. -/
def windowRow (src : Src) (k : WKind) (beats : List (DWord × Byte)) : Row :=
  match k with
  | .tx c => execMbTxWrite src (chanOf c) beats
  | .book => execBookWindowWrite src (wordsToBytes (strobed beats))
  | .prg => execPrgWindowWrite src (wordsToBytes (strobed beats))
  | .fault => execXlFaultIn src (wordsToBytes (strobed beats))
  | .rxf => match src with
    | .fab w => execMbfRxAppend w (strobed beats)
    | .hcp _ _ => .next
/-- Whether a waiting response is an HCP answer. -/
def isHcp (h : Held) : Bool := match h.eff with | .hcp _ _ _ => true | _ => false
/-- A list without its last element that meets `p`, and that element. -/
def takeLast {α : Type} (p : α → Bool) (l : List α) : Option α × List α :=
  let r := l.reverse
  (r.find? p, (r.takeWhile (fun x => !p x) ++ (r.dropWhile (fun x => !p x)).drop 1).reverse)
/-- A command performed as part of a request: its answer is taken out of the state, where `respond` put it. -/
def runRow (f : Row) (s : State) : Rsp × State :=
  match f { s with rsp := none } with
  | .next t =>
    if hcpOutstanding s < hcpOutstanding t then
      let (h, rest) := takeLast isHcp t.qos.held
      (match h with | some { eff := .hcp r _ _, .. } => r | _ => .ok,
       { t with qos := { t.qos with held := rest }, rsp := s.rsp })
    else (match t.rsp with | some r => r.code | none => .ok, { t with rsp := s.rsp })
  | _ => (.ok, s)
/-- One part: a register's own fields first, then its command. -/
def partWrite (src : Src) (s : State) : WPart → Rsp × State
  | .word a v =>
    let s1 := wordWrite src s (a, v)
    match rowAt src a v with
    | some f => runRow f s1
    | none => (.ok, s1)
  | .window k _ beats => runRow (windowRow src k beats) s
/-- The parts of a request in order, or the first that is refused. -/
def partsWrite (src : Src) : List WPart → State → Except (Nat × Rsp) State
  | [], s => .ok s
  | p :: ps, s =>
    let (r, t) := partWrite src s p
    if r = .ok then partsWrite src ps t else .error (p.addr, r)
/-- Performs a request that has passed its checks: every part, or, where a part is refused, none (R79). -/
def requestPerform (s : State) (src : Src) (addr : Nat) (beats : List (DWord × Byte)) : State :=
  match partsWrite src (partsOf addr beats) s with
  | .ok t => respond t src .ok
  | .error (a, r) => refuse s src (locate a) a r

/-- Resolution and performance of a write request (Table 3-9, R81). -/
def requestWrite (s : State) (src : Src) (addr : Nat) (beats : List (DWord × Byte)) : State :=
  match src with
  | .hcp tag _ =>
    arrive s src (fun s =>
      let ws := requestWords addr beats
      let places := ws.map (fun x => x.1)
      if !shapeOk addr beats.length then respond s src .edecode
      else match places.find? (fun a => !reaches s tag (locate a)) with
      | some a => refuse s src (locate a) a .eaccess
      | none =>
        match places.find? (fun a => !inService s true (locate a)) with
        | some a => refuse s src (locate a) a .edown
        | none =>
          match wordsRefused s ws with
          | some (a, r) => refuse s src (locate a) a r
          | none =>
            match (written ws).find? (fun x => slotBarred s (locate x.1)) with
            | some x => refuse s src (locate x.1) x.1 .elock
            | none => requestPerform s src addr beats)
  | .fab c =>
    let ws := requestWords (addr / 8 * 8) beats
    if !fabOk s c then s
    else match ws.find? (fun x => x.2.2 ≠ 0 && (fwBarred s c (locate x.1)).isSome) with
    | some x => refuse s src (locate x.1) x.1 ((fwBarred s c (locate x.1)).getD .edecode)
    | none =>
      match wordsRefused s ws with
      | some (a, r) => refuse s src (locate a) a r
      | none => requestPerform s src (addr / 8 * 8) beats

/-- REGISTER_WRITE: a request of whole beats, each with its byte strobes. -/
def execRegisterWrite (src : Src) (addr : BitVec 23) (beats : List (DWord × Byte)) (s : State) : Host.Outcome State Fault Refusal :=
  .next (requestWrite s src addr.toNat beats)

/-- One beat that carries one 32-bit register. -/
def oneWord (a : Nat) (w : Word) : List (DWord × Byte) :=
  if a % 8 = 0 then [(BitVec.ofNat 64 w.toNat, 0x0F)] else [(BitVec.ofNat 64 (w.toNat * 2 ^ 32), 0xF0)]

/-- A write of one register, as one beat. -/
def registerWrite (s : State) (src : Src) (a : Nat) (w : Word) : State := requestWrite s src (a / 8 * 8) (oneWord a w)

/-- WRITE_HI_COMMIT (R90): the half must be a _HI. -/
def writeHi (s : State) (src : Src) (a : Nat) (hi : Word) : State :=
  match src, locate a, kindAt (locate a) with
  | .fab _, .fwTally t 4, _ => slotSet s src t a hi
  | .hcp tag _, .slot p k 4, _ =>
    if tagPid tag = p then slotSet s src k a hi else refuseForeign s src a
  | _, _, .hi _ => registerWrite s src a hi
  | _, _, _ => s
def execWriteHiCommit (src : Src) (addr : BitVec 23) (hi : Word) (s : State) : Host.Outcome State Fault Refusal :=
  .next (writeHi s src addr.toNat hi)

/-- PG_LOCK_SET (R92): a write of 1 to PG_LOCK of the page that holds the address. -/
def pageLock (s : State) (src : Src) (a : Nat) : State := registerWrite s src (a / 4096 * 4096 + 0x1C) 1
def execPgLockSet (src : Src) (addr : BitVec 23) (s : State) : Host.Outcome State Fault Refusal :=
  .next (pageLock s src addr.toNat)

end Sys2Proof.Machine
end

