-- ==== Sys2Proof/Machine/Runs.lean ====
section
/-! DEFINITION. Runs: the context, the handlers and what every instruction shares: its guard, its cost and its end (R446 to R450, R456
to R460, R466). -/
namespace Sys2Proof.Machine

/-! ## Context accessors (Table 16-1) -/

def Ctx.vGet (c : Ctx) (r l : Nat) : Word := smGet 0 c.v (64 * r + l)
def Ctx.vSet (c : Ctx) (r l : Nat) (w : Word) : Ctx := { c with v := smSet 0 c.v (64 * r + l) w }
/-- S0 reads 0 and discards writes. -/
def Ctx.sGet (c : Ctx) (r : Nat) : DWord := if r = 0 then 0 else smGet 0 c.s r
def Ctx.sSet (c : Ctx) (r : Nat) (w : DWord) : Ctx := if r = 0 then c else { c with s := smSet 0 c.s r w }
/-- P0 reads all ones. -/
def Ctx.pGet (c : Ctx) (r : Nat) : DWord := if r = 0 then BitVec.allOnes 64 else smGet 0 c.p r
def Ctx.pSet (c : Ctx) (r : Nat) (w : DWord) : Ctx := if r = 0 then c else { c with p := smSet 0 c.p r w }
def Ctx.tGet (c : Ctx) (r e : Nat) : Int := smGet 0 c.t (256 * r + e)
def Ctx.floorOf (c : Ctx) (r : Nat) : Int := smGet 0 c.floor r
def Ctx.setFlag (c : Ctx) (b : Nat) : Ctx := if c.flags / 2 ^ b % 2 = 1 then c else { c with flags := c.flags + 2 ^ b }
def Ctx.flagIf (c : Ctx) (b : Nat) (x : Bool) : Ctx := if x then c.setFlag b else c
/-- 192-bit two's complement, and whether it wraps (R454). -/
def wrap192 (n : Int) : Int := signedBits 192 (n % (2 ^ 192 : Nat)).toNat
def Ctx.tSet (c : Ctx) (r e : Nat) (n : Int) : Ctx :=
  Ctx.flagIf { c with t := smSet 0 c.t (256 * r + e) (wrap192 n) } 4 (decide (wrap192 n ≠ n))
/-- Every entry of a tile becomes 0. -/
def Ctx.tZero (c : Ctx) (r : Nat) : Ctx := { c with t := c.t.filter (fun x => decide (x.1 / 256 ≠ r)) }
/-- The lanes. -/
def lanes : List Nat := List.range 64
/-- Bit `l` of the guard (R450). -/
def Ctx.guard (c : Ctx) (i : PIns) (l : Nat) : Bool := (c.pGet i.pg).getLsbD l != i.pn
/-- Writes the guarded lanes of a vector. -/
def Ctx.vWrite (c : Ctx) (i : PIns) (f : Nat → Word) : Ctx :=
  lanes.foldl (fun d l => if c.guard i l then d.vSet i.rd l (f l) else d) c
/-- Writes the guarded bits of a predicate. -/
def Ctx.pWrite (c : Ctx) (i : PIns) (f : Nat → Bool) : Ctx :=
  let old := c.pGet i.rd
  c.pSet i.rd (BitVec.ofNat 64 (bitmap (lanes.filter (fun l => if c.guard i l then f l else old.getLsbD l))))
/-- Operand b of a scalar opcode. -/
def Ctx.bS (c : Ctx) (i : PIns) : DWord := if i.rb = 63 then BitVec.ofInt 64 i.simm else c.sGet i.rb
/-- Lane `l` of operand b of a vector opcode. -/
def Ctx.bV (c : Ctx) (i : PIns) (l : Nat) : Word :=
  if i.rb = 63 then w32 i.imm else if 32 ≤ i.rb then w32 (c.sGet (i.rb - 32)).toNat else c.vGet i.rb l
/-- `n` bytes of local memory at a + IMM, when they lie inside it and are aligned. -/
def Ctx.lmAddr (c : Ctx) (i : PIns) (n align : Nat) : Option Nat :=
  let a := ((c.sGet i.ra) + BitVec.ofInt 64 i.simm).toNat
  if a % align = 0 ∧ a + n ≤ c.lmSize then some a else none
def Ctx.lmByte (c : Ctx) (a : Nat) : Byte := smGet 0 c.lm a
def Ctx.lmRead (c : Ctx) (a n : Nat) : Nat := leVal ((List.range n).map (fun k => c.lmByte (a + k)))
def Ctx.lmWrite (c : Ctx) (a : Nat) (bs : List Byte) : Ctx :=
  { c with lm := ((List.range bs.length).zip bs).foldl (fun m b => smSet 0 m (a + b.1) b.2) c.lm }

/-! ## Results of an instruction -/

/-- What an instruction does: the context goes on at its `pc`, the handler ends, or the run ends with a cause of Table 16-5. -/
inductive PRes where
  | go (c : Ctx)
  | handlerEnd (c : Ctx)
  | stop (cause : Nat)

/-- The verdict of a run whose CLOSE handler has executed END (R466). -/
def runFinal (s : State) (pid k : Nat) (o : AOp) (v : Nat) : State :=
  if o.tapFault then opEnd s pid k o (runVerdict s pid o 6 0)
  else if 1 ≤ v ∧ v ≤ 3 then opEnd s pid k o (runVerdict s pid o v 0)
  else if o.allBlocks.all (fun b => decide (o.block b.1 b.2 = 1)) then opEnd s pid k o (runVerdict s pid o v 0)
  else opEnd s pid k o (runVerdict s pid o 4 (match o.gaps with | g :: _ => g.2.2 | [] => 3))
/-- The end of a handler. A CLOSE that ends without a VERDICT ends the run with NO_VERDICT. -/
def handlerDone (s : State) (pid k : Nat) (o : AOp) (c : Ctx) : State :=
  let c1 := { c with handler := 0, cur := none, initDone := true,
                     presented := if c.handler = 2 then c.presented + 1 else c.presented }
  if c.handler = 3 then
    match c.verdict with
    | some v => runFinal s pid k { o with ctx := some c1 } v
    | none => opAbort s pid k { o with ctx := some c1 } 6
  else setOp s pid k { o with ctx := some c1 }
/-- Applies a result. -/
def progApply (s : State) (pid k : Nat) (o : AOp) (c : Ctx) : PRes → State
  | .go d => setOp s pid k { o with ctx := some d }
  | .handlerEnd d => handlerDone s pid k o d
  | .stop cause => opAbort s pid k { o with ctx := some c } cause

/-- HANDLER_FUEL of the object. -/
def handlerFuel (p : Prog) : Nat := le p.obj 0x14 4
/-- How an instruction uses its guard and the free values: a vector instruction executes whatever lane 0 of its guard; `draw` asks
the DRBG for its values; `nfree` values are its own. -/
structure PMode where
  vec : Bool
  draw : Bool
  nfree : Nat
def scalarMode : PMode := { vec := false, draw := false, nfree := 0 }
def vectorMode : PMode := { vec := true, draw := false, nfree := 0 }
def floatMode : PMode := { vec := true, draw := false, nfree := 64 }
def drawMode : PMode := { vec := true, draw := true, nfree := 64 }

/-- The next instruction of the run in a place, when its opcode is `op`: the meter (R458), the guard (R450), then its effect from
the operation, the context with its `pc` on the next instruction, the instruction and its first free value. -/
def progStep (s : State) (pid k op : Nat) (m : PMode) (f : AOp → Ctx → PIns → Nat → PRes) : State :=
  match opAt s pid k with
  | none => s
  | some o => match o.ctx, progOf s pid o.handle with
    | some c, some p =>
      let i := objIns p.obj c.pc
      let cost := match opRow op with | some r => r.cost | none => 0
      if c.handler = 0 || decide (objWords p.obj ≤ c.pc) || i.op ≠ op then s
      else if c.fuel < c.used + cost then opAbort s pid k o 1
      else if c.handler ≠ 3 && decide (handlerFuel p < c.hUsed + cost) then opAbort s pid k o 2
      else
        let c1 := { c with used := c.used + cost, hUsed := c.hUsed + cost, pc := c.pc + 1 }
        if !m.vec && !c.guard i 0 then setOp s pid k { o with ctx := some c1 }
        else if m.draw then
          match drbgGrant s false with
          | none => opAbort s pid k { o with ctx := some c1 } 7
          | some s1 => progApply (drew s1 m.nfree) pid k o c1 (f o c1 i s1.free)
        else progApply (drew s m.nfree) pid k o c1 (f o c1 i s.free)
    | _, _ => s
/-- The meaning of an instruction that only changes the context. -/
def progRow (pid : Byte) (place : BitVec 2) (op : Nat) (m : PMode) (f : AOp → Ctx → PIns → Nat → PRes) (s : State) :
    Host.Outcome State Fault Refusal :=
  .next (if serving s then progStep s pid.toNat place.toNat op m f else s)
/-- An effect on the context alone. -/
def onCtx (f : Ctx → PIns → Ctx) : AOp → Ctx → PIns → Nat → PRes := fun _ c i _ => .go (f c i)
/-- A branch to the address IMM instructions from the branching one, whose successor is at `c.pc`. -/
def branchTo (c : Ctx) (i : PIns) : Ctx := { c with pc := ((c.pc : Int) - 1 + i.simm).toNat }

/-! ## Handlers (R446, R459) -/

/-- Starts a handler at an entry address. -/
def handlerStart (o : AOp) (c : Ctx) (h entry : Nat) : AOp := { o with ctx := some { c with handler := h, pc := entry, hUsed := 0 } }
/-- The invocation that is due: INIT, then BLOCK in the order of counting, then CLOSE after the counting window. A handler that
the object does not name is skipped. -/
def handlerDue (o : AOp) (c : Ctx) (p : Prog) : Option AOp :=
  let e := objEntry p.obj
  if !c.initDone && e 0 ≠ 0xFFFF then some (handlerStart o c 1 (e 0))
  else
    let c1 := { c with initDone := true }
    match (if e 1 = 0xFFFF then [] else o.queue) with
    | f :: rest => some (handlerStart { o with queue := rest } { c1 with cur := some f } 2 (e 1))
    | [] => if o.stage = 2 then some (handlerStart { o with queue := [] } c1 3 (e 2)) else none
/-- HANDLER_INVOKE. -/
def handlerInvoke (s : State) (pid k : Nat) : State :=
  match opAt s pid k with
  | none => s
  | some o => match o.ctx, progOf s pid o.handle with
    | some c, some p =>
      if c.handler ≠ 0 || !o.sampled then s
      else match handlerDue o c p with
        | some o1 => setOp s pid k o1
        | none => s
    | _, _ => s
def execHandlerInvoke (pid : Byte) (place : BitVec 2) (s : State) : Host.Outcome State Fault Refusal :=
  .next (if serving s then handlerInvoke s pid.toNat place.toNat else s)
/-- SLICE_YIELD: the handler gives up its array at the next instruction boundary, which the program does not see (R448, R459). -/
def execSliceYield (_pid : Byte) (_place : BitVec 2) (s : State) : Host.Outcome State Fault Refusal := .next s

/-! ## Control and information -/

def execNop (pid : Byte) (place : BitVec 2) (s : State) : Host.Outcome State Fault Refusal :=
  progRow pid place 0x00 scalarMode (onCtx (fun c _ => c)) s
def execEndH (pid : Byte) (place : BitVec 2) (s : State) : Host.Outcome State Fault Refusal :=
  progRow pid place 0x01 scalarMode (fun _ c _ _ => .handlerEnd c) s
def execBr (pid : Byte) (place : BitVec 2) (s : State) : Host.Outcome State Fault Refusal :=
  progRow pid place 0x02 scalarMode (onCtx branchTo) s
def execCall (pid : Byte) (place : BitVec 2) (s : State) : Host.Outcome State Fault Refusal :=
  progRow pid place 0x03 scalarMode (fun _ c i _ =>
    if 8 ≤ c.stack.length then .stop 4 else .go (branchTo { c with stack := c.pc :: c.stack } i)) s
def execRet (pid : Byte) (place : BitVec 2) (s : State) : Host.Outcome State Fault Refusal :=
  progRow pid place 0x04 scalarMode (fun _ c _ _ => match c.stack with
    | [] => .stop 4
    | a :: rest => .go { c with pc := a, stack := rest }) s
/-- LOOP: S = S - 1; the branch is taken if S is then not 0. A write to S0 is discarded, so that S0 reads 0. -/
def execLoop (pid : Byte) (place : BitVec 2) (s : State) : Host.Outcome State Fault Refusal :=
  progRow pid place 0x05 scalarMode (onCtx (fun c i =>
    let c1 := c.sSet i.ra (c.sGet i.ra - 1)
    if c1.sGet i.ra = 0 then c1 else branchTo c1 i)) s
/-- VERDICT, in CLOSE, once, with code 0, 1, 2, 3 or 5 (R457). -/
def execVerdict (pid : Byte) (place : BitVec 2) (s : State) : Host.Outcome State Fault Refusal :=
  progRow pid place 0x06 scalarMode (fun _ c i _ =>
    if c.handler ≠ 3 || c.verdict.isSome || !([0, 1, 2, 3, 5].contains i.imm) then .stop 5
    else .go { c with verdict := some i.imm }) s
/-- The end cause of EMIT outside CLOSE, and of BINFO and BLD outside BLOCK: R457 gives these ends no code of their own, so that the
cause is a free value among those that Table 16-5 defines (R26, log entry 45). -/
def looseCause (base : Nat) : Nat := (Config.freeBits base).toNat % 9
/-- One free value, for the end cause. -/
def looseMode (vec : Bool) : PMode := { vec := vec, draw := false, nfree := 1 }
def execEmit (pid : Byte) (place : BitVec 2) (s : State) : Host.Outcome State Fault Refusal :=
  progRow pid place 0x07 (looseMode false) (fun _ c i base =>
    if c.handler ≠ 3 then .stop (looseCause base)
    else .go { c with words := smSet none c.words i.imm (some (c.sGet i.rd)) }) s
/-- BINFO (Table 16-4). -/
def binfo (o : AOp) (c : Ctx) (sel : Nat) : DWord :=
  match c.cur with
  | none => 0
  | some f => match sel with
    | 0 => BitVec.ofNat 64 f.tensor
    | 1 => BitVec.ofInt 64 ((f.block * 128 : Nat) - ((winTensor o.desc f.tensor).base : Int))
    | 2 => BitVec.ofNat 64 f.half
    | 3 => BitVec.ofNat 64 o.opno
    | 4 => BitVec.ofNat 64 c.presented
    | _ => 0
def execBinfo (pid : Byte) (place : BitVec 2) (s : State) : Host.Outcome State Fault Refusal :=
  progRow pid place 0x08 (looseMode false) (fun o c i base =>
    if c.handler ≠ 2 then .stop (looseCause base) else .go (c.sSet i.rd (binfo o c i.imm))) s
def execSflag (pid : Byte) (place : BitVec 2) (s : State) : Host.Outcome State Fault Refusal :=
  progRow pid place 0x09 scalarMode (onCtx (fun c i => c.sSet i.rd (BitVec.ofNat 64 c.flags))) s
def execFclr (pid : Byte) (place : BitVec 2) (s : State) : Host.Outcome State Fault Refusal :=
  progRow pid place 0x0A scalarMode (onCtx (fun c _ => { c with flags := 0 })) s

end Sys2Proof.Machine
end

