-- ==== Sys2Proof/Machine/ProgScalar.lean ====
section
/-! DEFINITION. The scalar and predicate instructions of assay programs (Table 16-3). -/
namespace Sys2Proof.Machine

/-- A scalar result of a and b. -/
def scalarOp (f : DWord → DWord → DWord) : AOp → Ctx → PIns → Nat → PRes :=
  onCtx (fun c i => c.sSet i.rd (f (c.sGet i.ra) (c.bS i)))
/-- Every bit of a predicate. -/
def scalarCmp (f : DWord → DWord → Bool) : AOp → Ctx → PIns → Nat → PRes :=
  onCtx (fun c i => c.pSet i.rd (if f (c.sGet i.ra) (c.bS i) then BitVec.allOnes 64 else 0))
/-- Shift counts are b mod 64. -/
def shCount (b : DWord) : Nat := b.toNat % 64

def execSadd (pid : Byte) (place : BitVec 2) (s : State) : Host.Outcome State Fault Refusal :=
  progRow pid place 0x10 scalarMode (scalarOp (fun a b => a + b)) s
def execSsub (pid : Byte) (place : BitVec 2) (s : State) : Host.Outcome State Fault Refusal :=
  progRow pid place 0x11 scalarMode (scalarOp (fun a b => a - b)) s
def execSmul (pid : Byte) (place : BitVec 2) (s : State) : Host.Outcome State Fault Refusal :=
  progRow pid place 0x12 scalarMode (scalarOp (fun a b => a * b)) s
def execSand (pid : Byte) (place : BitVec 2) (s : State) : Host.Outcome State Fault Refusal :=
  progRow pid place 0x13 scalarMode (scalarOp (fun a b => a &&& b)) s
def execSor (pid : Byte) (place : BitVec 2) (s : State) : Host.Outcome State Fault Refusal :=
  progRow pid place 0x14 scalarMode (scalarOp (fun a b => a ||| b)) s
def execSxor (pid : Byte) (place : BitVec 2) (s : State) : Host.Outcome State Fault Refusal :=
  progRow pid place 0x15 scalarMode (scalarOp (fun a b => a ^^^ b)) s
def execSshl (pid : Byte) (place : BitVec 2) (s : State) : Host.Outcome State Fault Refusal :=
  progRow pid place 0x16 scalarMode (scalarOp (fun a b => a <<< shCount b)) s
def execSshr (pid : Byte) (place : BitVec 2) (s : State) : Host.Outcome State Fault Refusal :=
  progRow pid place 0x17 scalarMode (scalarOp (fun a b => a >>> shCount b)) s
def execSsra (pid : Byte) (place : BitVec 2) (s : State) : Host.Outcome State Fault Refusal :=
  progRow pid place 0x18 scalarMode (scalarOp (fun a b => a.sshiftRight (shCount b))) s
def execSmin (pid : Byte) (place : BitVec 2) (s : State) : Host.Outcome State Fault Refusal :=
  progRow pid place 0x19 scalarMode (scalarOp (fun a b => if a.slt b then a else b)) s
def execSmax (pid : Byte) (place : BitVec 2) (s : State) : Host.Outcome State Fault Refusal :=
  progRow pid place 0x1A scalarMode (scalarOp (fun a b => if a.slt b then b else a)) s
def execSmov (pid : Byte) (place : BitVec 2) (s : State) : Host.Outcome State Fault Refusal :=
  progRow pid place 0x1B scalarMode (onCtx (fun c i => c.sSet i.rd (c.bS i))) s
def execScmpeq (pid : Byte) (place : BitVec 2) (s : State) : Host.Outcome State Fault Refusal :=
  progRow pid place 0x1C scalarMode (scalarCmp (fun a b => a = b)) s
def execScmplt (pid : Byte) (place : BitVec 2) (s : State) : Host.Outcome State Fault Refusal :=
  progRow pid place 0x1D scalarMode (scalarCmp (fun a b => a.slt b)) s
def execScmpltu (pid : Byte) (place : BitVec 2) (s : State) : Host.Outcome State Fault Refusal :=
  progRow pid place 0x1E scalarMode (scalarCmp (fun a b => a.ult b)) s
/-- SHI replaces the upper half. -/
def execShi (pid : Byte) (place : BitVec 2) (s : State) : Host.Outcome State Fault Refusal :=
  progRow pid place 0x1F scalarMode (onCtx (fun c i =>
    c.sSet i.rd (BitVec.ofNat 64 ((c.sGet i.rd).toNat % 2 ^ 32 + i.imm * 2 ^ 32)))) s
/-- SLD: 8 bytes, aligned to 8. -/
def execSld (pid : Byte) (place : BitVec 2) (s : State) : Host.Outcome State Fault Refusal :=
  progRow pid place 0x20 scalarMode (fun _ c i _ => match c.lmAddr i 8 8 with
    | some a => .go (c.sSet i.rd (BitVec.ofNat 64 (c.lmRead a 8)))
    | none => .stop 3) s
/-- SST. -/
def execSst (pid : Byte) (place : BitVec 2) (s : State) : Host.Outcome State Fault Refusal :=
  progRow pid place 0x21 scalarMode (fun _ c i _ => match c.lmAddr i 8 8 with
    | some a => .go (c.lmWrite a (leBytes 8 (c.sGet i.rd).toNat))
    | none => .stop 3) s
def execPand (pid : Byte) (place : BitVec 2) (s : State) : Host.Outcome State Fault Refusal :=
  progRow pid place 0x48 scalarMode (onCtx (fun c i => c.pSet i.rd (c.pGet i.ra &&& c.pGet i.rb))) s
def execPor (pid : Byte) (place : BitVec 2) (s : State) : Host.Outcome State Fault Refusal :=
  progRow pid place 0x49 scalarMode (onCtx (fun c i => c.pSet i.rd (c.pGet i.ra ||| c.pGet i.rb))) s
def execPnot (pid : Byte) (place : BitVec 2) (s : State) : Host.Outcome State Fault Refusal :=
  progRow pid place 0x4A scalarMode (onCtx (fun c i => c.pSet i.rd (~~~ c.pGet i.ra))) s

end Sys2Proof.Machine
end

