-- ==== Sys2Proof/Machine/ProgTile.lean ====
section
/-! DEFINITION. The tile instructions of assay programs (Table 16-3, R454). -/
namespace Sys2Proof.Machine

/-- Adds to entry `e` of a tile. -/
def Ctx.tAdd (c : Ctx) (r e : Nat) (n : Int) : Ctx := c.tSet r e (c.tGet r e + n)
/-- The entries of a tile. -/
def entries : List Nat := List.range 256

def execTzero (pid : Byte) (place : BitVec 2) (s : State) : Host.Outcome State Fault Refusal :=
  progRow pid place 0x50 scalarMode (onCtx (fun c i => c.tZero i.rd)) s
def execTfloor (pid : Byte) (place : BitVec 2) (s : State) : Host.Outcome State Fault Refusal :=
  progRow pid place 0x51 scalarMode (onCtx (fun c i =>
    let d := c.tZero i.rd
    { d with floor := smSet 0 d.floor i.rd i.simm })) s
/-- TMMA: N(16i + j) += the sum over k of a[4i + k] * b[16k + j]. -/
def tmma (c : Ctx) (i : PIns) : Ctx :=
  entries.foldl (fun d e =>
    d.tAdd i.rd e ((List.range 4).foldl (fun a k =>
      a + (c.vGet i.ra (4 * (e / 16) + k)).toInt * (c.vGet i.rb (16 * k + e % 16)).toInt) 0)) c
def execTmma (pid : Byte) (place : BitVec 2) (s : State) : Host.Outcome State Fault Refusal :=
  progRow pid place 0x52 scalarMode (onCtx tmma) s
/-- One lane of TACC: an integer, or in F32 the quotient by 2^L when it is an integer below 2^150. -/
def taccLane (i : PIns) (c d : Ctx) (l : Nat) : Ctx :=
  let e := (i.imm + l) % 256
  if i.ty = 1 then
    match decodeElem 0x22 (c.vGet i.ra l).toNat with
    | .fin v => if inWin (c.floorOf i.rd) v then d.tAdd i.rd e (winUnits (c.floorOf i.rd) v) else d.setFlag 0
    | _ => d.setFlag 0
  else d.tAdd i.rd e (c.vGet i.ra l).toInt
def execTacc (pid : Byte) (place : BitVec 2) (s : State) : Host.Outcome State Fault Refusal :=
  progRow pid place 0x53 scalarMode (onCtx (fun c i => lanes.foldl (taccLane i c) c)) s
/-- TRED: entry 0 becomes the sum of all entries. -/
def execTred (pid : Byte) (place : BitVec 2) (s : State) : Host.Outcome State Fault Refusal :=
  progRow pid place 0x54 scalarMode (onCtx (fun c i =>
    (c.tZero i.rd).tSet i.rd 0 (entries.foldl (fun a e => a + c.tGet i.rd e) 0))) s
/-- TGET: an arithmetic right shift, saturated to 64 bits. -/
def tget (c : Ctx) (i : PIns) : Ctx :=
  let n := (c.tGet i.ra (i.imm % 256)) / (2 ^ (i.imm / 256 % 256) : Nat)
  if n < -(2 ^ 63 : Nat) then (c.sSet i.rd (BitVec.ofNat 64 (2 ^ 63))).setFlag 1
  else if (2 ^ 63 : Nat) ≤ n then (c.sSet i.rd (BitVec.ofNat 64 (2 ^ 63 - 1))).setFlag 1
  else c.sSet i.rd (BitVec.ofInt 64 n)
def execTget (pid : Byte) (place : BitVec 2) (s : State) : Host.Outcome State Fault Refusal :=
  progRow pid place 0x55 scalarMode (onCtx tget) s
def execTsgn (pid : Byte) (place : BitVec 2) (s : State) : Host.Outcome State Fault Refusal :=
  progRow pid place 0x56 scalarMode (onCtx (fun c i => c.sSet i.rd (BitVec.ofInt 64 (c.tGet i.ra (i.imm % 256)).sign))) s
/-- TMOV takes the entries and the floor. -/
def tmov (c : Ctx) (i : PIns) : Ctx :=
  let d := entries.foldl (fun d e => { d with t := smSet 0 d.t (256 * i.rd + e) (c.tGet i.ra e) }) c
  { d with floor := smSet 0 d.floor i.rd (c.floorOf i.ra) }
def execTmov (pid : Byte) (place : BitVec 2) (s : State) : Host.Outcome State Fault Refusal :=
  progRow pid place 0x57 scalarMode (onCtx tmov) s
/-- TSUB requires equal floors. -/
def execTsub (pid : Byte) (place : BitVec 2) (s : State) : Host.Outcome State Fault Refusal :=
  progRow pid place 0x58 scalarMode (onCtx (fun c i =>
    if c.floorOf i.rd ≠ c.floorOf i.ra then c.setFlag 0
    else entries.foldl (fun d e => d.tSet i.rd e (c.tGet i.rd e - c.tGet i.ra e)) c)) s
/-- TMAC: N((IMM + l) mod 256) += a[l] * b[l]. -/
def execTmac (pid : Byte) (place : BitVec 2) (s : State) : Host.Outcome State Fault Refusal :=
  progRow pid place 0x59 scalarMode (onCtx (fun c i => lanes.foldl (fun d l =>
    d.tAdd i.rd ((i.imm + l) % 256) ((c.vGet i.ra l).toInt * (c.vGet i.rb l).toInt)) c)) s

end Sys2Proof.Machine
end

