-- ==== Sys2Proof/Machine/F32.lean ====
section
/-! DEFINITION. The binary32 operations of assay programs (R452, R453): each gives its result and says whether a NaN was produced and
whether the result is inexact. -/
namespace Sys2Proof.Machine

/-- A lane result: the word, NAN, INEXACT. -/
structure FRes where
  w : Word
  nan : Bool
  inexact : Bool
deriving DecidableEq, Repr
def frNaN (free : BitVec 512) : FRes := { w := f32NaN free, nan := true, inexact := false }
def frInf (neg : Bool) : FRes := { w := f32Inf neg, nan := false, inexact := false }
def frOf (neg : Bool) (d : Dy) : FRes := { w := (f32Round neg d).1, nan := false, inexact := (f32Round neg d).2 }
/-- A sum: a zero is negative only when both addends are negative zeros. -/
def frSum (na nb : Bool) (x y : Dy) : FRes :=
  let d := x.add y
  frOf (if d.m = 0 then na && nb else decide (d.m < 0)) d
def f32Add (a b : Word) (free : BitVec 512) : FRes :=
  match f32Of a, f32Of b with
  | .nan, _ | _, .nan => frNaN free
  | .inf x, .inf y => if x = y then frInf x else frNaN free
  | .inf x, _ => frInf x
  | _, .inf y => frInf y
  | .fin x, .fin y => frSum (f32Neg a) (f32Neg b) x y
def f32Flip (a : Word) : Word := a ^^^ 0x80000000
def f32Mul (a b : Word) (free : BitVec 512) : FRes :=
  let ng := f32Neg a != f32Neg b
  match f32Of a, f32Of b with
  | .nan, _ | _, .nan => frNaN free
  | .inf _, .inf _ => frInf ng
  | .inf _, .fin y => if y.m = 0 then frNaN free else frInf ng
  | .fin x, .inf _ => if x.m = 0 then frNaN free else frInf ng
  | .fin x, .fin y => frOf ng (x.mul y)
/-- a * b + d with one rounding. -/
def f32Fma (a b d : Word) (free : BitVec 512) : FRes :=
  let ng := f32Neg a != f32Neg b
  let inf : FRes := match f32Of d with
    | .nan => frNaN free
    | .inf z => if z = ng then frInf ng else frNaN free
    | .fin _ => frInf ng
  match f32Of a, f32Of b with
  | .nan, _ | _, .nan => frNaN free
  | .inf _, .inf _ => inf
  | .inf _, .fin y => if y.m = 0 then frNaN free else inf
  | .fin x, .inf _ => if x.m = 0 then frNaN free else inf
  | .fin x, .fin y => match f32Of d with
    | .nan => frNaN free
    | .inf z => frInf z
    | .fin z => frSum ng (f32Neg d) (x.mul y) z
/-- a < b for numbers; a negative zero equals a positive one. -/
def f32Lt (a b : Word) : Bool :=
  match f32Of a, f32Of b with
  | .nan, _ | _, .nan => false
  | .inf x, .inf y => x && !y
  | .inf x, .fin _ => x
  | .fin _, .inf y => !y
  | .fin x, .fin y => x.lt y
def f32Eq (a b : Word) : Bool :=
  match f32Of a, f32Of b with
  | .nan, _ | _, .nan => false
  | .inf x, .inf y => x = y
  | .fin x, .fin y => x.le y && y.le x
  | _, _ => false
def f32IsNaN (a : Word) : Bool := f32Of a = .nan
/-- The lesser or greater of two lanes, a negative zero below a positive one. With a NaN lane IEEE 754-2019 has two operations of
these names, and the spec does not say which: the result is a free value (log entry 42). -/
def f32MinMax (mx : Bool) (a b : Word) (free : BitVec 512) : FRes :=
  if f32IsNaN a || f32IsNaN b then
    let w := w32 free.toNat
    { w := w, nan := f32IsNaN w, inexact := false }
  else
    let less := f32Lt a b || (f32Eq a b && f32Neg a && !f32Neg b)
    { w := if less != mx then a else b, nan := false, inexact := false }
/-- The exact product with a power of two, rounded (VSCL). -/
def f32Scale (a : Word) (k : Int) (free : BitVec 512) : FRes :=
  match f32Of a with
  | .nan => frNaN free
  | .inf x => frInf x
  | .fin x => frOf (f32Neg a) (x.shift k)
/-- To I32: toward zero, saturating; the flags are SAT and NAN (R452). -/
def f32ToInt (a : Word) : Word × Bool × Bool × Bool :=
  let sat (neg : Bool) : Word × Bool × Bool × Bool := (if neg then 0x80000000 else 0x7FFFFFFF, true, false, false)
  match f32Of a with
  | .nan => (0, false, true, false)
  | .inf n => sat n
  | .fin d =>
    let mag := if 0 ≤ d.e then d.m.natAbs * 2 ^ d.e.toNat else d.m.natAbs / 2 ^ (-d.e).toNat
    let ex := decide (0 ≤ d.e) || decide (d.m.natAbs % 2 ^ (-d.e).toNat = 0)
    if f32Neg a then (if 2 ^ 31 < mag then sat true else (BitVec.ofInt 32 (-(mag : Int)), false, false, !ex))
    else (if 2 ^ 31 ≤ mag then sat false else (w32 mag, false, false, !ex))

/-! ## Results within a bound (R452) -/

/-- The magnitude words near a rounded one, as far as they are finite or infinite words. -/
def nearWords (w : Nat) : List Nat := ([w - 2, w - 1, w, w + 1, w + 2].filter (fun x => decide (x ≤ 0x7F800000)))
/-- The finite value of a magnitude word. -/
def magOf (w : Nat) : Dy := match f32Of (w32 w) with | .fin d => d | _ => { m := 1, e := 128 }
/-- One unit in the last place at a magnitude word. -/
def ulpOf (w : Nat) : Dy := dyPow (max ((w / 2 ^ 23 : Nat) : Int) 1 - 150)
/-- A free choice among candidates. -/
def pickFree (cs : List Nat) (dflt : Nat) (free : BitVec 512) : Nat := cs.getD (free.toNat % Nat.max 1 cs.length) dflt
/-- A free bit for INEXACT, from the top of a free value. -/
def freeFlag (free : BitVec 512) : Bool := free.getLsbD 511

/-- 2^(2^-i) to 80 fraction bits, for i from 1 on, by repeated square roots. -/
def rootsOf2 : Nat → Nat → List Nat
  | 0, _ => []
  | n + 1, c => let r := Nat.sqrt (c * 2 ^ 80); r :: rootsOf2 n r
/-- 2^f for a fraction f of 40 bits, to 80 fraction bits. -/
def exp2Frac (f : Nat) : Nat :=
  ((List.range 40).zip (rootsOf2 40 (2 ^ 81))).foldl (fun acc x =>
    if f / 2 ^ (39 - x.1) % 2 = 1 then acc * x.2 / 2 ^ 80 else acc) (2 ^ 80)
/-- The candidates within 2 units in the last place of 2^a, for results in the normal range. -/
def exp2Near (ip : Int) (f : Nat) : List Nat :=
  let v : Dy := { m := (exp2Frac f : Nat), e := ip - 80 }
  let w := (f32Round false v).1.toNat
  let bound := (({ m := 8193, e := -12 } : Dy)).mul (ulpOf w)
  (nearWords w).filter (fun x => ((magOf x).sub v).abs.le bound)
/-- VEXP2. Results in the subnormal range have no bound in the spec: a free value there. -/
def f32Exp2 (a : Word) (free : BitVec 512) : FRes :=
  match f32Of a with
  | .nan => frNaN free
  | .inf n => if n then { w := 0, nan := false, inexact := false } else frInf false
  | .fin d =>
    -- the integer part and 40 bits of fraction of a value clamped to a range in which nothing more can change
    let fx : Int := if 12 ≤ d.e then (if d.m < 0 then -1000 * 2 ^ 40 else 1000 * 2 ^ 40)
      else (d.shift 40).m * (if 0 ≤ d.e + 40 then 2 ^ (d.e + 40).toNat else 1) / (if 0 ≤ d.e + 40 then 1 else 2 ^ (-(d.e + 40)).toNat)
    let ip := fx / 2 ^ 40
    let f := (fx % 2 ^ 40).toNat
    if 128 ≤ ip then { w := f32Inf false, nan := false, inexact := freeFlag free }
    else if ip < -149 then { w := 0, nan := false, inexact := freeFlag free }
    else if ip < -126 then { w := w32 (free.toNat % 2 ^ 23), nan := false, inexact := freeFlag free }
    else { w := w32 (pickFree (exp2Near ip f) 0 free), nan := false, inexact := freeFlag free }
/-- VRCP: within 1 unit in the last place of 1/a; a zero gives an infinity and an infinity a zero. -/
def f32Rcp (a : Word) (free : BitVec 512) : FRes :=
  let sg : Nat := if f32Neg a then 2 ^ 31 else 0
  match f32Of a with
  | .nan => frNaN free
  | .inf _ => { w := w32 sg, nan := false, inexact := false }
  | .fin d =>
    if d.m = 0 then frInf (f32Neg a)
    else
      let q : Dy := { m := (2 ^ 128 / d.m.natAbs : Nat), e := -128 - d.e }
      let w := (f32Round false q).1.toNat
      let cs := (nearWords w).filter (fun x => (((magOf x).mul d.abs).sub (dyInt 1)).abs.le ((ulpOf w).mul d.abs))
      { w := w32 (sg + pickFree cs w free), nan := false, inexact := freeFlag free }

end Sys2Proof.Machine
end

