-- ==== Sys2Proof/Machine/ProgVector.lean ====
section
/-! DEFINITION. The vector instructions of assay programs (Table 16-3, R450, R452, R453). -/
namespace Sys2Proof.Machine

/-- Whether TY selects F32. -/
def PIns.f32 (i : PIns) : Bool := i.ty = 1
/-- Writes the guarded lanes with F32 results; NAN and INEXACT follow from those lanes (log entry 46). -/
def Ctx.fWrite (c : Ctx) (i : PIns) (f : Nat → FRes) : Ctx :=
  let on := lanes.filter (fun l => c.guard i l)
  let d := c.vWrite i (fun l => (f l).w)
  (d.flagIf 3 (on.any (fun l => (f l).nan))).flagIf 2 (on.any (fun l => (f l).inexact))
/-- The free value of a lane. -/
def laneFree (base l : Nat) : BitVec 512 := Config.freeBits (base + l)
/-- A lane-wise operation in I32 or F32 of a and b. -/
def lane2 (fi : Word → Word → Word) (ff : Word → Word → BitVec 512 → FRes) : AOp → Ctx → PIns → Nat → PRes :=
  fun _ c i base =>
    if i.f32 then .go (c.fWrite i (fun l => ff (c.vGet i.ra l) (c.bV i l) (laneFree base l)))
    else .go (c.vWrite i (fun l => fi (c.vGet i.ra l) (c.bV i l)))
/-- A lane-wise I32 operation of a and b. -/
def lane2i (fi : Word → Word → Word) : AOp → Ctx → PIns → Nat → PRes :=
  onCtx (fun c i => c.vWrite i (fun l => fi (c.vGet i.ra l) (c.bV i l)))
/-- A comparison of lanes. -/
def laneCmp (fi ff : Word → Word → Bool) : AOp → Ctx → PIns → Nat → PRes :=
  onCtx (fun c i => c.pWrite i (fun l => if i.f32 then ff (c.vGet i.ra l) (c.bV i l) else fi (c.vGet i.ra l) (c.bV i l)))
/-- Shift counts are b mod 32. -/
def vCount32 (b : Word) : Nat := b.toNat % 32

/-! ## Loads and stores -/

/-- VLD: 256 bytes, aligned to 4. -/
def execVld (pid : Byte) (place : BitVec 2) (s : State) : Host.Outcome State Fault Refusal :=
  progRow pid place 0x22 vectorMode (fun _ c i _ => match c.lmAddr i 256 4 with
    | some a => .go (c.vWrite i (fun l => w32 (c.lmRead (a + 4 * l) 4)))
    | none => .stop 3) s
/-- VST stores the guarded lanes (log entry 46). -/
def execVst (pid : Byte) (place : BitVec 2) (s : State) : Host.Outcome State Fault Refusal :=
  progRow pid place 0x23 vectorMode (fun _ c i _ => match c.lmAddr i 256 4 with
    | some a => .go (lanes.foldl (fun d l => if c.guard i l then d.lmWrite (a + 4 * l) (leBytes 4 (c.vGet i.rd l).toNat) else d) c)
    | none => .stop 3) s
/-- VLDB: 64 bytes, each sign-extended. -/
def execVldb (pid : Byte) (place : BitVec 2) (s : State) : Host.Outcome State Fault Refusal :=
  progRow pid place 0x24 vectorMode (fun _ c i _ => match c.lmAddr i 64 1 with
    | some a => .go (c.vWrite i (fun l => BitVec.ofInt 32 (signedBits 8 (c.lmRead (a + l) 1))))
    | none => .stop 3) s
/-- BLD: the words of the block, in BLOCK only. -/
def execBld (pid : Byte) (place : BitVec 2) (s : State) : Host.Outcome State Fault Refusal :=
  progRow pid place 0x25 (looseMode true) (fun _ c i base =>
    if c.handler ≠ 2 then .stop (looseCause base)
    else match c.cur with
    | some f => .go (c.vWrite i (fun l => if l < 32 then w32 (le f.data (4 * l) 4) else 0))
    | none => .go c) s

/-! ## Arithmetic -/

def execVadd (pid : Byte) (place : BitVec 2) (s : State) : Host.Outcome State Fault Refusal :=
  progRow pid place 0x30 floatMode (lane2 (fun a b => a + b) (f32Add)) s
def execVsub (pid : Byte) (place : BitVec 2) (s : State) : Host.Outcome State Fault Refusal :=
  progRow pid place 0x31 floatMode (lane2 (fun a b => a - b) (fun a b => f32Add a (f32Flip b))) s
def execVmul (pid : Byte) (place : BitVec 2) (s : State) : Host.Outcome State Fault Refusal :=
  progRow pid place 0x32 floatMode (lane2 (fun a b => a * b) (f32Mul)) s
/-- VFMA: d = a * b + d. -/
def execVfma (pid : Byte) (place : BitVec 2) (s : State) : Host.Outcome State Fault Refusal :=
  progRow pid place 0x33 floatMode (fun _ c i base =>
    .go (c.fWrite i (fun l => f32Fma (c.vGet i.ra l) (c.bV i l) (c.vGet i.rd l) (laneFree base l)))) s
def execVmin (pid : Byte) (place : BitVec 2) (s : State) : Host.Outcome State Fault Refusal :=
  progRow pid place 0x34 floatMode (lane2 (fun a b => if a.slt b then a else b) (f32MinMax false)) s
def execVmax (pid : Byte) (place : BitVec 2) (s : State) : Host.Outcome State Fault Refusal :=
  progRow pid place 0x35 floatMode (lane2 (fun a b => if a.slt b then b else a) (f32MinMax true)) s
/-- A change of an F32 lane's sign alone; NAN is set for a NaN lane. -/
def signRes (a w : Word) : FRes := { w := w, nan := f32IsNaN a, inexact := false }
def execVabs (pid : Byte) (place : BitVec 2) (s : State) : Host.Outcome State Fault Refusal :=
  progRow pid place 0x36 vectorMode (fun _ c i _ =>
    if i.f32 then .go (c.fWrite i (fun l => signRes (c.vGet i.ra l) (c.vGet i.ra l &&& 0x7FFFFFFF)))
    else .go (c.vWrite i (fun l => if (c.vGet i.ra l).msb then - c.vGet i.ra l else c.vGet i.ra l))) s
def execVneg (pid : Byte) (place : BitVec 2) (s : State) : Host.Outcome State Fault Refusal :=
  progRow pid place 0x37 vectorMode (fun _ c i _ =>
    if i.f32 then .go (c.fWrite i (fun l => signRes (c.vGet i.ra l) (f32Flip (c.vGet i.ra l))))
    else .go (c.vWrite i (fun l => - c.vGet i.ra l))) s
def execVand (pid : Byte) (place : BitVec 2) (s : State) : Host.Outcome State Fault Refusal :=
  progRow pid place 0x38 vectorMode (lane2i (fun a b => a &&& b)) s
def execVor (pid : Byte) (place : BitVec 2) (s : State) : Host.Outcome State Fault Refusal :=
  progRow pid place 0x39 vectorMode (lane2i (fun a b => a ||| b)) s
def execVxor (pid : Byte) (place : BitVec 2) (s : State) : Host.Outcome State Fault Refusal :=
  progRow pid place 0x3A vectorMode (lane2i (fun a b => a ^^^ b)) s
def execVshl (pid : Byte) (place : BitVec 2) (s : State) : Host.Outcome State Fault Refusal :=
  progRow pid place 0x3B vectorMode (lane2i (fun a b => a <<< vCount32 b)) s
def execVsra (pid : Byte) (place : BitVec 2) (s : State) : Host.Outcome State Fault Refusal :=
  progRow pid place 0x3C vectorMode (lane2i (fun a b => a.sshiftRight (vCount32 b))) s
/-- VCVT to the type TY from the other. -/
def vcvt (c : Ctx) (i : PIns) : Ctx :=
  if i.f32 then c.fWrite i (fun l => let n := (c.vGet i.ra l).toInt; frOf (decide (n < 0)) (dyInt n))
  else
    let on := lanes.filter (fun l => c.guard i l)
    let r (l : Nat) : Word × Bool × Bool × Bool := f32ToInt (c.vGet i.ra l)
    let d := c.vWrite i (fun l => (r l).1)
    ((d.flagIf 1 (on.any (fun l => (r l).2.1))).flagIf 3 (on.any (fun l => (r l).2.2.1))).flagIf 2 (on.any (fun l => (r l).2.2.2))
def execVcvt (pid : Byte) (place : BitVec 2) (s : State) : Host.Outcome State Fault Refusal :=
  progRow pid place 0x3D vectorMode (onCtx vcvt) s
def execVmov (pid : Byte) (place : BitVec 2) (s : State) : Host.Outcome State Fault Refusal :=
  progRow pid place 0x3E vectorMode (onCtx (fun c i => c.vWrite i (fun l => c.bV i l))) s
def execVidx (pid : Byte) (place : BitVec 2) (s : State) : Host.Outcome State Fault Refusal :=
  progRow pid place 0x3F vectorMode (onCtx (fun c i => c.vWrite i (fun l => w32 (l + i.imm)))) s
def execVcmpeq (pid : Byte) (place : BitVec 2) (s : State) : Host.Outcome State Fault Refusal :=
  progRow pid place 0x40 vectorMode (laneCmp (fun a b => a = b) f32Eq) s
def execVcmplt (pid : Byte) (place : BitVec 2) (s : State) : Host.Outcome State Fault Refusal :=
  progRow pid place 0x41 vectorMode (laneCmp (fun a b => a.slt b) f32Lt) s
def execVcmple (pid : Byte) (place : BitVec 2) (s : State) : Host.Outcome State Fault Refusal :=
  progRow pid place 0x42 vectorMode (laneCmp (fun a b => a.sle b) (fun a b => f32Lt a b || f32Eq a b)) s
/-- VEXP2. -/
def execVexp2 (pid : Byte) (place : BitVec 2) (s : State) : Host.Outcome State Fault Refusal :=
  progRow pid place 0x43 floatMode (fun _ c i base => .go (c.fWrite i (fun l => f32Exp2 (c.vGet i.ra l) (laneFree base l)))) s
/-- VRCP. -/
def execVrcp (pid : Byte) (place : BitVec 2) (s : State) : Host.Outcome State Fault Refusal :=
  progRow pid place 0x44 floatMode (fun _ c i base => .go (c.fWrite i (fun l => f32Rcp (c.vGet i.ra l) (laneFree base l)))) s

/-! ## Decoding (R453) -/

/-- The raw bits of element `n` of a format among the 32 words, or none when no such element exists. -/
def rawElem (c : Ctx) (ra f n : Nat) : Option Nat :=
  let w := fmtWidth f
  let p := posBits w n
  if p + w ≤ 1024 then some ((c.vGet ra (p / 32)).toNat / 2 ^ (p % 32) % 2 ^ w) else none
/-- Codes that decode to I32: INT4, INT8, INT32 and E8M0 bytes. -/
def decInt (f : Nat) : Bool := [0x01, 0x02, 0x30, 0x40].contains f
/-- One decoded element. BF16 and FP32 specials keep their bits; a NaN of a narrower format has a free payload. -/
def decLane (f n : Nat) (free : BitVec 512) : Word :=
  if f = 0x40 then w32 n
  else if decInt f then BitVec.ofInt 32 (signedBits (fmtWidth f) n)
  else match decodeElem f n with
  | .fin d => (f32Round (decide (d.m < 0)) d).1
  | .inf g => f32Inf g
  | .nan => if f = 0x22 then w32 n else if f = 0x20 then w32 (n * 65536) else f32NaN free
def execDec (pid : Byte) (place : BitVec 2) (s : State) : Host.Outcome State Fault Refusal :=
  progRow pid place 0x45 floatMode (fun _ c i base => .go (c.vWrite i (fun l =>
    match rawElem c i.ra (i.imm % 256) (i.imm / 256 % 65536 + l) with
    | some n => decLane (i.imm % 256) n (laneFree base l)
    | none => 0))) s
/-- VSCL: X of 255 gives NaN; outside a byte's range the power of two is taken as it stands (log entry 46). -/
def execVscl (pid : Byte) (place : BitVec 2) (s : State) : Host.Outcome State Fault Refusal :=
  progRow pid place 0x46 floatMode (fun _ c i base => .go (c.fWrite i (fun l =>
    let x := (c.bV i l).toInt
    if x = 255 then frNaN (laneFree base l)
    else f32Scale (c.vGet i.ra l) (max (-2000) (min 2000 (x - 127))) (laneFree base l)))) s
/-- VRSUM: the exact sum of the guarded I32 lanes. -/
def execVrsum (pid : Byte) (place : BitVec 2) (s : State) : Host.Outcome State Fault Refusal :=
  progRow pid place 0x47 vectorMode (onCtx (fun c i =>
    c.sSet i.rd (BitVec.ofInt 64 ((lanes.filter (fun l => c.guard i l)).foldl (fun a l => a + (c.vGet i.ra l).toInt) 0)))) s

/-! ## Draws (R456, R457) -/

/-- RND: lanes from -8 to -1 and 1 to 7. -/
def execRnd (pid : Byte) (place : BitVec 2) (s : State) : Host.Outcome State Fault Refusal :=
  progRow pid place 0x60 drawMode (fun _ c i base => .go (c.vWrite i (fun l => BitVec.ofInt 32 (weightOf (base + l))))) s
/-- RNDB: 32 random bits per lane. -/
def execRndb (pid : Byte) (place : BitVec 2) (s : State) : Host.Outcome State Fault Refusal :=
  progRow pid place 0x61 drawMode (fun _ c i base => .go (c.vWrite i (fun l => w32 (laneFree base l).toNat))) s

end Sys2Proof.Machine
end

