-- ==== Sys2Proof/Machine/Dispatch.lean ====
section
/-! DEFINITION. The dispatcher: one arm per command, each a direct call of that command's meaning. -/
namespace Sys2Proof.Machine

def exec (i : Instr) (s : State) : Host.Outcome State Fault Refusal :=
  match i with
  | .kxPorNAssert => Sys2Proof.Machine.execKxPorNAssert s
  | .kxRstNAssert => Sys2Proof.Machine.execKxRstNAssert s
  | .resetExit => Sys2Proof.Machine.execResetExit s
  | .senseBiasReady report arrays coresBad sfdp => Sys2Proof.Machine.execSenseBiasReady report arrays coresBad sfdp s
  | .senseBiasTimeout => Sys2Proof.Machine.execSenseBiasTimeout s
  | .bootWatchdog => Sys2Proof.Machine.execBootWatchdog s
  | .pushWaitTimeout => Sys2Proof.Machine.execPushWaitTimeout s
  | .stagedTimeout => Sys2Proof.Machine.execStagedTimeout s
  | .siteReady site => Sys2Proof.Machine.execSiteReady site s
  | .siteReadyTimeout site => Sys2Proof.Machine.execSiteReadyTimeout site s
  | .siteDrainTimeout site => Sys2Proof.Machine.execSiteDrainTimeout site s
  | .kxWake => Sys2Proof.Machine.execKxWake s
  | .pwrAck level => Sys2Proof.Machine.execPwrAck level s
  | .pwrAckTimeout => Sys2Proof.Machine.execPwrAckTimeout s
  | .pdStatusFall d => Sys2Proof.Machine.execPdStatusFall d s
  | .pdStatusRise d => Sys2Proof.Machine.execPdStatusRise d s
  | .domainPowerTimeout d => Sys2Proof.Machine.execDomainPowerTimeout d s
  | .tamperCondition src => Sys2Proof.Machine.execTamperCondition src s
  | .alarmConfirmed src => Sys2Proof.Machine.execAlarmConfirmed src s
  | .trefDeviation dev => Sys2Proof.Machine.execTrefDeviation dev s
  | .trefBadClear => Sys2Proof.Machine.execTrefBadClear s
  | .tapBeat port data info absorbed => Sys2Proof.Machine.execTapBeat port data info absorbed s
  | .cpbReply frame => Sys2Proof.Machine.execCpbReply frame s
  | .cpbReplyTimeout agent => Sys2Proof.Machine.execCpbReplyTimeout agent s
  | .hipResponse id code data => Sys2Proof.Machine.execHipResponse id code data s
  | .registerWrite src addr beats => Sys2Proof.Machine.execRegisterWrite src addr beats s
  | .readLoLatch src span => Sys2Proof.Machine.execReadLoLatch src span s
  | .writeHiCommit src addr hi => Sys2Proof.Machine.execWriteHiCommit src addr hi s
  | .pgLockSet src addr => Sys2Proof.Machine.execPgLockSet src addr s
  | .coreRelease w data => Sys2Proof.Machine.execCoreRelease w data s
  | .topHaltWrite w code => Sys2Proof.Machine.execTopHaltWrite w code s
  | .topVtClr w => Sys2Proof.Machine.execTopVtClr w s
  | .heartbeatWrite w => Sys2Proof.Machine.execHeartbeatWrite w s
  | .heartbeatTimeout core => Sys2Proof.Machine.execHeartbeatTimeout core s
  | .coreFault core parity => Sys2Proof.Machine.execCoreFault core parity s
  | .sramError mem uncorrectable pid off => Sys2Proof.Machine.execSramError mem uncorrectable pid off s
  | .readRaw w => Sys2Proof.Machine.execReadRaw w s
  | .readDecoded w => Sys2Proof.Machine.execReadDecoded w s
  | .programRow w window => Sys2Proof.Machine.execProgramRow w window s
  | .programGroup w window group => Sys2Proof.Machine.execProgramGroup w window group s
  | .programSecret w window => Sys2Proof.Machine.execProgramSecret w window s
  | .programRaw w window check => Sys2Proof.Machine.execProgramRaw w window check s
  | .fuseOpDone failed => Sys2Proof.Machine.execFuseOpDone failed s
  | .fuseSupplyLost window completed cut => Sys2Proof.Machine.execFuseSupplyLost window completed cut s
  | .install w => Sys2Proof.Machine.execInstall w s
  | .erase w => Sys2Proof.Machine.execErase w s
  | .derive w => Sys2Proof.Machine.execDerive w s
  | .erasePid w => Sys2Proof.Machine.execErasePid w s
  | .eraseStale w => Sys2Proof.Machine.execEraseStale w s
  | .rootCmd w => Sys2Proof.Machine.execRootCmd w s
  | .sboxLockSet w data => Sys2Proof.Machine.execSboxLockSet w data s
  | .sleepDigestArm w word => Sys2Proof.Machine.execSleepDigestArm w word s
  | .wakeDigestCompare w word => Sys2Proof.Machine.execWakeDigestCompare w word s
  | .pkeSlotLenWrite w data => Sys2Proof.Machine.execPkeSlotLenWrite w data s
  | .pkeJob w offset => Sys2Proof.Machine.execPkeJob w offset s
  | .modAdd => Sys2Proof.Machine.execModAdd s
  | .modSub => Sys2Proof.Machine.execModSub s
  | .modMul => Sys2Proof.Machine.execModMul s
  | .modExp => Sys2Proof.Machine.execModExp s
  | .modInv => Sys2Proof.Machine.execModInv s
  | .slotClear => Sys2Proof.Machine.execSlotClear s
  | .pkeLoad => Sys2Proof.Machine.execPkeLoad s
  | .store => Sys2Proof.Machine.execStore s
  | .ecdsaSign => Sys2Proof.Machine.execEcdsaSign s
  | .ecdsaVerify => Sys2Proof.Machine.execEcdsaVerify s
  | .ecdh => Sys2Proof.Machine.execEcdh s
  | .ecCheck => Sys2Proof.Machine.execEcCheck s
  | .mldsaSign => Sys2Proof.Machine.execMldsaSign s
  | .mldsaVerify => Sys2Proof.Machine.execMldsaVerify s
  | .mlkemEncaps => Sys2Proof.Machine.execMlkemEncaps s
  | .mlkemDecaps => Sys2Proof.Machine.execMlkemDecaps s
  | .anvilYield stretch => Sys2Proof.Machine.execAnvilYield stretch s
  | .anvilJobDone => Sys2Proof.Machine.execAnvilJobDone s
  | .measJob w lane offset => Sys2Proof.Machine.execMeasJob w lane offset s
  | .sha384 lane => Sys2Proof.Machine.execSha384 lane s
  | .sha3384 lane => Sys2Proof.Machine.execSha3384 lane s
  | .kmac256 lane => Sys2Proof.Machine.execKmac256 lane s
  | .hashJobDone lane => Sys2Proof.Machine.execHashJobDone lane s
  | .symJob w offset => Sys2Proof.Machine.execSymJob w offset s
  | .gcmEnc => Sys2Proof.Machine.execGcmEnc s
  | .gcmDec => Sys2Proof.Machine.execGcmDec s
  | .gcmDecSlot => Sys2Proof.Machine.execGcmDecSlot s
  | .xtsEnc => Sys2Proof.Machine.execXtsEnc s
  | .xtsDec => Sys2Proof.Machine.execXtsDec s
  | .ctr => Sys2Proof.Machine.execCtr s
  | .kwWrap => Sys2Proof.Machine.execKwWrap s
  | .kwUnwrap => Sys2Proof.Machine.execKwUnwrap s
  | .drbgGen => Sys2Proof.Machine.execDrbgGen s
  | .aesJobDone => Sys2Proof.Machine.execAesJobDone s
  | .entropyTestFail raw => Sys2Proof.Machine.execEntropyTestFail raw s
  | .drbgReseed => Sys2Proof.Machine.execDrbgReseed s
  | .cvuStart w u => Sys2Proof.Machine.execCvuStart w u s
  | .cvuFinish w u => Sys2Proof.Machine.execCvuFinish w u s
  | .cvuMemrun w u => Sys2Proof.Machine.execCvuMemrun w u s
  | .cvuMemrunDone u => Sys2Proof.Machine.execCvuMemrunDone u s
  | .cvuData w u data => Sys2Proof.Machine.execCvuData w u data s
  | .cvuData8 w u data => Sys2Proof.Machine.execCvuData8 w u data s
  | .hmkTake w pid => Sys2Proof.Machine.execHmkTake w pid s
  | .hmkSeal w => Sys2Proof.Machine.execHmkSeal w s
  | .hmkRelease w => Sys2Proof.Machine.execHmkRelease w s
  | .hmkDrop w => Sys2Proof.Machine.execHmkDrop w s
  | .hmkAssembleLimit place => Sys2Proof.Machine.execHmkAssembleLimit place s
  | .setState w pid newState => Sys2Proof.Machine.execSetState w pid newState s
  | .genStep w pid => Sys2Proof.Machine.execGenStep w pid s
  | .genReady pid => Sys2Proof.Machine.execGenReady pid s
  | .epochPrepare w => Sys2Proof.Machine.execEpochPrepare w s
  | .epochCommit w => Sys2Proof.Machine.execEpochCommit w s
  | .epochRun w => Sys2Proof.Machine.execEpochRun w s
  | .epochRollback w => Sys2Proof.Machine.execEpochRollback w s
  | .reprepare w => Sys2Proof.Machine.execReprepare w s
  | .scrubRetry region => Sys2Proof.Machine.execScrubRetry region s
  | .commitTimeout => Sys2Proof.Machine.execCommitTimeout s
  | .tallySignal src slot => Sys2Proof.Machine.execTallySignal src slot s
  | .tallyAdd src slot addend => Sys2Proof.Machine.execTallyAdd src slot addend s
  | .tallySet src slot value => Sys2Proof.Machine.execTallySet src slot value s
  | .postRetry pid vec => Sys2Proof.Machine.execPostRetry pid vec s
  | .tlWait src => Sys2Proof.Machine.execTlWait src s
  | .tlCancel src => Sys2Proof.Machine.execTlCancel src s
  | .tlRead src => Sys2Proof.Machine.execTlRead src s
  | .tlSetAcl src => Sys2Proof.Machine.execTlSetAcl src s
  | .tlClear w => Sys2Proof.Machine.execTlClear w s
  | .mbTxWrite src ch beats => Sys2Proof.Machine.execMbTxWrite src ch beats s
  | .mbRxRead src ch beats => Sys2Proof.Machine.execMbRxRead src ch beats s
  | .mbNoteRead src ch => Sys2Proof.Machine.execMbNoteRead src ch s
  | .channelReset src n => Sys2Proof.Machine.execChannelReset src n s
  | .mbfFlush w => Sys2Proof.Machine.execMbfFlush w s
  | .mbfResetDone w => Sys2Proof.Machine.execMbfResetDone w s
  | .mbfTake w => Sys2Proof.Machine.execMbfTake w s
  | .mbfRxAppend w words => Sys2Proof.Machine.execMbfRxAppend w words s
  | .mbfVersionWrite w v => Sys2Proof.Machine.execMbfVersionWrite w v s
  | .xlSend src => Sys2Proof.Machine.execXlSend src s
  | .fqRegister src => Sys2Proof.Machine.execFqRegister src s
  | .fqRelease src => Sys2Proof.Machine.execFqRelease src s
  | .xlFaultIn src bytes => Sys2Proof.Machine.execXlFaultIn src bytes s
  | .batchTimer pid => Sys2Proof.Machine.execBatchTimer pid s
  | .invalTimeout pid => Sys2Proof.Machine.execInvalTimeout pid s
  | .invalFenceDrainEnd pid => Sys2Proof.Machine.execInvalFenceDrainEnd pid s
  | .irqApply src => Sys2Proof.Machine.execIrqApply src s
  | .irqDiscard src => Sys2Proof.Machine.execIrqDiscard src s
  | .qnStart w pid outcome => Sys2Proof.Machine.execQnStart w pid outcome s
  | .quenchResume => Sys2Proof.Machine.execQuenchResume s
  | .quenchDrainWaitEnd pid => Sys2Proof.Machine.execQuenchDrainWaitEnd pid s
  | .qosOperRateWrite w rate => Sys2Proof.Machine.execQosOperRateWrite w rate s
  | .tokenRefill pid => Sys2Proof.Machine.execTokenRefill pid s
  | .sealedRelease pid k => Sys2Proof.Machine.execSealedRelease pid k s
  | .sealedHcpResponse pid k => Sys2Proof.Machine.execSealedHcpResponse pid k s
  | .asySubmit src => Sys2Proof.Machine.execAsySubmit src s
  | .asyClose src => Sys2Proof.Machine.execAsyClose src s
  | .asyCancel src => Sys2Proof.Machine.execAsyCancel src s
  | .logRegister src => Sys2Proof.Machine.execLogRegister src s
  | .logRelease src => Sys2Proof.Machine.execLogRelease src s
  | .asyRun src => Sys2Proof.Machine.execAsyRun src s
  | .countingWindowEnd pid place => Sys2Proof.Machine.execCountingWindowEnd pid place s
  | .assayVerdict pid judged => Sys2Proof.Machine.execAssayVerdict pid judged s
  | .slotFrameBoundary => Sys2Proof.Machine.execSlotFrameBoundary s
  | .asfQuotaWrite w value => Sys2Proof.Machine.execAsfQuotaWrite w value s
  | .prgOpen src => Sys2Proof.Machine.execPrgOpen src s
  | .prgLoad src => Sys2Proof.Machine.execPrgLoad src s
  | .prgUnload src => Sys2Proof.Machine.execPrgUnload src s
  | .prgInfo src => Sys2Proof.Machine.execPrgInfo src s
  | .prgWindowWrite src bytes => Sys2Proof.Machine.execPrgWindowWrite src bytes s
  | .handlerInvoke pid place => Sys2Proof.Machine.execHandlerInvoke pid place s
  | .sliceYield pid place => Sys2Proof.Machine.execSliceYield pid place s
  | .nop pid place => Sys2Proof.Machine.execNop pid place s
  | .endH pid place => Sys2Proof.Machine.execEndH pid place s
  | .br pid place => Sys2Proof.Machine.execBr pid place s
  | .call pid place => Sys2Proof.Machine.execCall pid place s
  | .ret pid place => Sys2Proof.Machine.execRet pid place s
  | .loop pid place => Sys2Proof.Machine.execLoop pid place s
  | .verdict pid place => Sys2Proof.Machine.execVerdict pid place s
  | .emit pid place => Sys2Proof.Machine.execEmit pid place s
  | .binfo pid place => Sys2Proof.Machine.execBinfo pid place s
  | .sflag pid place => Sys2Proof.Machine.execSflag pid place s
  | .fclr pid place => Sys2Proof.Machine.execFclr pid place s
  | .sadd pid place => Sys2Proof.Machine.execSadd pid place s
  | .ssub pid place => Sys2Proof.Machine.execSsub pid place s
  | .smul pid place => Sys2Proof.Machine.execSmul pid place s
  | .sand pid place => Sys2Proof.Machine.execSand pid place s
  | .sor pid place => Sys2Proof.Machine.execSor pid place s
  | .sxor pid place => Sys2Proof.Machine.execSxor pid place s
  | .sshl pid place => Sys2Proof.Machine.execSshl pid place s
  | .sshr pid place => Sys2Proof.Machine.execSshr pid place s
  | .ssra pid place => Sys2Proof.Machine.execSsra pid place s
  | .smin pid place => Sys2Proof.Machine.execSmin pid place s
  | .smax pid place => Sys2Proof.Machine.execSmax pid place s
  | .smov pid place => Sys2Proof.Machine.execSmov pid place s
  | .scmpeq pid place => Sys2Proof.Machine.execScmpeq pid place s
  | .scmplt pid place => Sys2Proof.Machine.execScmplt pid place s
  | .scmpltu pid place => Sys2Proof.Machine.execScmpltu pid place s
  | .shi pid place => Sys2Proof.Machine.execShi pid place s
  | .sld pid place => Sys2Proof.Machine.execSld pid place s
  | .sst pid place => Sys2Proof.Machine.execSst pid place s
  | .vld pid place => Sys2Proof.Machine.execVld pid place s
  | .vst pid place => Sys2Proof.Machine.execVst pid place s
  | .vldb pid place => Sys2Proof.Machine.execVldb pid place s
  | .bld pid place => Sys2Proof.Machine.execBld pid place s
  | .vadd pid place => Sys2Proof.Machine.execVadd pid place s
  | .vsub pid place => Sys2Proof.Machine.execVsub pid place s
  | .vmul pid place => Sys2Proof.Machine.execVmul pid place s
  | .vfma pid place => Sys2Proof.Machine.execVfma pid place s
  | .vmin pid place => Sys2Proof.Machine.execVmin pid place s
  | .vmax pid place => Sys2Proof.Machine.execVmax pid place s
  | .vabs pid place => Sys2Proof.Machine.execVabs pid place s
  | .vneg pid place => Sys2Proof.Machine.execVneg pid place s
  | .vand pid place => Sys2Proof.Machine.execVand pid place s
  | .vor pid place => Sys2Proof.Machine.execVor pid place s
  | .vxor pid place => Sys2Proof.Machine.execVxor pid place s
  | .vshl pid place => Sys2Proof.Machine.execVshl pid place s
  | .vsra pid place => Sys2Proof.Machine.execVsra pid place s
  | .vcvt pid place => Sys2Proof.Machine.execVcvt pid place s
  | .vmov pid place => Sys2Proof.Machine.execVmov pid place s
  | .vidx pid place => Sys2Proof.Machine.execVidx pid place s
  | .vcmpeq pid place => Sys2Proof.Machine.execVcmpeq pid place s
  | .vcmplt pid place => Sys2Proof.Machine.execVcmplt pid place s
  | .vcmple pid place => Sys2Proof.Machine.execVcmple pid place s
  | .vexp2 pid place => Sys2Proof.Machine.execVexp2 pid place s
  | .vrcp pid place => Sys2Proof.Machine.execVrcp pid place s
  | .dec pid place => Sys2Proof.Machine.execDec pid place s
  | .vscl pid place => Sys2Proof.Machine.execVscl pid place s
  | .vrsum pid place => Sys2Proof.Machine.execVrsum pid place s
  | .pand pid place => Sys2Proof.Machine.execPand pid place s
  | .por pid place => Sys2Proof.Machine.execPor pid place s
  | .pnot pid place => Sys2Proof.Machine.execPnot pid place s
  | .tzero pid place => Sys2Proof.Machine.execTzero pid place s
  | .tfloor pid place => Sys2Proof.Machine.execTfloor pid place s
  | .tmma pid place => Sys2Proof.Machine.execTmma pid place s
  | .tacc pid place => Sys2Proof.Machine.execTacc pid place s
  | .tred pid place => Sys2Proof.Machine.execTred pid place s
  | .tget pid place => Sys2Proof.Machine.execTget pid place s
  | .tsgn pid place => Sys2Proof.Machine.execTsgn pid place s
  | .tmov pid place => Sys2Proof.Machine.execTmov pid place s
  | .tsub pid place => Sys2Proof.Machine.execTsub pid place s
  | .tmac pid place => Sys2Proof.Machine.execTmac pid place s
  | .rnd pid place => Sys2Proof.Machine.execRnd pid place s
  | .rndb pid place => Sys2Proof.Machine.execRndb pid place s
  | .bookOpen src => Sys2Proof.Machine.execBookOpen src s
  | .bookSubmit src => Sys2Proof.Machine.execBookSubmit src s
  | .bookAbort src => Sys2Proof.Machine.execBookAbort src s
  | .bookRestore src => Sys2Proof.Machine.execBookRestore src s
  | .bookReadback src => Sys2Proof.Machine.execBookReadback src s
  | .bookWindowWrite src bytes => Sys2Proof.Machine.execBookWindowWrite src bytes s
  | .consentTimeout => Sys2Proof.Machine.execConsentTimeout s
  | .lgRelease src => Sys2Proof.Machine.execLgRelease src s
  | .lgfWrite w => Sys2Proof.Machine.execLgfWrite w s
  | .pwrDomain w d st => Sys2Proof.Machine.execPwrDomain w d st s
  | .pwrSleep w grace => Sys2Proof.Machine.execPwrSleep w grace s
  | .sleepGraceEnd => Sys2Proof.Machine.execSleepGraceEnd s
  | .cpbCmdFrame w op => Sys2Proof.Machine.execCpbCmdFrame w op s
  | .cpbAbandon w => Sys2Proof.Machine.execCpbAbandon w s
  | .sessionIdleTimeout ch => Sys2Proof.Machine.execSessionIdleTimeout ch s
  | .version ch tag => Sys2Proof.Machine.execVersion ch tag s
  | .echo ch tag => Sys2Proof.Machine.execEcho ch tag s
  | .podToken ch tag => Sys2Proof.Machine.execPodToken ch tag s
  | .operTally ch tag => Sys2Proof.Machine.execOperTally ch tag s
  | .quarantineLift ch tag => Sys2Proof.Machine.execQuarantineLift ch tag s
  | .hallmarkGet ch tag car => Sys2Proof.Machine.execHallmarkGet ch tag car s
  | .weightMeasure ch tag car => Sys2Proof.Machine.execWeightMeasure ch tag car s
  | .weightStatus ch tag car => Sys2Proof.Machine.execWeightStatus ch tag car s
  | .kemUpgrade ch tag car => Sys2Proof.Machine.execKemUpgrade ch tag car s
  | .keyDeliver ch tag car => Sys2Proof.Machine.execKeyDeliver ch tag car s
  | .keyRevoke ch tag car => Sys2Proof.Machine.execKeyRevoke ch tag car s
  | .identEndorse ch tag => Sys2Proof.Machine.execIdentEndorse ch tag s
  | .consent ch tag => Sys2Proof.Machine.execConsent ch tag s
  | .partStart ch tag => Sys2Proof.Machine.execPartStart ch tag s
  | .quench ch tag => Sys2Proof.Machine.execQuench ch tag s
  | .irqBind ch tag => Sys2Proof.Machine.execIrqBind ch tag s
  | .domainReset ch tag => Sys2Proof.Machine.execDomainReset ch tag s
  | .asyConfig ch tag => Sys2Proof.Machine.execAsyConfig ch tag s
  | .sleepRequest ch tag => Sys2Proof.Machine.execSleepRequest ch tag s
  | .domainPower ch tag => Sys2Proof.Machine.execDomainPower ch tag s
  | .debugUnlock token => Sys2Proof.Machine.execDebugUnlock token s
  | .pushOffer origin length => Sys2Proof.Machine.execPushOffer origin length s
  | .pushData words => Sys2Proof.Machine.execPushData words s
  | .pushEnd => Sys2Proof.Machine.execPushEnd s
  | .staged origin length => Sys2Proof.Machine.execStaged origin length s
  | .getVersion ch tag car => Sys2Proof.Machine.execGetVersion ch tag car s
  | .getCapabilities ch tag car => Sys2Proof.Machine.execGetCapabilities ch tag car s
  | .negotiateAlgorithms ch tag car offered => Sys2Proof.Machine.execNegotiateAlgorithms ch tag car offered s
  | .getDigests ch tag car => Sys2Proof.Machine.execGetDigests ch tag car s
  | .getCertificate ch tag car slot => Sys2Proof.Machine.execGetCertificate ch tag car slot s
  | .challenge ch tag car slot hash => Sys2Proof.Machine.execChallenge ch tag car slot hash s
  | .getMeasurements ch tag car param hash => Sys2Proof.Machine.execGetMeasurements ch tag car param hash s
  | .keyExchange ch tag car param point th => Sys2Proof.Machine.execKeyExchange ch tag car param point th s
  | .finish ch tag car th verify => Sys2Proof.Machine.execFinish ch tag car th verify s
  | .heartbeat ch tag car => Sys2Proof.Machine.execHeartbeat ch tag car s
  | .keyUpdate ch tag car => Sys2Proof.Machine.execKeyUpdate ch tag car s
  | .endSession ch tag car => Sys2Proof.Machine.execEndSession ch tag car s
  | .chunkSend ch tag car last bytes => Sys2Proof.Machine.execChunkSend ch tag car last bytes s
  | .chunkGet ch tag car => Sys2Proof.Machine.execChunkGet ch tag car s
  | .getTdispVersion ch tag car => Sys2Proof.Machine.execGetTdispVersion ch tag car s
  | .getTdispCapabilities ch tag car => Sys2Proof.Machine.execGetTdispCapabilities ch tag car s
  | .lockInterfaceRequest ch tag car vf => Sys2Proof.Machine.execLockInterfaceRequest ch tag car vf s
  | .getDeviceInterfaceReport ch tag car vf => Sys2Proof.Machine.execGetDeviceInterfaceReport ch tag car vf s
  | .getDeviceInterfaceState ch tag car vf => Sys2Proof.Machine.execGetDeviceInterfaceState ch tag car vf s
  | .startInterfaceRequest ch tag car vf => Sys2Proof.Machine.execStartInterfaceRequest ch tag car vf s
  | .stopInterfaceRequest ch tag car vf => Sys2Proof.Machine.execStopInterfaceRequest ch tag car vf s
  | .query ch tag car => Sys2Proof.Machine.execQuery ch tag car s
  | .kSetGo ch tag car stream keySet => Sys2Proof.Machine.execKSetGo ch tag car stream keySet s
  | .kSetStop ch tag car stream keySet => Sys2Proof.Machine.execKSetStop ch tag car stream keySet s
  | .keyProg ch tag car => Sys2Proof.Machine.execKeyProg ch tag car s
  | .timingBandChange band tj => Sys2Proof.Machine.execTimingBandChange band tj s
  | .tamperConditionEnd src => Sys2Proof.Machine.execTamperConditionEnd src s
  | .entropyRestartDone => Sys2Proof.Machine.execEntropyRestartDone s
  | .sboxCommandDone w => Sys2Proof.Machine.execSboxCommandDone w s
  | .drainAckLimit => Sys2Proof.Machine.execDrainAckLimit s
  | .flashReadDone ok bytes => Sys2Proof.Machine.execFlashReadDone ok bytes s
  | .arrayBistDone array pass => Sys2Proof.Machine.execArrayBistDone array pass s
  | .svnCounterAdvance counter window => Sys2Proof.Machine.execSvnCounterAdvance counter window s

end Sys2Proof.Machine
end

