-- ==== Sys2Proof/Machine/Step.lean ====
section
/-! DEFINITION. One step of the block: the command at the front of the queue, or, with none waiting, one count of time. -/
namespace Sys2Proof.Machine

/-- With no command waiting the block idles, and its time count goes on by one unit of 10 ns (log entry 1). -/
def idle (s : State) : State := { s with time := s.time + 1 }

/-- The command at the front of the queue is taken out and performed. -/
def step (s : State) : Host.Outcome State Fault Refusal :=
  match s.pending with
  | [] => .next (idle s)
  | c :: rest => exec c { s with pending := rest }

/-- The command that a table word spells is put in front of the queue; the table gives no row any bits, so no word spells
one (log entry 2). -/
def State.withFetchWord (s : State) (nbits w : Nat) : State :=
  match Sys2Proof.decodeTableWord nbits w with
  | some c => { s with pending := c :: s.pending }
  | none => s

end Sys2Proof.Machine
end

