-- ==== Sys2Proof/WellFormed.lean ====
section
/-! DEFINITION. Which commands the ports can carry: a command outside these bounds names a subject that does not exist. -/
namespace Sys2Proof

/-- A domain of the hub (Table 2-3). -/
def domainOk (d : BitVec 6) : Bool := decide (d.toNat < 40)
/-- A tamper source (Table 17-1). -/
def sourceOk (n : BitVec 5) : Bool := decide (n.toNat < 31)
/-- Beats of one HCP or fabric access (R24). -/
def beatsOk (n : Nat) : Bool := decide (1 ≤ n ∧ n ≤ 512)
/-- A channel: the private ones are those of the tenant PIDs 2 to 65. -/
def chanOk : Chan → Bool
  | .priv p => decide (2 ≤ p.toNat ∧ p.toNat ≤ 65)
  | .oper _ => true

/-- The outcome of a recheck other than OUTSIDE: WITHIN, or UNDECIDED with a cause of R401 and R402. -/
def recheckOk (r : Recheck) : Bool := decide (r.cause.toNat ∈ [0, 2, 4, 5])

/-- The bounds of the commands whose operands are wider than their subjects. -/
def wellFormed : Instr → Bool
  | .pdStatusFall d => domainOk d
  | .pdStatusRise d => domainOk d
  | .domainPowerTimeout d => domainOk d
  | .tamperCondition n => sourceOk n
  | .alarmConfirmed n => sourceOk n
  | .tamperConditionEnd n => sourceOk n
  | .registerWrite _ _ beats => beatsOk beats.length
  | .mbTxWrite _ ch beats => chanOk ch && beatsOk beats.length
  | .mbRxRead _ ch _ => chanOk ch
  | .mbNoteRead _ ch => chanOk ch
  | .sessionIdleTimeout ch => chanOk ch
  | .assayVerdict _ j => j.faults.all recheckOk
  | _ => true

end Sys2Proof
end

