-- ==== Sys2Proof/Safety.lean ====
section
/-! DEFINITION. The terms in which claims are stated: outcomes, what a run of the block may end in, where an assay program stands, and
the invariants. -/
namespace Sys2Proof.Machine

/-! ## Outcomes -/

/-- The outcome is a next state. -/
def runs (o : Host.Outcome State Fault Refusal) : Prop := ∃ t, o = .next t

/-- A run of `n` steps from `s` meets no fault and no refusal. -/
def safeFor : Nat → State → Prop
  | 0, _ => True
  | n + 1, s => ∃ t, step s = .next t ∧ safeFor n t

/-- KX3 is in RUN or DEGRADED and no sequencer has work in hand. -/
def resting (s : State) : Prop := serving s = true ∧ quiet s = true

/-- The access is performed: over HCP KX3 takes the request (R37) and no step of Table 3-9 fails, on the fabric the initiator can act. -/
def passes (s : State) (src : Src) (l : Loc) (write : Bool) : Prop :=
  match src with
  | .hcp tag _ => hcpTakes s = true ∧ hcpCheck s tag write l = none
  | .fab w => fabOk s w = true
/-- An access to a page that a partition window has at `win` and the firmware aperture elsewhere passes. -/
def pagePasses (s : State) (src : Src) (page off : Nat) : Prop :=
  match src with
  | .hcp tag _ => tenant (tagPid tag) = true ∧ passes s src (.win (tagPid tag) page off) true
  | .fab w => fabOk s w = true
/-- An access to a Tally slot passes and names Tally `t` (R356, R359). -/
def slotPasses (s : State) (src : Src) (slot off aclBit t : Nat) : Prop :=
  match src with
  | .hcp tag _ => tenant (tagPid tag) = true ∧ passes s src (.slot (tagPid tag) (slot % 2048) off) true ∧
      tallyOfSlot s (tagPid tag) (slot % 2048) = some t ∧ (tallyAcl s t).getLsbD aclBit = true
  | .fab w => fabOk s w = true ∧ t = slot
/-- A request of this code waits on the channel, with its class and body (R377). -/
def asked (s : State) (ch : Chan) (tag : BitVec 6) (code cls : Nat) (body : List Word) : Prop :=
  inboxFind s ch.num tag.toNat code = some (cls, body)
/-- The request has been taken. -/
def taken (s : State) (ch : Chan) (tag : BitVec 6) (code : Nat) : State := inboxDrop s ch.num tag.toNat code

/-! ## Jobs (R9, R21, R194, R202, R210) -/

/-- The state in which queued job `e` of the Anvil has started with result `r`, iterations `it` and outputs `o`, and has taken the next
sequence number; `t` is the state once what the job draws has been drawn. -/
def anvilBegan (s t : State) (e : Nat × Nat) (r it : Nat) (o : Outs) : State :=
  { t with anvil := { t.anvil with
      queue := s.anvil.queue.erase e, seq := (s.anvil.seq + 1) % 2 ^ 32,
      run := some { addr := e.2, desc := sramRead s e.2 64, cls := e.1, seq := s.anvil.seq, byYield := s.anvil.susp.isSome, yields := 0,
                    result := r, iters := it, outs := o } } }
/-- The arbiter of the Anvil may start job `e`, whose OP is `op`, whose operands fit the slots, and which has no entropy to wait for. -/
def anvilMay (s : State) (op : Nat) (e : Nat × Nat) : Prop :=
  coreOn s = true ∧ opWaits s op = false ∧ (anvilPool s).find? (fun x => decide (qOp s x.2 = op)) = some e ∧
  dB (sramRead s e.2 64) 3 < s.anvil.words
/-- The same for the AES engine. -/
def aesBegan (s t : State) (e : Nat × Nat) (r : Nat) (o : Outs) : State :=
  { t with aes := { t.aes with
      queue := s.aes.queue.erase e, seq := (s.aes.seq + 1) % 2 ^ 32,
      run := some { addr := e.2, desc := sramRead s e.2 64, seq := s.aes.seq, result := r, outs := o } } }
def aesMay (s : State) (mode : Nat) (e : Nat × Nat) : Prop :=
  coreOn s = true ∧ (aesPool s).find? (fun x => decide (qOp s x.2 = mode)) = some e

/-! ## Main SRAM -/

/-- The canonical form of main SRAM: addresses strictly rising, no entry 0. -/
def Memory.wf (m : List Host.Cell) : Bool := smWf 0 m

/-! ## Assay programs (R446 to R458) -/

/-- The cost of an opcode (Table 16-3). -/
def insCost (op : Nat) : Nat := match opRow op with | some r => r.cost | none => 0
/-- The instruction at which a run stands. -/
def insNow (c : Ctx) (p : Prog) : PIns := objIns p.obj c.pc
/-- A handler of the run `o` in a place stands before an instruction with this opcode, and the meter allows it. -/
def atIns (s : State) (pid : Byte) (k : BitVec 2) (op : Nat) (o : AOp) (c : Ctx) (p : Prog) : Prop :=
  serving s = true ∧ opAt s pid.toNat k.toNat = some o ∧ o.ctx = some c ∧ progOf s pid.toNat o.handle = some p ∧
  c.handler ≠ 0 ∧ c.pc < objWords p.obj ∧ (insNow c p).op = op ∧
  c.used + insCost op ≤ c.fuel ∧ (c.handler = 3 ∨ c.hUsed + insCost op ≤ handlerFuel p)
/-- The context once the instruction has been metered: its `pc` is on the next instruction. -/
def metered (c : Ctx) (op : Nat) : Ctx :=
  { c with used := c.used + insCost op, hUsed := c.hUsed + insCost op, pc := c.pc + 1 }
/-- The state in which the run in a place goes on with context `d`. -/
def goesOn (s : State) (pid : Byte) (k : BitVec 2) (o : AOp) (d : Ctx) : State :=
  setOp s pid.toNat k.toNat { o with ctx := some d }
/-- A flag of the context (Table 16-1). -/
def Ctx.flag (c : Ctx) (b : Nat) : Bool := decide (c.flags / 2 ^ b % 2 = 1)
/-- Lanes of a predicate register. -/
def Ctx.pBit (c : Ctx) (r l : Nat) : Bool := (c.pGet r).getLsbD l

/-- The opcodes that act as a whole when bit 0 of the guard holds (R450). -/
def singleOps : List ((Byte → BitVec 2 → Instr) × Nat) :=
  [(.nop, 0x00), (.endH, 0x01), (.br, 0x02), (.call, 0x03), (.ret, 0x04), (.loop, 0x05), (.verdict, 0x06), (.emit, 0x07),
   (.binfo, 0x08), (.sflag, 0x09), (.fclr, 0x0A), (.sadd, 0x10), (.ssub, 0x11), (.smul, 0x12), (.sand, 0x13),
   (.sor, 0x14), (.sxor, 0x15), (.sshl, 0x16), (.sshr, 0x17), (.ssra, 0x18), (.smin, 0x19), (.smax, 0x1A), (.smov, 0x1B),
   (.scmpeq, 0x1C), (.scmplt, 0x1D), (.scmpltu, 0x1E), (.shi, 0x1F), (.sld, 0x20), (.sst, 0x21), (.pand, 0x48),
   (.por, 0x49), (.pnot, 0x4A), (.tzero, 0x50), (.tfloor, 0x51), (.tmma, 0x52), (.tacc, 0x53), (.tred, 0x54),
   (.tget, 0x55), (.tsgn, 0x56), (.tmov, 0x57), (.tsub, 0x58), (.tmac, 0x59)]
/-- The opcodes that act lane by lane. -/
def laneOps : List ((Byte → BitVec 2 → Instr) × Nat) :=
  [(.vld, 0x22), (.vst, 0x23), (.vldb, 0x24), (.bld, 0x25), (.vadd, 0x30), (.vsub, 0x31), (.vmul, 0x32), (.vfma, 0x33),
   (.vmin, 0x34), (.vmax, 0x35), (.vabs, 0x36), (.vneg, 0x37), (.vand, 0x38), (.vor, 0x39), (.vxor, 0x3A), (.vshl, 0x3B),
   (.vsra, 0x3C), (.vcvt, 0x3D), (.vmov, 0x3E), (.vidx, 0x3F), (.vcmpeq, 0x40), (.vcmplt, 0x41), (.vcmple, 0x42),
   (.vexp2, 0x43), (.vrcp, 0x44), (.dec, 0x45), (.vscl, 0x46), (.vrsum, 0x47), (.rnd, 0x60), (.rndb, 0x61)]

/-! ## Requests and pins -/

/-- The source of a command that is an access to a register, from HCP or from the fabric. -/
def accessSrc : Instr → Option Src
  | .registerWrite src _ _ => some src
  | .readLoLatch src _ => some src
  | .writeHiCommit src _ _ => some src
  | .pgLockSet src _ => some src
  | .tallySignal src _ => some src
  | .tallyAdd src _ _ => some src
  | .tallySet src _ _ => some src
  | .tlWait src => some src
  | .tlCancel src => some src
  | .tlRead src => some src
  | .tlSetAcl src => some src
  | .mbTxWrite src _ _ => some src
  | .mbRxRead src _ _ => some src
  | .mbNoteRead src _ => some src
  | .channelReset src _ => some src
  | .xlSend src => some src
  | .fqRegister src => some src
  | .fqRelease src => some src
  | .xlFaultIn src _ => some src
  | .irqApply src => some src
  | .irqDiscard src => some src
  | .asySubmit src => some src
  | .asyClose src => some src
  | .asyCancel src => some src
  | .logRegister src => some src
  | .logRelease src => some src
  | .asyRun src => some src
  | .prgOpen src => some src
  | .prgLoad src => some src
  | .prgUnload src => some src
  | .prgInfo src => some src
  | .prgWindowWrite src _ => some src
  | .bookOpen src => some src
  | .bookSubmit src => some src
  | .bookAbort src => some src
  | .bookRestore src => some src
  | .bookReadback src => some src
  | .bookWindowWrite src _ => some src
  | .lgRelease src => some src
  | _ => none
/-- A HUB_RST_N bit is 1 only where PD_STATUS is 1, and none is in HALTED or SAFE (R68). -/
def hubHeld (s : State) : Prop :=
  (∀ d, d < 40 → s.pins.hubRstN.getLsbD d = true → s.pins.pdStatus.getLsbD d = true) ∧ (stopped s = true → s.pins.hubRstN = 0)

end Sys2Proof.Machine
end

