-- ==== Sys2Proof/Certificates/Slice0/Obligations.lean ====
section
/-! DEFINITION. The statements for the provers: what the commands of the block do, what they leave alone, and what every step keeps. -/
open Sys2Proof Sys2Proof.Machine

/-! ## Assay programs (chapter 16) -/

/-- R451, Table 16-3: each of these opcodes writes f(a, b) to S[rd], where b is a scalar or the sign-extended immediate; S0 keeps reading
0. Nothing else changes but the meter and the pc. R450: they execute when bit 0 of the guard holds. R451, Table 16-3: comparisons write
all ones or zeros to P[rd], PAND, POR and PNOT combine predicates bit by bit; P0 keeps reading all ones. Nothing else changes but the
meter and the pc. -/
def Obligations.ScalarOps : Prop :=
  (∀ x ∈ ([(Instr.sadd, 0x10, fun a b => a + b), (Instr.ssub, 0x11, fun a b => a - b), (Instr.smul, 0x12, fun a b => a * b),
      (Instr.sand, 0x13, fun a b => a &&& b), (Instr.sor, 0x14, fun a b => a ||| b), (Instr.sxor, 0x15, fun a b => a ^^^ b),
      (Instr.sshl, 0x16, fun a b => a <<< (b.toNat % 64)), (Instr.sshr, 0x17, fun a b => a >>> (b.toNat % 64)),
      (Instr.ssra, 0x18, fun a b => a.sshiftRight (b.toNat % 64)),
      (Instr.smin, 0x19, fun a b => if a.toInt < b.toInt then a else b),
      (Instr.smax, 0x1A, fun a b => if a.toInt < b.toInt then b else a),
      (Instr.smov, 0x1B, fun _ b => b)] :
      List ((Byte → BitVec 2 → Instr) × Nat × (DWord → DWord → DWord))),
    ∀ s pid k o c p, atIns s pid k x.2.1 o c p → c.guard (insNow c p) 0 = true →
      ∃ d, exec (x.1 pid k) s = .next (goesOn s pid k o d) ∧
        d.sGet (insNow c p).rd = (if (insNow c p).rd = 0 then 0 else x.2.2 (c.sGet (insNow c p).ra) (c.bS (insNow c p))) ∧
        (∀ r, r ≠ (insNow c p).rd → d.sGet r = c.sGet r) ∧ d = { metered c x.2.1 with s := d.s }) ∧
  (∀ x ∈ ([(Instr.scmpeq, 0x1C, fun c i => if c.sGet i.ra = c.bS i then BitVec.allOnes 64 else 0),
      (Instr.scmplt, 0x1D, fun c i => if (c.sGet i.ra).toInt < (c.bS i).toInt then BitVec.allOnes 64 else 0),
      (Instr.scmpltu, 0x1E, fun c i => if (c.sGet i.ra).toNat < (c.bS i).toNat then BitVec.allOnes 64 else 0),
      (Instr.pand, 0x48, fun c i => c.pGet i.ra &&& c.pGet i.rb), (Instr.por, 0x49, fun c i => c.pGet i.ra ||| c.pGet i.rb),
      (Instr.pnot, 0x4A, fun c i => ~~~ c.pGet i.ra)] :
      List ((Byte → BitVec 2 → Instr) × Nat × (Ctx → PIns → DWord))),
    ∀ s pid k o c p, atIns s pid k x.2.1 o c p → c.guard (insNow c p) 0 = true →
      ∃ d, exec (x.1 pid k) s = .next (goesOn s pid k o d) ∧
        d.pGet (insNow c p).rd = (if (insNow c p).rd = 0 then BitVec.allOnes 64 else x.2.2 c (insNow c p)) ∧
        (∀ r, r ≠ (insNow c p).rd → d.pGet r = c.pGet r) ∧ d = { metered c x.2.1 with p := d.p })

/-- R451, Table 16-3: NOP does nothing, BR, CALL, RET and LOOP set the pc (CALL with room on the stack of 8, RET with an entry on it),
SFLAG reads the flags and FCLR clears them, SHI replaces the upper half of S[rd]. -/
def Obligations.ControlOps : Prop :=
  ∀ s pid k o c p, c.guard (insNow c p) 0 = true →
    let i := insNow c p
    let dest : Nat := ((c.pc : Int) + i.simm).toNat
    (atIns s pid k 0x00 o c p → exec (.nop pid k) s = .next (goesOn s pid k o (metered c 0x00))) ∧
    (atIns s pid k 0x02 o c p → exec (.br pid k) s = .next (goesOn s pid k o { metered c 0x02 with pc := dest })) ∧
    (atIns s pid k 0x03 o c p → c.stack.length < 8 →
      exec (.call pid k) s = .next (goesOn s pid k o { metered c 0x03 with pc := dest, stack := (c.pc + 1) :: c.stack })) ∧
    (∀ a rest, atIns s pid k 0x04 o c p → c.stack = a :: rest →
      exec (.ret pid k) s = .next (goesOn s pid k o { metered c 0x04 with pc := a, stack := rest })) ∧
    (atIns s pid k 0x05 o c p → i.ra ≠ 0 →
      exec (.loop pid k) s = .next (goesOn s pid k o
        { (metered c 0x05).sSet i.ra (c.sGet i.ra - 1) with pc := if c.sGet i.ra = 1 then c.pc + 1 else dest })) ∧
    (atIns s pid k 0x05 o c p → i.ra = 0 → exec (.loop pid k) s = .next (goesOn s pid k o (metered c 0x05))) ∧
    (atIns s pid k 0x09 o c p →
      exec (.sflag pid k) s = .next (goesOn s pid k o ((metered c 0x09).sSet i.rd (BitVec.ofNat 64 c.flags)))) ∧
    (atIns s pid k 0x0A o c p → exec (.fclr pid k) s = .next (goesOn s pid k o { metered c 0x0A with flags := 0 })) ∧
    (atIns s pid k 0x1F o c p →
      exec (.shi pid k) s = .next (goesOn s pid k o
        ((metered c 0x1F).sSet i.rd (BitVec.ofNat 64 ((c.sGet i.rd).toNat % 2 ^ 32 + i.imm * 2 ^ 32)))))

/-- R446, R448, R459: HANDLER_INVOKE starts INIT, BLOCK and CLOSE at their entries in this order, each with a fresh handler meter; a slice
that ends inside a handler is not visible to it. R457: VERDICT and EMIT act in CLOSE, BINFO in BLOCK; END ends the handler, and a CLOSE
that ends without a VERDICT ends its run with cause 6. -/
def Obligations.HandlerOps : Prop :=
  (∀ s pid k, exec (.sliceYield pid k) s = .next s) ∧
  (∀ s pid k o c p, serving s = true → opAt s pid.toNat k.toNat = some o → o.ctx = some c →
    progOf s pid.toNat o.handle = some p → c.handler = 0 → o.sampled = true →
    (c.initDone = false → objEntry p.obj 0 ≠ 0xFFFF →
      exec (.handlerInvoke pid k) s = .next (goesOn s pid k o { c with handler := 1, pc := objEntry p.obj 0, hUsed := 0 })) ∧
    (∀ f rest, c.initDone = true → objEntry p.obj 1 ≠ 0xFFFF → o.queue = f :: rest →
      exec (.handlerInvoke pid k) s = .next (goesOn s pid k { o with queue := rest }
        { c with cur := some f, handler := 2, pc := objEntry p.obj 1, hUsed := 0 })) ∧
    (c.initDone = true → o.queue = [] → o.stage = 2 →
      exec (.handlerInvoke pid k) s = .next (goesOn s pid k o { c with handler := 3, pc := objEntry p.obj 2, hUsed := 0 })) ∧
    (c.initDone = true → o.queue = [] → o.stage < 2 → exec (.handlerInvoke pid k) s = .next s)) ∧
  (∀ s pid k o c p, c.guard (insNow c p) 0 = true →
    let i := insNow c p
    (atIns s pid k 0x06 o c p → c.handler = 3 → c.verdict = none → i.imm ∈ [0, 1, 2, 3, 5] →
      exec (.verdict pid k) s = .next (goesOn s pid k o { metered c 0x06 with verdict := some i.imm })) ∧
    (atIns s pid k 0x07 o c p → c.handler = 3 →
      exec (.emit pid k) s = .next (goesOn { s with free := s.free + 1 } pid k o
        { metered c 0x07 with words := smSet none c.words i.imm (some (c.sGet i.rd)) })) ∧
    (∀ f, atIns s pid k 0x08 o c p → c.handler = 2 → c.cur = some f →
      ∃ v, exec (.binfo pid k) s = .next (goesOn { s with free := s.free + 1 } pid k o ((metered c 0x08).sSet i.rd v)) ∧
        (i.imm = 0 → v = BitVec.ofNat 64 f.tensor) ∧
        (i.imm = 1 → v = BitVec.ofInt 64 (128 * (f.block : Int) - ((winTensor o.desc f.tensor).base : Int))) ∧
        (i.imm = 2 → v = BitVec.ofNat 64 f.half) ∧ (i.imm = 3 → v = BitVec.ofNat 64 o.opno) ∧
        (i.imm = 4 → v = BitVec.ofNat 64 c.presented)) ∧
    (atIns s pid k 0x01 o c p → c.handler = 1 →
      exec (.endH pid k) s = .next (goesOn s pid k o { metered c 0x01 with handler := 0, cur := none, initDone := true })) ∧
    (atIns s pid k 0x01 o c p → c.handler = 2 →
      exec (.endH pid k) s = .next (goesOn s pid k o
        { metered c 0x01 with handler := 0, cur := none, initDone := true, presented := c.presented + 1 })) ∧
    (atIns s pid k 0x01 o c p → c.handler = 3 → c.verdict = none →
      exec (.endH pid k) s = .next (opAbort s pid.toNat k.toNat
        { o with ctx := some { metered c 0x01 with handler := 0, cur := none, initDone := true } } 6)))

/-- R450: an instruction other than a vector one whose guard has bit 0 clear costs what it costs and does nothing else. R458: an
instruction that would pass the fuel of its run ends the run ABORTED with cause 1, and one that would pass the fuel of its handler (but
for CLOSE) with cause 2; the instruction has none of its effect. R457, R460, Table 16-5: CALL with a full stack of 8 and RET with an empty
one end the run with cause 4; VERDICT outside CLOSE, given twice or with another code ends it with cause 5. -/
def Obligations.ProgramLimits : Prop :=
  (∀ x ∈ singleOps, ∀ s pid k o c p, atIns s pid k x.2 o c p → c.guard (insNow c p) 0 = false →
    exec (x.1 pid k) s = .next (goesOn s pid k o (metered c x.2))) ∧
  (∀ x ∈ singleOps ++ laneOps,
    ∀ s pid k o c p, serving s = true → opAt s pid.toNat k.toNat = some o → o.ctx = some c →
      progOf s pid.toNat o.handle = some p → c.handler ≠ 0 → c.pc < objWords p.obj → (insNow c p).op = x.2 →
      (c.fuel < c.used + insCost x.2 → exec (x.1 pid k) s = .next (opAbort s pid.toNat k.toNat o 1)) ∧
      (c.used + insCost x.2 ≤ c.fuel → c.handler ≠ 3 → handlerFuel p < c.hUsed + insCost x.2 →
        exec (x.1 pid k) s = .next (opAbort s pid.toNat k.toNat o 2))) ∧
  (∀ s pid k o c p, c.guard (insNow c p) 0 = true →
    let ends (op cause : Nat) : State := opAbort s pid.toNat k.toNat { o with ctx := some (metered c op) } cause
    (atIns s pid k 0x03 o c p → 8 ≤ c.stack.length → exec (.call pid k) s = .next (ends 0x03 4)) ∧
    (atIns s pid k 0x04 o c p → c.stack = [] → exec (.ret pid k) s = .next (ends 0x04 4)) ∧
    (atIns s pid k 0x06 o c p → (c.handler ≠ 3 ∨ c.verdict ≠ none ∨ (insNow c p).imm ∉ [0, 1, 2, 3, 5]) →
      exec (.verdict pid k) s = .next (ends 0x06 5)))

/-- R451, Table 16-3: the I32 forms of the lane-wise opcodes. Each guarded lane of V[rd] takes f(a, b), the other lanes and every other
register keep their values. The arithmetic forms draw 64 free values that only their F32 forms use. -/
def Obligations.VectorInteger : Prop :=
  ∀ x ∈ ([(Instr.vadd, 0x30, 64, fun a b => a + b), (Instr.vsub, 0x31, 64, fun a b => a - b), (Instr.vmul, 0x32, 64, fun a b => a * b),
      (Instr.vmin, 0x34, 64, fun a b => if a.toInt < b.toInt then a else b),
      (Instr.vmax, 0x35, 64, fun a b => if a.toInt < b.toInt then b else a),
      (Instr.vabs, 0x36, 0, fun a _ => if a.toInt < 0 then -a else a), (Instr.vneg, 0x37, 0, fun a _ => -a),
      (Instr.vand, 0x38, 0, fun a b => a &&& b), (Instr.vor, 0x39, 0, fun a b => a ||| b), (Instr.vxor, 0x3A, 0, fun a b => a ^^^ b),
      (Instr.vshl, 0x3B, 0, fun a b => a <<< (b.toNat % 32)), (Instr.vsra, 0x3C, 0, fun a b => a.sshiftRight (b.toNat % 32)),
      (Instr.vmov, 0x3E, 0, fun _ b => b)] :
      List ((Byte → BitVec 2 → Instr) × Nat × Nat × (Word → Word → Word))),
    ∀ s pid k o c p, atIns s pid k x.2.1 o c p → (insNow c p).ty = 0 →
      ∃ d, exec (x.1 pid k) s = .next (goesOn { s with free := s.free + x.2.2.1 } pid k o d) ∧
        (∀ l, l < 64 → d.vGet (insNow c p).rd l =
          if c.guard (insNow c p) l then x.2.2.2 (c.vGet (insNow c p).ra l) (c.bV (insNow c p) l) else c.vGet (insNow c p).rd l) ∧
        (∀ r l, l < 64 → r ≠ (insNow c p).rd → d.vGet r l = c.vGet r l) ∧ d = { metered c x.2.1 with v := d.v }

/-- R452: the F32 forms. Each guarded lane takes the rounded result; NAN and INEXACT are set by the guarded lanes and never cleared. -/
def Obligations.VectorFloat : Prop :=
  ∀ x ∈ ([(Instr.vadd, 0x30, 64, fun c i l f => f32Add (c.vGet i.ra l) (c.bV i l) f),
      (Instr.vsub, 0x31, 64, fun c i l f => f32Add (c.vGet i.ra l) (f32Flip (c.bV i l)) f),
      (Instr.vmul, 0x32, 64, fun c i l f => f32Mul (c.vGet i.ra l) (c.bV i l) f),
      (Instr.vfma, 0x33, 64, fun c i l f => f32Fma (c.vGet i.ra l) (c.bV i l) (c.vGet i.rd l) f),
      (Instr.vmin, 0x34, 64, fun c i l f => f32MinMax false (c.vGet i.ra l) (c.bV i l) f),
      (Instr.vmax, 0x35, 64, fun c i l f => f32MinMax true (c.vGet i.ra l) (c.bV i l) f),
      (Instr.vabs, 0x36, 0, fun c i l _ => signRes (c.vGet i.ra l) (c.vGet i.ra l &&& 0x7FFFFFFF)),
      (Instr.vneg, 0x37, 0, fun c i l _ => signRes (c.vGet i.ra l) (c.vGet i.ra l ^^^ 0x80000000)),
      (Instr.vexp2, 0x43, 64, fun c i l f => f32Exp2 (c.vGet i.ra l) f), (Instr.vrcp, 0x44, 64, fun c i l f => f32Rcp (c.vGet i.ra l) f)] :
      List ((Byte → BitVec 2 → Instr) × Nat × Nat × (Ctx → PIns → Nat → BitVec 512 → FRes))),
    ∀ s pid k o c p, atIns s pid k x.2.1 o c p → (insNow c p).ty = 1 →
      let i := insNow c p
      let r (l : Nat) : FRes := x.2.2.2 c i l (Config.freeBits (s.free + l))
      ∃ d, exec (x.1 pid k) s = .next (goesOn { s with free := s.free + x.2.2.1 } pid k o d) ∧
        (∀ l, l < 64 → d.vGet i.rd l = if c.guard i l then (r l).w else c.vGet i.rd l) ∧
        (d.flag 3 = true ↔ c.flag 3 = true ∨ ∃ l, l < 64 ∧ c.guard i l = true ∧ (r l).nan = true) ∧
        (d.flag 2 = true ↔ c.flag 2 = true ∨ ∃ l, l < 64 ∧ c.guard i l = true ∧ (r l).inexact = true) ∧
        (∀ b, b ≠ 2 → b ≠ 3 → d.flag b = c.flag b) ∧
        (∀ n l, l < 64 → n ≠ i.rd → d.vGet n l = c.vGet n l) ∧ d = { metered c x.2.1 with v := d.v, flags := d.flags }

/-- R453, R452, R451: DEC decodes elements, VSCL scales by powers of two, VCVT converts between the lane types, VRSUM sums the guarded
lanes exactly, VIDX numbers them, and the lane comparisons write the guarded bits of P[rd]. R451, Table 16-3: the lane comparisons write
bit l of P[rd] for every guarded lane l and leave the others. -/
def Obligations.VectorOther : Prop :=
  (∀ s pid k o c p,
    let i := insNow c p
    let lanesBecome (d : Ctx) (f : Nat → Word) : Prop :=
      (∀ l, l < 64 → d.vGet i.rd l = if c.guard i l then f l else c.vGet i.rd l) ∧
      (∀ r l, l < 64 → r ≠ i.rd → d.vGet r l = c.vGet r l)
    (atIns s pid k 0x45 o c p → ∃ d, exec (.dec pid k) s = .next (goesOn { s with free := s.free + 64 } pid k o d) ∧
      lanesBecome d (fun l => match rawElem c i.ra (i.imm % 256) (i.imm / 256 % 65536 + l) with
        | some n => decLane (i.imm % 256) n (Config.freeBits (s.free + l))
        | none => 0) ∧ d = { metered c 0x45 with v := d.v }) ∧
    (atIns s pid k 0x46 o c p → ∃ d, exec (.vscl pid k) s = .next (goesOn { s with free := s.free + 64 } pid k o d) ∧
      (∀ l, l < 64 → c.guard i l = true → -1873 ≤ (c.bV i l).toInt → (c.bV i l).toInt ≤ 254 →
        d.vGet i.rd l = (f32Scale (c.vGet i.ra l) ((c.bV i l).toInt - 127) (Config.freeBits (s.free + l))).w) ∧
      (∀ l, l < 64 → c.guard i l = true → (c.bV i l).toInt = 255 → d.vGet i.rd l = (frNaN (Config.freeBits (s.free + l))).w) ∧
      (∀ l, l < 64 → c.guard i l = false → d.vGet i.rd l = c.vGet i.rd l) ∧
      (∀ r l, l < 64 → r ≠ i.rd → d.vGet r l = c.vGet r l) ∧ (∀ b, b ≠ 2 → b ≠ 3 → d.flag b = c.flag b) ∧
      d = { metered c 0x46 with v := d.v, flags := d.flags }) ∧
    (atIns s pid k 0x3D o c p → i.ty = 0 → ∃ d, exec (.vcvt pid k) s = .next (goesOn s pid k o d) ∧
      lanesBecome d (fun l => (f32ToInt (c.vGet i.ra l)).1) ∧ (∀ b, b = 0 ∨ 4 ≤ b → d.flag b = c.flag b) ∧
      d = { metered c 0x3D with v := d.v, flags := d.flags }) ∧
    (atIns s pid k 0x3D o c p → i.ty = 1 → ∃ d, exec (.vcvt pid k) s = .next (goesOn s pid k o d) ∧
      lanesBecome d (fun l => (frOf (decide ((c.vGet i.ra l).toInt < 0)) (dyInt (c.vGet i.ra l).toInt)).w) ∧
      (∀ b, b ≠ 2 → b ≠ 3 → d.flag b = c.flag b) ∧
      d = { metered c 0x3D with v := d.v, flags := d.flags }) ∧
    (atIns s pid k 0x47 o c p → exec (.vrsum pid k) s = .next (goesOn s pid k o
      ((metered c 0x47).sSet i.rd (BitVec.ofInt 64
        (((List.range 64).filter (fun l => c.guard i l)).map (fun l => (c.vGet i.ra l).toInt)).sum)))) ∧
    (atIns s pid k 0x3F o c p → ∃ d, exec (.vidx pid k) s = .next (goesOn s pid k o d) ∧
      lanesBecome d (fun l => BitVec.ofNat 32 (l + i.imm)) ∧ d = { metered c 0x3F with v := d.v })) ∧
  (∀ x ∈ ([(Instr.vcmpeq, 0x40, fun a b => decide (a = b), f32Eq), (Instr.vcmplt, 0x41, fun a b => decide (a.toInt < b.toInt), f32Lt),
      (Instr.vcmple, 0x42, fun a b => decide (a.toInt ≤ b.toInt), fun a b => f32Lt a b || f32Eq a b)] :
      List ((Byte → BitVec 2 → Instr) × Nat × (Word → Word → Bool) × (Word → Word → Bool))),
    ∀ s pid k o c p, atIns s pid k x.2.1 o c p → (insNow c p).rd ≠ 0 →
      ∃ d, exec (x.1 pid k) s = .next (goesOn s pid k o d) ∧
        (∀ l, l < 64 → d.pBit (insNow c p).rd l = if c.guard (insNow c p) l then
          (if (insNow c p).ty = 1 then x.2.2.2 else x.2.2.1) (c.vGet (insNow c p).ra l) (c.bV (insNow c p) l)
          else c.pBit (insNow c p).rd l) ∧
        (∀ r, r ≠ (insNow c p).rd → d.pGet r = c.pGet r) ∧ d = { metered c x.2.1 with p := d.p })

/-- R451, R455: loads and stores of local memory at a + IMM. SLD and SST take 8 aligned bytes, VLD and VST 256 bytes aligned to 4, VLDB 64
bytes, each sign-extended; BLD reads the block in BLOCK. An address outside local memory or misaligned ends the run with cause 3. -/
def Obligations.LocalMemory : Prop :=
  ∀ s pid k o c p,
    let i := insNow c p
    let a : Nat := (c.sGet i.ra + BitVec.ofInt 64 i.simm).toNat
    let inside (n align : Nat) : Prop := a % align = 0 ∧ a + n ≤ c.lmSize
    (atIns s pid k 0x20 o c p → c.guard i 0 = true → inside 8 8 →
      exec (.sld pid k) s = .next (goesOn s pid k o
        ((metered c 0x20).sSet i.rd (BitVec.ofNat 64 (leVal ((List.range 8).map (fun n => c.lmByte (a + n)))))))) ∧
    (atIns s pid k 0x20 o c p → c.guard i 0 = true → ¬ inside 8 8 →
      exec (.sld pid k) s = .next (opAbort s pid.toNat k.toNat { o with ctx := some (metered c 0x20) } 3)) ∧
    (atIns s pid k 0x21 o c p → c.guard i 0 = true → inside 8 8 →
      ∃ d, exec (.sst pid k) s = .next (goesOn s pid k o d) ∧
        (∀ n, n < 8 → d.lmByte (a + n) = BitVec.ofNat 8 ((c.sGet i.rd).toNat / 256 ^ n)) ∧
        (∀ b, (b < a ∨ a + 8 ≤ b) → d.lmByte b = c.lmByte b) ∧ d = { metered c 0x21 with lm := d.lm }) ∧
    (atIns s pid k 0x22 o c p → inside 256 4 →
      ∃ d, exec (.vld pid k) s = .next (goesOn s pid k o d) ∧
        (∀ l, l < 64 → d.vGet i.rd l = if c.guard i l then
          BitVec.ofNat 32 (leVal ((List.range 4).map (fun n => c.lmByte (a + 4 * l + n)))) else c.vGet i.rd l) ∧
        (∀ r l, l < 64 → r ≠ i.rd → d.vGet r l = c.vGet r l) ∧ d = { metered c 0x22 with v := d.v }) ∧
    (atIns s pid k 0x23 o c p → inside 256 4 →
      ∃ d, exec (.vst pid k) s = .next (goesOn s pid k o d) ∧
        (∀ l n, l < 64 → n < 4 → c.guard i l = true →
          d.lmByte (a + 4 * l + n) = BitVec.ofNat 8 ((c.vGet i.rd l).toNat / 256 ^ n)) ∧
        (∀ l n, l < 64 → n < 4 → c.guard i l = false → d.lmByte (a + 4 * l + n) = c.lmByte (a + 4 * l + n)) ∧
        (∀ b, (b < a ∨ a + 256 ≤ b) → d.lmByte b = c.lmByte b) ∧ d = { metered c 0x23 with lm := d.lm }) ∧
    (atIns s pid k 0x24 o c p → inside 64 1 →
      ∃ d, exec (.vldb pid k) s = .next (goesOn s pid k o d) ∧
        (∀ l, l < 64 → d.vGet i.rd l = if c.guard i l then (c.lmByte (a + l)).signExtend 32 else c.vGet i.rd l) ∧
        (∀ r l, l < 64 → r ≠ i.rd → d.vGet r l = c.vGet r l) ∧ d = { metered c 0x24 with v := d.v }) ∧
    (∀ f, atIns s pid k 0x25 o c p → c.handler = 2 → c.cur = some f →
      ∃ d, exec (.bld pid k) s = .next (goesOn { s with free := s.free + 1 } pid k o d) ∧
        (∀ l, l < 64 → d.vGet i.rd l = if c.guard i l then (if l < 32 then w32 (le f.data (4 * l) 4) else 0) else c.vGet i.rd l) ∧
        (∀ r l, l < 64 → r ≠ i.rd → d.vGet r l = c.vGet r l) ∧ d = { metered c 0x25 with v := d.v })

/-- R454, Table 16-3: the tile opcodes, entry by entry: the entries that an opcode writes take their value modulo 2^192, and the flag of
R454 is set when one wraps; TACC and TSUB set NAN's flag bit 0 for what they cannot add. R454, Table 16-3: TGET takes an entry shifted
right and saturated to 64 bits, TSGN its sign. -/
def Obligations.TileOps : Prop :=
  (∀ s pid k o c p, c.guard (insNow c p) 0 = true →
    let i := insNow c p
    let lane (e : Nat) : Nat := (e + 256 - i.imm % 256) % 256
    let tileIs (d : Ctx) (f : Nat → Option Int) : Prop :=
      (∀ e, e < 256 → d.tGet i.rd e = match f e with | some n => wrap192 n | none => c.tGet i.rd e) ∧
      (d.flag 4 = true ↔ c.flag 4 = true ∨ ∃ e n, e < 256 ∧ f e = some n ∧ wrap192 n ≠ n) ∧
      (∀ r e, e < 256 → r ≠ i.rd → d.tGet r e = c.tGet r e)
    let others (d : Ctx) : Prop := ∀ b, b ≠ 4 → d.flag b = c.flag b
    (atIns s pid k 0x50 o c p → ∃ d, exec (.tzero pid k) s = .next (goesOn s pid k o d) ∧
      (∀ e, e < 256 → d.tGet i.rd e = 0) ∧ (∀ r e, e < 256 → r ≠ i.rd → d.tGet r e = c.tGet r e) ∧
      d = { metered c 0x50 with t := d.t }) ∧
    (atIns s pid k 0x51 o c p → ∃ d, exec (.tfloor pid k) s = .next (goesOn s pid k o d) ∧
      (∀ e, e < 256 → d.tGet i.rd e = 0) ∧ d.floorOf i.rd = i.simm ∧ (∀ r, r ≠ i.rd → d.floorOf r = c.floorOf r) ∧
      (∀ r e, e < 256 → r ≠ i.rd → d.tGet r e = c.tGet r e) ∧ d = { metered c 0x51 with t := d.t, floor := d.floor }) ∧
    (atIns s pid k 0x52 o c p → ∃ d, exec (.tmma pid k) s = .next (goesOn s pid k o d) ∧
      tileIs d (fun e => some (c.tGet i.rd e +
        ((List.range 4).map (fun n => (c.vGet i.ra (4 * (e / 16) + n)).toInt * (c.vGet i.rb (16 * n + e % 16)).toInt)).sum)) ∧
      others d ∧ d = { metered c 0x52 with t := d.t, flags := d.flags }) ∧
    (atIns s pid k 0x54 o c p → ∃ d, exec (.tred pid k) s = .next (goesOn s pid k o d) ∧
      tileIs d (fun e => some (if e = 0 then ((List.range 256).map (fun n => c.tGet i.rd n)).sum else 0)) ∧
      others d ∧ d = { metered c 0x54 with t := d.t, flags := d.flags }) ∧
    (atIns s pid k 0x58 o c p → c.floorOf i.rd = c.floorOf i.ra → ∃ d, exec (.tsub pid k) s = .next (goesOn s pid k o d) ∧
      tileIs d (fun e => some (c.tGet i.rd e - c.tGet i.ra e)) ∧
      others d ∧ d = { metered c 0x58 with t := d.t, flags := d.flags }) ∧
    (atIns s pid k 0x58 o c p → c.floorOf i.rd ≠ c.floorOf i.ra →
      exec (.tsub pid k) s = .next (goesOn s pid k o ((metered c 0x58).setFlag 0))) ∧
    (atIns s pid k 0x57 o c p → ∃ d, exec (.tmov pid k) s = .next (goesOn s pid k o d) ∧
      (∀ e, e < 256 → d.tGet i.rd e = c.tGet i.ra e) ∧ d.floorOf i.rd = c.floorOf i.ra ∧
      (∀ r, r ≠ i.rd → d.floorOf r = c.floorOf r) ∧ (∀ r e, e < 256 → r ≠ i.rd → d.tGet r e = c.tGet r e) ∧
      d = { metered c 0x57 with t := d.t, floor := d.floor }) ∧
    (atIns s pid k 0x59 o c p → ∃ d, exec (.tmac pid k) s = .next (goesOn s pid k o d) ∧
      tileIs d (fun e => if lane e < 64 then
        some (c.tGet i.rd e + (c.vGet i.ra (lane e)).toInt * (c.vGet i.rb (lane e)).toInt) else none) ∧
      others d ∧ d = { metered c 0x59 with t := d.t, flags := d.flags }) ∧
    (atIns s pid k 0x53 o c p → i.ty = 0 → ∃ d, exec (.tacc pid k) s = .next (goesOn s pid k o d) ∧
      tileIs d (fun e => if lane e < 64 then some (c.tGet i.rd e + (c.vGet i.ra (lane e)).toInt) else none) ∧
      others d ∧ d = { metered c 0x53 with t := d.t, flags := d.flags }) ∧
    (atIns s pid k 0x53 o c p → i.ty = 1 → ∃ d, exec (.tacc pid k) s = .next (goesOn s pid k o d) ∧
      tileIs d (fun e => if lane e < 64 then
        (match decodeElem 0x22 (c.vGet i.ra (lane e)).toNat with
        | .fin v => if inWin (c.floorOf i.rd) v then some (c.tGet i.rd e + winUnits (c.floorOf i.rd) v) else none
        | _ => none) else none) ∧ (∀ b, b ≠ 0 → b ≠ 4 → d.flag b = c.flag b) ∧
      d = { metered c 0x53 with t := d.t, flags := d.flags })) ∧
  (∀ s pid k o c p, c.guard (insNow c p) 0 = true →
    let i := insNow c p
    let n : Int := (c.tGet i.ra (i.imm % 256)) / (2 ^ (i.imm / 256 % 256) : Nat)
    (atIns s pid k 0x55 o c p → -(2 ^ 63 : Int) ≤ n → n < 2 ^ 63 →
      exec (.tget pid k) s = .next (goesOn s pid k o ((metered c 0x55).sSet i.rd (BitVec.ofInt 64 n)))) ∧
    (atIns s pid k 0x55 o c p → (2 ^ 63 : Int) ≤ n →
      exec (.tget pid k) s = .next (goesOn s pid k o (((metered c 0x55).sSet i.rd (BitVec.ofNat 64 (2 ^ 63 - 1))).setFlag 1))) ∧
    (atIns s pid k 0x55 o c p → n < -(2 ^ 63 : Int) →
      exec (.tget pid k) s = .next (goesOn s pid k o (((metered c 0x55).sSet i.rd (BitVec.ofNat 64 (2 ^ 63))).setFlag 1))) ∧
    (atIns s pid k 0x56 o c p →
      exec (.tsgn pid k) s = .next (goesOn s pid k o ((metered c 0x56).sSet i.rd (BitVec.ofInt 64 (c.tGet i.ra (i.imm % 256)).sign)))))

/-- R457: RND and RNDB draw fresh values for the guarded lanes; when the DRBG grants nothing, the run ends with cause 7. -/
def Obligations.Draws : Prop :=
  ∀ s pid k o c p,
    let i := insNow c p
    (∀ s1, atIns s pid k 0x60 o c p → drbgGrant s false = some s1 →
      ∃ d, exec (.rnd pid k) s = .next (goesOn { s1 with free := s1.free + 64 } pid k o d) ∧
        (∀ l, l < 64 → d.vGet i.rd l = if c.guard i l then BitVec.ofInt 32 (weightOf (s1.free + l)) else c.vGet i.rd l) ∧
        (∀ r l, l < 64 → r ≠ i.rd → d.vGet r l = c.vGet r l) ∧ d = { metered c 0x60 with v := d.v }) ∧
    (∀ s1, atIns s pid k 0x61 o c p → drbgGrant s false = some s1 →
      ∃ d, exec (.rndb pid k) s = .next (goesOn { s1 with free := s1.free + 64 } pid k o d) ∧
        (∀ l, l < 64 → d.vGet i.rd l = if c.guard i l then BitVec.ofNat 32 (Config.freeBits (s1.free + l)).toNat
          else c.vGet i.rd l) ∧
        (∀ r l, l < 64 → r ≠ i.rd → d.vGet r l = c.vGet r l) ∧ d = { metered c 0x61 with v := d.v }) ∧
    (atIns s pid k 0x60 o c p → drbgGrant s false = none →
      exec (.rnd pid k) s = .next (opAbort s pid.toNat k.toNat { o with ctx := some (metered c 0x60) } 7)) ∧
    (∀ n, weightOf n ∈ [-8, -7, -6, -5, -4, -3, -2, -1, 1, 2, 3, 4, 5, 6, 7])

/-! ## Tallies and mailboxes (chapter 13) -/

/-- R356, R361, R363: SIGNAL adds 1, ADD adds its operand, both saturating at 2^64 - 1, and SET stores. The arbiter numbers the operation,
and each ARMED entry of the Tally whose threshold the new value has reached becomes FIRED with that number. No other Tally's value, entry
or access list changes, and outside the Tallies only what a firing dispatches and the answer. R90, R91: a SET leaves its low half in every
staging register of the pair. -/
def Obligations.TallySlotOps : Prop :=
  ∀ (n : BitVec 14) (a : Word) (v : DWord),
  ∀ x ∈ ([(fun src => Instr.tallySignal src n, 8, 0, fun w => satAdd64 w.toNat 1, fun s _ => s.wstage),
      (fun src => Instr.tallyAdd src n a, 12, 1, fun w => satAdd64 w.toNat a.toNat, fun s _ => s.wstage),
      (fun src => Instr.tallySet src n v, 0, 2, fun _ => v,
        fun s t => (tallyStages s t).foldl (fun m k => smSet 0 m k (w32 v.toNat)) s.wstage)] :
      List ((Src → Instr) × Nat × Nat × (DWord → DWord) × (State → Nat → SMap Word))),
    ∀ s src t, slotPasses s src n.toNat x.2.1 x.2.2.1 t →
      ∃ u, exec (x.1 src) s = .next (respond u src .ok) ∧
        (∀ k, tallyValue u k = if k = t then x.2.2.2.1 (tallyValue s t) else tallyValue s k) ∧
        u.tl.seq = (s.tl.seq + 1) % 2 ^ 20 ∧ u.tl.opSeq = smSet 0 s.tl.opSeq t s.tl.seq ∧ u.tl.acl = s.tl.acl ∧
        (∀ k e, e < 2 → waitEntry u k e =
          if k = t ∧ (waitEntry s k e).state = 1 ∧ (waitEntry s k e).thr.toNat ≤ (x.2.2.2.1 (tallyValue s t)).toNat then
            { waitEntry s k e with state := 2, seq := s.tl.seq } else waitEntry s k e) ∧
        u.wstage = x.2.2.2.2 s t ∧
        u = { s with tl := u.tl, irq := u.irq, qos := u.qos, hip := u.hip, mbox := u.mbox, asy := u.asy, hdrs := u.hdrs,
                     wstage := u.wstage }

/-- R365, R366: the commands of P_TALLY and of the TALY page on the Tally that TL_SEL names. WAIT arms an entry that is not ARMED, or
fires it at once; CANCEL takes an ARMED entry back; READ loads the operand registers; SET_ACL replaces the access list unless LOCK holds
it. Each leaves its result, the number of the operation and the entry's state. R367, R538: CLEAR returns every Tally of its range to value
0, reset access list and FREE entries, and the doorbell words of the PID to 0. No other Tally and no other doorbell changes. -/
def Obligations.TallyCommands : Prop :=
  (∀ s src t, pagePasses s src (if (tlRegs src).fw then 0xF else 2) 0x54 → tlTally s src = some t →
    let e := tlEntry s src
    let r (off : Nat) : Word := reg s ((tlRegs src).base + off)
    let thr : DWord := BitVec.ofNat 64 ((r 0x48).toNat + 2 ^ 32 * (r 0x4C).toNat)
    let port (u : State) : TlPort := tlPort u (tlRegs src).view
    let st : Nat := if thr.toNat ≤ (tallyValue s t).toNat then 2 else 1
    (entryOk s src t = true → badWait s (tallyOwner s t) (r 0x44) = false → (waitEntry s t e).state ≠ 1 →
      ∃ u, exec (.tlWait src) s = .next (respond u src .ok) ∧
        waitEntry u t e = { thr := thr, action := r 0x44, arg := r 0x50, state := st, seq := s.tl.seq } ∧
        port u = { result := st - 1, seq := s.tl.seq, st := st, stSeq := s.tl.seq } ∧
        u.tl.value = s.tl.value ∧ u.tl.acl = s.tl.acl ∧ u.tl.seq = (s.tl.seq + 1) % 2 ^ 20 ∧
        u = { s with tl := u.tl, irq := u.irq, qos := u.qos, hip := u.hip, mbox := u.mbox, asy := u.asy, hdrs := u.hdrs }) ∧
    (entryOk s src t = true → badWait s (tallyOwner s t) (r 0x44) = false → (waitEntry s t e).state = 1 →
      exec (.tlWait src) s = .next (respond (setTlPort (orderOp s t) (tlRegs src).view
        { result := 5, seq := s.tl.seq, st := 1, stSeq := (waitEntry s t e).seq }) src .ok)) ∧
    (entryOk s src t = true →
      ∃ u, exec (.tlCancel src) s = .next (respond u src .ok) ∧
        (waitEntry u t e = if (waitEntry s t e).state = 1 then { waitEntry s t e with state := 3, seq := s.tl.seq } else waitEntry s t e) ∧
        (port u).result = (match (waitEntry s t e).state with | 1 => 2 | 2 => 3 | _ => 4) ∧ (port u).seq = s.tl.seq ∧
        u.tl.value = s.tl.value ∧ u.tl.acl = s.tl.acl ∧ u.tl.seq = (s.tl.seq + 1) % 2 ^ 20 ∧
        u = { s with tl := u.tl, qos := u.qos }) ∧
    (∃ u, exec (.tlRead src) s = .next (respond u src .ok) ∧
      reg u ((tlRegs src).base + 0x44) = (waitEntry s t e).action ∧
      (reg u ((tlRegs src).base + 0x48)).toNat + 2 ^ 32 * (reg u ((tlRegs src).base + 0x4C)).toNat = (waitEntry s t e).thr.toNat ∧
      reg u ((tlRegs src).base + 0x50) = (waitEntry s t e).arg ∧
      reg u ((tlRegs src).base + 0x5C) = w32 (tallyAcl s t).toNat ∧
      port u = { result := 8, seq := smGet 0 s.tl.opSeq t, st := (waitEntry s t e).state, stSeq := (waitEntry s t e).seq } ∧
      u = { s with regs := u.regs, wstage := u.wstage, qos := u.qos, tl := { s.tl with ports := u.tl.ports } }) ∧
    (((tlRegs src).fw = true ∨ (tallyAcl s t).getLsbD 4 = false) →
      exec (.tlSetAcl src) s = .next (respond (setTlPort (setAcl s t (BitVec.ofNat 7 (r 0x5C).toNat)) (tlRegs src).view
        { port s with result := 8 }) src .ok)) ∧
    ((tlRegs src).fw = false → (tallyAcl s t).getLsbD 4 = true →
      exec (.tlSetAcl src) s = .next (respond (setTlPort s (tlRegs src).view { port s with result := 7 }) src .ok))) ∧
  (∀ s w,
    let base := fld (reg s (whoKey w 0xF060)) 13 0
    let count := fld (reg s (whoKey w 0xF060)) 27 16
    let pid := fld (reg s (whoKey w 0xF064)) 7 0
    fabOk s w = true → 0 < count → base + count ≤ 16384 → (pid = 0 ∨ tenant pid = true) →
    ∃ u, exec (.tlClear w) s = .next (respond u (.fab w) .ok) ∧ (tlPort u w.num).result = 8 ∧
      (∀ k, tallyValue u k = if base ≤ k ∧ k < base + count then 0 else tallyValue s k) ∧
      (∀ k, tallyAcl u k = if base ≤ k ∧ k < base + count then aclReset else tallyAcl s k) ∧
      (∀ k e, e < 2 → waitEntry u k e = if base ≤ k ∧ k < base + count then waitReset else waitEntry s k e) ∧
      (∀ p n, n < 32 → doorbell u p n = if pid ≠ 0 ∧ p = pid then 0 else doorbell s p n) ∧
      u = { s with tl := u.tl } ∧ u.tl.seq = s.tl.seq ∧ u.tl.opSeq = s.tl.opSeq)

/-- R370, R371, R373, R374: a write to MB_TX puts its whole frames last in TX, or nothing at all; a read of MB_RX takes the head frame
only when it asks for exactly that frame, and one of more than 512 beats gets EDECODE (R39); MB_NOTE gives the oldest notification word
in the beat of MB_VERSION; a channel reset discards queues and requests. R539:
the MBF registers of a core. FLUSH discards the queues and the version of the channel that MBF_SEL names, RESET_DONE clears the operator
page's RESET, TAKE moves the head frame of TX into the frame buffer, MBF_RX appends whole frames to RX, MBF_VERSION sets the version. -/
def Obligations.MailboxAccess : Prop :=
  (∀ s tag id (ch : Chan), chanOk ch = true →
    let c := channel s ch.num
    let src := Src.hcp tag id
    (∀ beats ws, passes s src (chanLoc ch.num 0x100) true → strobedWords beats = some ws →
      wholeFrames (txLen s ch.num) (queueSize ch.num) (ws.length + 1) ws = true → ws ≠ [] →
      (c.tx.length + ws.length ≤ queueSize ch.num →
        exec (.mbTxWrite src ch beats) s =
          .next (respond (fwEvent (setChannel s ch.num { c with tx := c.tx ++ ws }) (pgFw 0x10) 1) src .ok)) ∧
      (queueSize ch.num < c.tx.length + ws.length →
        exec (.mbTxWrite src ch beats) s = .next (respond s src .efull))) ∧
    (∀ beats : BitVec 10, passes s src (chanLoc ch.num 0x200) false →
      let f := headFrame (rxLen ch.num) c.rx
      let data : List DWord := (List.range (beats.toNat + 1)).map (fun i =>
        BitVec.ofNat 64 ((f.getD (2 * i) 0).toNat + 2 ^ 32 * (f.getD (2 * i + 1) 0).toNat))
      (512 ≤ beats.toNat → exec (.mbRxRead src ch beats) s = .next (respond s src .edecode (List.replicate (beats.toNat + 1) 0))) ∧
      (beats.toNat < 32 → (f = [] ∨ (f.length + 1) / 2 ≠ beats.toNat + 1) →
        exec (.mbRxRead src ch beats) s = .next (respond s src .ok (List.replicate (beats.toNat + 1) 0))) ∧
      (beats.toNat < 32 → f ≠ [] → (f.length + 1) / 2 = beats.toNat + 1 → c.replies = [] → c.rx = f → c.marks.drop 1 = [] →
        exec (.mbRxRead src ch beats) s = .next (respond (setChannel s ch.num { c with rx := [], marks := [] }) src .ok data)) ∧
      (∀ g gs, beats.toNat < 32 → f ≠ [] → (f.length + 1) / 2 = beats.toNat + 1 → c.replies = [] → c.rx = f ++ g :: gs →
        ∃ u, exec (.mbRxRead src ch beats) s = .next (respond u src .ok data) ∧ (channel u ch.num).rx = g :: gs ∧
          (channel u ch.num).marks = (match c.marks.drop 1 with | [] => [] | m :: ms => Nat.min m 1 :: ms) ∧
          u = { s with mbox := u.mbox, hdrs := u.hdrs, irq := u.irq, hip := u.hip, qos := u.qos })) ∧
    (passes s src (chanLoc ch.num 0x48) false →
      (∀ w rest, c.notes = w :: rest → exec (.mbNoteRead src ch) s =
        .next (respond (setChannel s ch.num { c with notes := rest }) src .ok [BitVec.ofNat 64 (mbVersion c + w.toNat * 2 ^ 32)])) ∧
      (c.notes = [] → exec (.mbNoteRead src ch) s = .next (respond s src .ok [BitVec.ofNat 64 (mbVersion c)]))) ∧
    (∀ n : BitVec 2, passes s src (.oper (n.toNat + 1) 8) true →
      ∃ u, exec (.channelReset src n) s = .next (respond u src .ok) ∧ channel u (64 + n.toNat) = channelReset ∧
        resetReq u (64 + n.toNat) = true ∧ (∀ k, k ≠ 64 + n.toNat → channel u k = channel s k) ∧
        u = { s with mbox := u.mbox, hdrs := u.hdrs, qos := u.qos })) ∧
  (∀ s w, fabOk s w = true → w ≠ .jtag → mbfSel s w < 68 →
    let n := mbfSel s w
    let c := channel s n
    (c.replies = [] → ∃ u, exec (.mbfFlush w) s = .next (answer u .ok) ∧
      channel u n = { c with tx := [], rx := [], marks := [], notes := [], version := none } ∧
      (∀ k, k ≠ n → channel u k = channel s k) ∧ (mbPort u w).result = 0 ∧ u = { s with mbox := u.mbox, qos := u.qos }) ∧
    (c.replies = [] → operChan n = true → ∃ u, exec (.mbfResetDone w) s = .next (answer u .ok) ∧ resetReq u n = false ∧
      (∀ k, channel u k = channel s k) ∧ (mbPort u w).result = 0 ∧ u = { s with mbox := u.mbox, hdrs := u.hdrs }) ∧
    (operChan n = false → exec (.mbfResetDone w) s = .next (answer (setMbPort s w { mbPort s w with result := 0 }) .ok)) ∧
    (c.tx = [] → exec (.mbfTake w) s = .next (answer (setMbPort s w { mbPort s w with result := 2 }) .ok)) ∧
    (∀ h rest, c.tx = h :: rest → ∃ u, exec (.mbfTake w) s =
        .next (answer (if serving s then takeFrame u n (c.tx.take (txLen s n h + 1)) else u) .ok) ∧
      (channel u n).tx = c.tx.drop (txLen s n h + 1) ∧
      mbPort u w = { result := 0, words := (c.tx.take (txLen s n h + 1)).length, frame := c.tx.take (txLen s n h + 1) }) ∧
    (∀ ws, wholeFrames (rxLen n) (queueSize n) (ws.length + 1) ws = true → resetReq s n = false →
      (c.rx.length + ws.length ≤ queueSize n → ∃ u, exec (.mbfRxAppend w ws) s = .next (answer u .ok) ∧
        (channel u n).rx = c.rx ++ ws ∧ (channel u n).tx = c.tx ∧
        u = { s with mbox := u.mbox, hdrs := u.hdrs, irq := u.irq, hip := u.hip, qos := u.qos }) ∧
      (queueSize n < c.rx.length + ws.length → exec (.mbfRxAppend w ws) s = .next (answer s .efull))) ∧
    (∀ v, exec (.mbfVersionWrite w v) s = .next (answer (setChannel s n { c with
      version := if bitOf v 16 then some (BitVec.ofNat 8 (fld v 15 8), BitVec.ofNat 8 (fld v 7 0)) else none }) .ok)))

/-- R377, R379, R382: a reply goes to RX, behind what waits there, with the code, class and tag of its request, in one frame when it fits;
a sealed partition's reply is held for its release instead. R377, R379: a complete request on a free tag, with room among the outstanding
ones, after VERSION, on a channel that may carry it, waits for its service, charged as Master when admission grants it; a frame of the
same tag, one more than the channel allows, one before VERSION, an unknown code and one on the wrong channel are answered with ERROR 2, 4,
0, 1 and 3. -/
def Obligations.ChannelRequests : Prop :=
  (∀ s c tag code o body, (channel s c).outst.find? (fun o => decide (o.tag = tag)) = some o → 0 < tag → tag < 64 →
    code < 2 ^ 16 → o.cls < 4 → body.length < queueSize c →
    (sealed s (chanPid c) = true → reply s c tag code body =
      { s with qos := { s.qos with held := s.qos.held ++
        [{ pid := chanPid c, master := false,
           eff := .reply { words := mkHeader code o.cls 0 body.length tag :: body, answers := true } }] } }) ∧
    (sealed s (chanPid c) = false → (channel s c).replies = [] → resetReq s c = false →
      ((channel s c).rx.length + body.length < queueSize c →
        (channel (reply s c tag code body) c).rx = (channel s c).rx ++ mkHeader code o.cls 0 body.length tag :: body ∧
        (channel (reply s c tag code body) c).replies = [] ∧
        (channel (reply s c tag code body) c).outst = (channel s c).outst.filter (fun x => decide (x.tag ≠ tag))) ∧
      (queueSize c ≤ (channel s c).rx.length + body.length →
        reply s c tag code body =
          setChannel s c { channel s c with
            replies := [{ words := mkHeader code o.cls 0 body.length tag :: body, answers := true }] }))) ∧
  (∀ s c tag code cls body rule,
    let ch := channel s c
    let used : Bool := ch.outst.any (fun o => decide (o.tag = tag))
    (0 < tag → used = false → ch.outst.length < outstMax c → (ch.version ≠ none ∨ code = 1) →
      (wspTable.find? (fun r => r.1 = code) = some (code, rule) → chanPermits rule c = true → cls ≠ 0 →
        takeRequest s c tag code cls body = setChannel s c { ch with
          outst := ch.outst ++ [{ tag := tag, code := code, cls := cls, master := false }]
          inbox := ch.inbox ++ [(tag, code, cls, body)] }) ∧
      (wspTable.find? (fun r => r.1 = code) = some (code, rule) → chanPermits rule c = false →
        takeRequest s c tag code cls body = wspError s c cls tag 3 code) ∧
      (wspTable.find? (fun r => r.1 = code) = none → takeRequest s c tag code cls body = wspError s c cls tag 1 code)) ∧
    ((tag = 0 ∨ used = true) → takeRequest s c tag code cls body = wspError s c cls tag 2 code) ∧
    (0 < tag → used = false → outstMax c ≤ ch.outst.length → takeRequest s c tag code cls body = wspError s c cls tag 4 code) ∧
    (0 < tag → used = false → ch.outst.length < outstMax c → ch.version = none → code ≠ 1 →
      takeRequest s c tag code cls body = wspError s c cls tag 0 code))

/-! ## Hallmark places, partitions, epochs, the Checker Programming Bus and HIP (chapters 2, 8, 9, 20) -/

/-- R524 to R526: the commands of the HMK page on the place that HMK_SEL names. TAKE records the partition's state, generation and epoch
in a free place outside a commit window and gives WINDOW, HELD or BAD_PID otherwise; SEAL ends assembling; RELEASE frees the place and
counts it as issued or stale; DROP frees it; the limit of assembling makes a place stale and sealed. No other place changes. -/
def Obligations.HallmarkPlaces : Prop :=
  ∀ s w (pid : Byte),
    let k := s.hmk.sel
    let took (r : Nat) : State := { answer s .ok with hmk := { s.hmk with result := r, pid := pid.toNat } }
    let only (t : State) : Prop := (∀ j, j ≠ k → hmkPlace t j = hmkPlace s j) ∧ t = { answer s .ok with hmk := t.hmk }
    (fabOk s w = true →
      (s.epoch.window = true → exec (.hmkTake w pid) s = .next (took 1)) ∧
      (s.epoch.window = false → (hmkPlace s k).held = true → exec (.hmkTake w pid) s = .next (took 2)) ∧
      (s.epoch.window = false → (hmkPlace s k).held = false → hmkPidOk s pid.toNat = false →
        exec (.hmkTake w pid) s = .next (took 3)) ∧
      (s.epoch.window = false → (hmkPlace s k).held = false → hmkPidOk s pid.toNat = true →
        ∃ t, exec (.hmkTake w pid) s = .next t ∧ hmkPlace t k = hmkSnapshot s pid.toNat ∧ t.hmk.result = 0 ∧ only t) ∧
      ((hmkPlace s k).held = true → ∃ t, exec (.hmkSeal w) s = .next (settle t) ∧
        hmkPlace t k = { hmkPlace s k with assembling := false } ∧ t.hmk.result = 0 ∧ only t) ∧
      ((hmkPlace s k).held = false → exec (.hmkSeal w) s = .next (settle (setHmkResult (answer s .ok) 5)) ∧
        exec (.hmkRelease w) s = .next (settle (setHmkResult (answer s .ok) 5))) ∧
      (s.att.preps.all (fun p => decide (p.place ≠ k)) = true → (hmkPlace s k).held = true →
        ∃ t, exec (.hmkRelease w) s = .next (settle t) ∧ hmkPlace t k = hmkPlaceReset ∧ only t ∧
          t.hmk.result = (if (hmkPlace s k).stale then 4 else 0) ∧
          t.hmk.issued = (if (hmkPlace s k).stale then s.hmk.issued else satInc s.hmk.issued) ∧
          t.hmk.staleCnt = (if (hmkPlace s k).stale then satInc s.hmk.staleCnt else s.hmk.staleCnt)) ∧
      (∃ t, exec (.hmkDrop w) s = .next (settle t) ∧ hmkPlace t k = hmkPlaceReset ∧ t.hmk.result = 0 ∧
        (∀ j, j ≠ k → hmkPlace t j = hmkPlace s j) ∧ t = { answer s .ok with hmk := t.hmk, att := { s.att with preps := t.att.preps } })) ∧
    (∀ p : BitVec 2, (hmkPlace s p.toNat).held = true → (hmkPlace s p.toNat).assembling = true →
      ∃ t, exec (.hmkAssembleLimit p) s = .next (settle t) ∧
        hmkPlace t p.toNat = { hmkPlace s p.toNat with assembling := false, stale := true } ∧
        (∀ j, j ≠ p.toNat → hmkPlace t j = hmkPlace s j) ∧ t = { s with hmk := t.hmk, hdrs := t.hdrs }) ∧
    (∀ p : BitVec 2, (hmkPlace s p.toNat).assembling = false → exec (.hmkAssembleLimit p) s = .next (settle s))

/-- R531, R254, R322: PART_CMD. SET_STATE gives a tenant the state it names, checking no transition, and clears what awaits a lift; a PID
that is no tenant is refused with 2, a state that does not exist with 3. GEN_STEP advances the generation by 1 modulo 64 when the 5 ms
since the value was left have passed, and answers HOLD with the remaining wait otherwise; GEN_READY ends the wait. Other tenants keep
their state and generation. R322, R531: GEN_READY permits the values a tenant waits for, clears GEN_HOLD and sets the PART page's event.
-/
def Obligations.PartitionCommands : Prop :=
  (∀ s w (pid : Byte) (n : BitVec 3), fabOk s w = true →
    let p := pid.toNat
    let g := ((pshared s p).gen + 1) % 64
    let named : State := setReg (answer s .ok) 0x9048 (w32 (p * 256 + n.toNat * 16))
    let named' : State := setReg (answer s .ok) 0x9048 (putFld (reg s 0x9048) 15 8 p)
    (tenant p = false → exec (.setState w pid n) s = .next (settle (partDone named 2 0)) ∧
      exec (.genStep w pid) s = .next (settle (partDone named' 2 0))) ∧
    (tenant p = true → PState.ofNum n.toNat = none → exec (.setState w pid n) s = .next (settle (partDone named 3 0))) ∧
    (∀ st, tenant p = true → PState.ofNum n.toNat = some st → pstate s p ≠ st →
      ∃ u, exec (.setState w pid n) s = .next (settle u) ∧
        pshared u p = { pshared s p with state := st, liftOper := false, liftPriv := false } ∧
        (∀ q, q ≠ p → pshared u q = pshared s q) ∧ u.part.partRes = 0 ∧ u.part.active = s.part.active ∧ u.part.rshared = s.part.rshared ∧
        u.fuse = s.fuse ∧ u.epoch = s.epoch ∧ u.tl.value = s.tl.value ∧ u.sram = s.sram) ∧
    (tenant p = true → genPermits s p g = true →
      ∃ u, exec (.genStep w pid) s = .next (settle u) ∧ pshared u p = { pshared s p with gen := g, genHold := false } ∧
        (∀ q, q ≠ p → pshared u q = pshared s q) ∧ u.part.partRes = 0 ∧ u.part.active = s.part.active) ∧
    (tenant p = true → genPermits s p g = false →
      ∃ u, exec (.genStep w pid) s = .next (settle u) ∧ pshared u p = { pshared s p with genHold := true } ∧ u.part.partRes = 1 ∧
        u.part.partWait = genWait s p g ∧ u.part.holds.contains (p, g) = true ∧ u.qn.genHold = satInc s.qn.genHold ∧
        u = { answer s .ok with regs := u.regs, part := u.part, qn := { s.qn with genHold := u.qn.genHold } })) ∧
  (∀ s (pid : Byte),
    (s.part.holds.all (fun h => decide (h.1 ≠ pid.toNat)) = true → exec (.genReady pid) s = .next (settle s)) ∧
    (∀ g, g < 64 → s.part.holds.contains (pid.toNat, g) = true →
      ∃ t, exec (.genReady pid) s = .next (settle t) ∧ genPermits t pid.toNat g = true ∧ (pshared t pid.toNat).genHold = false ∧
        t.part.holds = s.part.holds.filter (fun h => decide (h.1 ≠ pid.toNat)) ∧ bitOf (hdr t (pgFw 9)).event 0 = true ∧
        t = { s with part := t.part, hdrs := t.hdrs }))

/-- R534, R276, R535: the commands of EPOCH_CMD and the limit of a commit. PREPARE and RUN start a run on the staged version and the list
that EPOCH_LIST names, COMMIT goes on from PREPARED, ROLLBACK closes a prepared version, REPREPARE starts again after a refusal; a run in
progress gives BUSY, a wrong phase BAD_PHASE, an unfit version BAD_STAGED, a malformed list BAD_LIST. Past the 2 ms of a commit the
sequencer rolls back. R535: when every agent has closed the new version, the banks are exchanged and EPOCH_CUR takes EPOCH_STAGED; the
window ends, and with the frames it barred nothing else changes. R552, R310, R259, R287, R271: what SC1 computes for the agents. The stamp
table of the endpoint NI has 65 words, 1 for the physical function and the PID, or 0xFF, of each virtual function; an ISC's NI stamps
PID 0 and routes to the endpoint alone; a checker's entry has the owner and its generation, or owner 0; a translation unit has the PID of
its site; the list rewrites the words in which an agent's shadow differs, and no others. -/
def Obligations.EpochCommands : Prop :=
  (∀ s w,
    let s0 := settle s
    let e := s0.epoch
    let gives (i : Instr) (r : Nat) : Prop := exec i s = .next (settle { answer s0 .ok with epoch := { e with result := r } })
    (fabOk s0 w = true →
      (e.running = true → ∀ i ∈ [Instr.epochPrepare w, .epochRun w, .epochCommit w, .epochRollback w, .reprepare w], gives i 1) ∧
      (e.running = false →
        (e.phase ≠ .idle → e.phase ≠ .done → gives (.epochPrepare w) 4 ∧ gives (.epochRun w) 4) ∧
        (e.phase ≠ .prepared → gives (.epochCommit w) 4) ∧
        (e.phase ≠ .prepared → e.phase ≠ .prepareHalt → gives (.epochRollback w) 4) ∧
        (e.phase ≠ .prepareHalt → gives (.reprepare w) 4) ∧
        ((e.phase = .idle ∨ e.phase = .done) → stageOk s0 = false → gives (.epochPrepare w) 3 ∧ gives (.epochRun w) 3) ∧
        ((e.phase = .idle ∨ e.phase = .done) → stageOk s0 = true → epochList s0 = none →
          gives (.epochPrepare w) 2 ∧ gives (.epochRun w) 2) ∧
        (∀ es, (e.phase = .idle ∨ e.phase = .done) → stageOk s0 = true → epochList s0 = some es →
          ∀ x ∈ [(Instr.epochPrepare w, false), (Instr.epochRun w, true)], ∃ t, exec x.1 s = .next (settle t) ∧
            t.epoch.result = 0 ∧ t.epoch.running = true ∧ t.epoch.phase = .writing ∧ t.epoch.runAll = x.2 ∧ t.epoch.list = es ∧
            t.epoch.agents = epochAgents s0 ∧ t.epoch.curVersion = e.curVersion ∧ t = { answer s0 .ok with epoch := t.epoch, cpb := t.cpb }) ∧
        (e.phase = .prepared → exec (.epochCommit w) s =
          .next (settle { answer s0 .ok with epoch := { e with result := 0, phase := .committing, running := true, kindStep := 0 } })) ∧
        ((e.phase = .prepared ∨ e.phase = .prepareHalt) → ∃ t, exec (.epochRollback w) s = .next (settle t) ∧
          t.epoch = { e with result := 0, running := true, phase := .closing, prepFailed := true } ∧ t = { answer s0 .ok with epoch := t.epoch, cpb := t.cpb }) ∧
        (e.phase = .prepareHalt → epochList s0 = none → gives (.reprepare w) 2) ∧
        (∀ es, e.phase = .prepareHalt → epochList s0 = some es → ∃ t, exec (.reprepare w) s = .next (settle t) ∧
          t.epoch = { e with result := 0, running := true, phase := .writing, list := es, failOp := 0, failReason := 0, firstFail := 0 } ∧
          t = { answer s0 .ok with epoch := t.epoch, cpb := t.cpb }))) ∧
    (s.epoch.phase = .committing → ∃ t, exec .commitTimeout s = .next (settle t) ∧ t.epoch.phase = .rollingBack ∧
      t.epoch.rolledBack = true ∧ t.epoch.window = true ∧ t.part = s.part ∧ t.epoch.curVersion = s.epoch.curVersion) ∧
    (s.epoch.phase ≠ .committing → exec .commitTimeout s = .next (settle s))) ∧
  (∀ s, s.epoch.phase = .closing → cpbIdle s .epoch = true → s.epoch.prepFailed = false →
    ∃ t, pollEpoch s = t ∧ t.part = { s.part with active := s.part.staged, staged := s.part.active } ∧
      t.epoch.curValid = true ∧ t.epoch.curVersion = stagedVersion s ∧ t.epoch.curEp = stagedEp s ∧ t.epoch.phase = .done ∧
      t.epoch.window = false ∧ t.epoch.running = false ∧
      t = { s with part := t.part, epoch := t.epoch, cpb := t.cpb, hdrs := t.hdrs }) ∧
  (∀ s (p : Plan),
    (kindOf s Config.endpointNi = 1 → (1, 65) ∈ tableSizes s Config.endpointNi ∧ tableWord s p Config.endpointNi 1 0 = 1 ∧
      ∀ v, v < 64 →
        (∀ q, p.bank.findP (fun x => decide (p.bank.pVf x = v)) = some q → tableWord s p Config.endpointNi 1 (v + 1) = w32 q) ∧
        ((∀ q ∈ p.bank.pids, p.bank.pVf q ≠ v) → tableWord s p Config.endpointNi 1 (v + 1) = 0xFF)) ∧
    (∀ a i, kindOf s a = 1 → p.boot = false → niSource a i = .isc → tableWord s p a 1 i = 0 ∧
      ∀ w k, k < 32 → ((routeWord s p .isc w).getLsbD k = true ↔ 32 * w + k < Config.niDests ∧ Config.niDest (32 * w + k) = .endpoint)) ∧
    (∀ a r, kindOf s a = 2 → p.bank.rValid r = true → (regionCheckers s p.bank r).contains a = true →
      (p.bank.rOwner r = 0xFF → fld (tableWord s p a 0 (4 * r + 1)) 31 24 = 0 ∧ tableWord s p a 0 (4 * r + 2) = 0) ∧
      (p.bank.rOwner r ≠ 0xFF → fld (tableWord s p a 0 (4 * r + 1)) 31 24 = p.bank.rOwner r ∧
        fld (tableWord s p a 0 (4 * r + 2)) 5 0 = (if (p.shr r).fenced then (p.shr r).rgen else p.gen (p.bank.rOwner r)) % 64)) ∧
    (∀ a k, kindOf s a = 3 → agentSites s a = [k] → tableWord s p a 0 0 =
      w32 ((p.bank.findP (fun q => decide (p.bank.pSites q / 2 ^ k % 2 = 1))).getD 0)) ∧
    (∀ a x, shadowKnown s a = true →
      (({ kind := 0, sel := x.1, agent := a, index := x.2, data := tableWord s p a x.1 x.2 } : WEntry) ∈ agentEntries s p [] a ↔
        x ∈ tableIndex s a ∧ shadowWord s a x.1 x.2 ≠ tableWord s p a x.1 x.2)))

/-- R48, R49, R51: a frame that answers no outstanding one changes nothing. A valid answer ends its frame: one that CPB_CMD sent leaves
its operation and payload in the initiator's registers with OK, or NAK for a refusal, and a table word or FENCE that was acknowledged
stands in KX3's copy of the agent's tables. Without an answer a frame is resent up to three
times and each resend counted. R41, R42, R313: a HIP response with no outstanding request changes nothing. The response to a post clears
its pending bit when it is OK and keeps it otherwise, recorded only the first time; POST_RETRY then posts it again. R544: CPB_CMD and
ABANDON, and the 5 ms of a DRAIN. A command that nothing refuses goes out with the operands of its initiator, which is BUSY until the
answer; an initiator that is BUSY gets 9, and a refused one its reason, with nothing sent. -/
def Obligations.BusAndHip : Prop :=
  (∀ s,
    (∀ fr, flightOf s fr = none → exec (.cpbReply fr) s = .next (settle s)) ∧
    (∀ fr x w, flightOf s fr = some x → x.frame.use = .cmd w → s.cpb.waiting = [] → x.frame.op ≠ 7 →
      ∃ t, exec (.cpbReply fr) s = .next (settle t) ∧
        t.cpb.flights = s.cpb.flights.filter (fun y => decide (y.frame.agent ≠ x.frame.agent)) ∧
        cpbPort t w = { cpbPort s w with result := (if frOp fr = 0x21 then 1 else 0), busy := false, replyOp := frOp fr, reply := frPayload fr } ∧
        t.part = (if frOp fr = 0x21 then s.part else (tableAck s x.frame).part) ∧
        t = { s with cpb := t.cpb, hdrs := t.hdrs, part := t.part } ∧ t.cpb.agents = s.cpb.agents) ∧
    (∀ fr x, flightOf s fr = some x → x.frame.use = .quiesce → s.cpb.waiting = [] → x.frame.op ≠ 7 →
      let u : State := { s with cpb := { s.cpb with flights := s.cpb.flights.filter (fun y => decide (y.frame.agent ≠ x.frame.agent)) } }
      exec (.cpbReply fr) s = .next (settle (if frOp fr = 0x21 then u else tableAck u x.frame))) ∧
    (∀ a : BitVec 10,
      (s.cpb.flights.find? (fun x => decide (x.frame.agent = a.toNat)) = none → exec (.cpbReplyTimeout a) s = .next (settle s)) ∧
      (∀ x, s.cpb.flights.find? (fun x => decide (x.frame.agent = a.toNat)) = some x → x.released = false → x.frame.use ≠ .census →
        x.resends < 3 → ∃ t, exec (.cpbReplyTimeout a) s = .next (settle t) ∧ t.cpb.retryCnt = satInc s.cpb.retryCnt ∧
          t.cpb.flights = s.cpb.flights.map (fun y => if y = x then { x with resends := x.resends + 1 } else y) ∧
          t.cpb.agents = s.cpb.agents ∧ t.tmp.escCount = (if x.resends = 0 then satAdd 65535 s.tmp.escCount 1 else s.tmp.escCount) ∧
          t.epoch = { s.epoch with resent := s.epoch.resent + (if x.frame.use = .epoch ∨ x.frame.use = .rollback then 1 else 0) } ∧
          t = { s with cpb := t.cpb, tmp := t.tmp, hdrs := t.hdrs, epoch := t.epoch }))) ∧
  (∀ s (id : BitVec 6) (code : BitVec 3) data,
    (s.hip.out.find? (fun r => decide (r.id = id.toNat)) = none → exec (.hipResponse id code data) s = .next (settle s)) ∧
    (∀ r pid vec p, s.hip.out.find? (fun r => decide (r.id = id.toNat)) = some r → r.use = .post pid vec → pendOf s pid vec = some p →
      s.hip.waiting = [] →
      let gone : State := { s with hip := { s.hip with out := s.hip.out.filter (fun x => decide (x.id ≠ id.toNat)) } }
      (code = 0 → exec (.hipResponse id code data) s = .next (settle (setPend gone pid vec none))) ∧
      (code ≠ 0 → p.refused = true →
        exec (.hipResponse id code data) s = .next (settle (setPend gone pid vec (some { p with inFlight := false })))) ∧
      (code ≠ 0 → p.refused = false → ∃ t, exec (.hipResponse id code data) s = .next (settle t) ∧
        pendOf t pid vec = some { p with inFlight := false, refused := true } ∧
        t.ledger = (record gone 0x0031 0 1 0 (code.toNat + 256 * 7) (r.addr % 2 ^ 32) (r.addr / 2 ^ 32)).ledger)) ∧
    (∀ (pid vec : Byte) p, pendOf s pid.toNat vec.toNat = some p → p.inFlight = false → pstate s pid.toNat ≠ .quenching →
      s.hip.out.length < 64 → ∃ u, exec (.postRetry pid vec) s = .next u ∧
        pendOf u pid.toNat vec.toNat = some { p with inFlight := true } ∧
        u.hip.out = s.hip.out ++ [{ id := hipFreeId s.hip, sub := Config.hipSub 7, use := .post pid.toNat vec.toNat,
                                    addr := s.irq.postAddr, len := 8, write := true, data := postData pid.toNat vec.toNat }] ∧ u = { s with hip := u.hip, irq := u.irq }) ∧
    (∀ (pid vec : Byte), pendOf s pid.toNat vec.toNat = none → exec (.postRetry pid vec) s = .next s)) ∧
  (∀ s w, fabOk s w = true → w ≠ .jtag →
    let p := cpbPort s w.num
    let f (op : BitVec 6) : Frame := { agent := cpbSel s w, op := op.toNat, payload := cpbPay s w, use := .cmd w.num }
    (∀ op, p.busy = true → exec (.cpbCmdFrame w op) s = .next (settle (setCpbPort (answer s .ok) w.num { p with result := 9 }))) ∧
    (∀ op r, p.busy = false → cpbCmdRefused s op.toNat (cpbSel s w) (cpbPay s w).toNat = some r →
      exec (.cpbCmdFrame w op) s = .next (settle (setCpbPort (answer s .ok) w.num { p with result := r }))) ∧
    (∀ op, p.busy = false → cpbCmdRefused s op.toNat (cpbSel s w) (cpbPay s w).toNat = none → op.toNat ≠ 10 →
      drainFrame (f op) = false → ∃ t, exec (.cpbCmdFrame w op) s = .next (settle t) ∧
        cpbPort t w.num = { p with busy := true, agent := cpbSel s w, op := op.toNat } ∧
        (s.cpb.flights.any (fun x => decide (x.frame.agent = cpbSel s w)) = false → frameBarred s (f op) = false →
          t.cpb.flights = s.cpb.flights ++ [{ frame := f op, seq := (agent s (cpbSel s w)).seq, resends := 0, released := false }] ∧
          (agent t (cpbSel s w)).seq = ((agent s (cpbSel s w)).seq + 1) % 2 ^ 24) ∧
        (s.cpb.flights.any (fun x => decide (x.frame.agent = cpbSel s w)) = true →
          t.cpb.flights = s.cpb.flights ∧ t.cpb.waiting = s.cpb.waiting ++ [f op]) ∧
        t = { answer s .ok with cpb := t.cpb }) ∧
    (∀ x, s.cpb.flights = [x] → s.cpb.waiting = [] → x.frame.use = .cmd w.num → drainFrame x.frame = true → p.busy = true →
      ∃ t, exec (.cpbAbandon w) s = .next (settle t) ∧ t.cpb.flights = [] ∧ (cpbPort t w.num).busy = false ∧
        (cpbPort t w.num).result = 8 ∧ t = { answer s .ok with cpb := t.cpb, hdrs := t.hdrs }) ∧
    (p.busy = false → exec (.cpbAbandon w) s = .next (settle (answer s .ok))) ∧
    (∃ t, exec .drainAckLimit s = .next (settle t) ∧ t = { s with cpb := t.cpb } ∧
      (s.cpb.waiting = [] → t.cpb.flights = s.cpb.flights.filter (fun x => !drainUse x.frame.use))))

/-! ## Resets, starts and site loads (chapters 2, 4, 5) -/

/-- R67, R110, R117, R128, R489, R505: what the resets of the core island clear and keep. KX_POR_N, KX_RST_N and the watchdog leave RESET,
with the secrets, the tables, the queues and main SRAM at their reset values; no programmed fuse cell is lost, the queue of commands
stays, and the time count goes on, but for KX_POR_N, which clears it with the tamper latches and COUNT. RESET_EXIT begins SENSE. R32,
R109, R112, R116, R125, R154: SENSE. A bias that is not ready in time halts with 0x10, an array that does not sense with its code, a
failed self-test with the code of the test; a start that passes is in BOOT, and in BLANK it waits at S3 for JTAG, with the attempt
counted. Halted, KX3 drives its code and holds the hub and every site. -/
def Obligations.ResetsAndSense : Prop :=
  (∀ s,
    let cleared (u : State) : Prop :=
      u = { State.reset with
              time := u.time, free := u.free, pins := u.pins, tmp := u.tmp, pwr := u.pwr, ledger := u.ledger, fuse := u.fuse, boot := u.boot,
              part := u.part, att := u.att, regs := u.regs, pending := u.pending } ∧
      u.pending = s.pending ∧ (∀ k, fuseCells s k &&& ~~~ fuseCells u k = 0) ∧ (s.fuse.op = none → u.fuse.cells = s.fuse.cells) ∧
      u.fuse.busy = false ∧ u.fuse.result = 0 ∧ u.part.pshared = [] ∧ u.part.active = Bank.empty ∧ u.part.versions = s.part.versions ∧
      u.att.sessions = [] ∧ u.att.keys = [] ∧ u.pins.hubRstN = 0 ∧ u.pins.siteHoldN = 0 ∧ u.pins.shutterN = false ∧
      u.boot.journal = s.boot.journal ∧ u.boot.bootNo = s.boot.bootNo ∧ u.tmp.shutter = false
    (∃ u, exec .kxPorNAssert s = .next u ∧ cleared u ∧ u.time = 0 ∧ u.tmp.alarm = false ∧ u.tmp.pend = false ∧ u.tmp.first = none ∧
      u.boot.attempts = 0 ∧ u.boot.wdog = false ∧ u.fuse.unlockLatch = false ∧ u.pwr = Pwr.reset) ∧
    (∃ u, exec .kxRstNAssert s = .next u ∧ cleared u ∧ u.time = s.time ∧ u.tmp.alarm = s.tmp.alarm ∧ u.tmp.pend = s.tmp.pend ∧
      u.tmp.first = s.tmp.first ∧ u.boot.attempts = s.boot.attempts ∧ u.fuse.unlockLatch = s.fuse.unlockLatch ∧
      u.boot.wakeStart = decide (s.block = .sleep) ∧
      (s.fuse.op = none →
        u.fuse.interrupted = (if s.block = .sense then satAdd 255 s.fuse.interrupted 1 else s.fuse.interrupted))) ∧
    (s.block = .boot → s.boot.hostWait = false → ∃ u, exec .bootWatchdog s = .next u ∧ cleared u ∧ u.time = s.time ∧ u.boot.wdog = true ∧
      u.boot.attempts = s.boot.attempts ∧ u.boot.armed = s.boot.armed) ∧
    ((s.block ≠ .boot ∨ s.boot.hostWait = true) → exec .bootWatchdog s = .next s) ∧
    (s.block = .reset → ∃ u, exec .resetExit s = .next u ∧ u.block = .sense ∧ u.part = { s.part with start := s.time, left := [] } ∧
      u.pins = { s.pins with xspiResetN := true } ∧ u.pwr = { s.pwr with wakeLatch := false } ∧ u.fuse = s.fuse ∧
      u.sbox = { s.sbox with shutterFired := false } ∧ u.rng = { s.rng with dead := false } ∧ u.time = s.time ∧
      u.tmp = { s.tmp with shutter := false }) ∧
    (s.block ≠ .reset → exec .resetExit s = .next s)) ∧
  (∀ s,
    let halted (t : State) (code : Nat) : Prop := t.block = .halted ∧ t.pins.halt = BitVec.ofNat 8 code ∧ t.pins.hubRstN = 0 ∧
      t.pins.siteHoldN = 0 ∧ t.pins.shutterN = false ∧ t.cpb.flights = [] ∧ t.ledger.mode = .stopped
    (s.block = .sense → ∃ t, exec .senseBiasTimeout s = .next t ∧ halted t 0x10) ∧
    (s.block ≠ .sense → exec .senseBiasTimeout s = .next s) ∧
    (∀ (disturbed fail : BitVec 8) (arrays : BitVec 16) (bad : BitVec 4) (sfdp : Option (Bool × DWord)),
      let start := Instr.senseBiasReady ⟨disturbed, fail⟩ arrays bad sfdp
      let failed := s1Codes.contains fail.toNat
      (s.block ≠ .sense → exec start s = .next (settle s)) ∧
      (s.block = .sense → ∀ code s1, senseArray s disturbed.toNat = (code, s1) →
        (code ≠ 0 → ∃ t, exec start s = .next (settle t) ∧ halted t code) ∧
        (code = 0 → failed = true → ∃ t, exec start s = .next (settle t) ∧ halted t fail.toNat) ∧
        (code = 0 → failed = false → bad.getLsbD 0 = true → ∃ t, exec start s = .next (settle t) ∧ halted t 0x59) ∧
        (code = 0 → failed = false → bad.getLsbD 0 = false → 2 ≤ badServiceCores bad →
          ∃ t, exec start s = .next (settle t) ∧ halted t 0x5A) ∧
        (code = 0 → failed = false → bad.getLsbD 0 = false → badServiceCores bad < 2 → s1.tmp.pend = false → s1.fuse.sensed.lcs = 0 →
          ∃ t, exec start s = .next (settle t) ∧ t.block = .boot ∧ t.boot.pos = .jtag ∧ t.boot.step = 3 ∧
            t.boot.flashOk = sfdp.isSome ∧ t.cores.failed = bad ∧ t.cores.arrays = BitVec.ofNat 16 (0xFFFF - arrays.toNat) ∧
            t.boot.attempts = (if s1.boot.wakeStart = true ∧ s1.boot.armed = true then s1.boot.attempts else satAdd 15 s1.boot.attempts 1) ∧
            t.fuse = s1.fuse ∧ t.pins.critValid = s1.pins.critValid))))

/-- R128, R131, Table 5-3: a push start. An offer of the wrong origin is answered with 1, one above the largest image with 2, and the wait
goes on; one that fits opens the transfer. Bytes are gathered until the head is there; bytes whose header does not hold fail the source;
PUSH_END before the head is complete fails it as ended short. In BLANK, and in recovery where JTAG has every access, the same messages
bring an image through JTAG, which BLANK enters unverified (R132, R133; log entry 86); recovery firmware takes the bytes of a flash slot
and ends with a reset of the core island. Outside their waits these messages change nothing. R130, R139: a read of the
flash brings what the boot asked for. A head that fails its format fails the source with reason 1; the first 256 bytes of a good head ask
for the rest; a block that matches its digest goes into the cache, unless the boot image area is closed to writes (R142), and one that does not fails with 9. A read that nothing asked for
changes nothing. -/
def Obligations.PushAndFlash : Prop :=
  (∀ s,
    (∀ (origin : Byte) (length : DWord),
      ((∀ src, s.boot.pos ≠ .offer src) → s.boot.pos ≠ .recovery → exec (.pushOffer origin length) s = .next (settle s)) ∧
      (s.boot.pos = .recovery → origin = 1 ∨ origin = 2 → length.toNat ≤ s.boot.density →
        ∃ t, exec (.pushOffer origin length) s = .next (settle t) ∧ t.boot = { s.boot with hostWait := false, pos := .reflash length.toNat }) ∧
      (s.boot.pos = .recovery → origin = 1 ∨ origin = 2 → s.boot.density < length.toNat →
        exec (.pushOffer origin length) s = .next (settle (pushSend s [w32 (0x81 * 2 ^ 24 + 2)]))) ∧
      (∀ src, s.boot.pos = .offer src →
        let jtag : Prop := origin = 3 ∧ src = 4 ∧ jtagAll s = true
        let bad : Prop := (origin.toNat ≠ 1 ∧ origin.toNat ≠ 2 ∧ ¬ jtag) ∨ (src = 2 ∧ originOk s origin.toNat = false)
        (bad → exec (.pushOffer origin length) s =
          .next (settle (pushSend { s with boot := { s.boot with reason := 11 } } [w32 (0x81 * 2 ^ 24 + 1)]))) ∧
        (¬ bad → imageMax 32 < length.toNat → exec (.pushOffer origin length) s = .next (settle (pushSend s [w32 (0x81 * 2 ^ 24 + 2)]))) ∧
        (¬ bad → length.toNat ≤ imageMax 32 → ∃ t, exec (.pushOffer origin length) s = .next (settle t) ∧
          t.boot = { s.boot with hostWait := false, push := [], image := none, viaJtag := t.boot.viaJtag,
                                 pos := .pushing (if src = 2 then origin.toNat + 1 else src) length.toNat } ∧
          (t.boot.viaJtag = true ↔ jtag) ∧ t = { pushSend s [w32 (0x81 * 2 ^ 24)] with boot := t.boot }))) ∧
    (∀ words,
      ((∀ src len, s.boot.pos ≠ .pushing src len) → s.boot.pos ≠ .jtag → exec (.pushData words) s = .next (settle s)) ∧
      (s.boot.pos = .jtag → exec (.pushData words) s =
        .next (settle { s with boot := { s.boot with push := s.boot.push ++ wordsToBytes words } })) ∧
      (∀ src len, s.boot.pos = .pushing src len → words ≠ [] → words.length ≤ 63 →
        let buf := (s.boot.push ++ wordsToBytes words).take len
        let gathered : State := { s with boot := { s.boot with push := buf } }
        (s.boot.image = none → headComplete buf = false → (buf.length < 0x100 ∨ headerOk buf = true) →
          exec (.pushData words) s = .next (settle gathered)) ∧
        (0x100 ≤ buf.length → headerOk buf = false → exec (.pushData words) s = .next (settle (sourceFail gathered src 3 1 0))))) ∧
    ((∀ src len, s.boot.pos ≠ .pushing src len) → s.boot.pos ≠ .jtag → (∀ n, s.boot.pos ≠ .reflash n) → exec .pushEnd s = .next (settle s)) ∧
    (s.boot.pos = .jtag → s.boot.push.length < 0x100 → exec .pushEnd s = .next (settle s)) ∧
    (s.boot.pos = .jtag → 0x100 ≤ s.boot.push.length → exec .pushEnd s = .next (settle (jtagImage s))) ∧
    (∀ n, s.boot.pos = .reflash n → ∃ t, exec .pushEnd s = .next (settle t) ∧ t.block = .reset ∧ t.time = s.time ∧
      t.boot.attempts = s.boot.attempts ∧ t.boot.journal = s.boot.journal ∧ t.tmp.alarm = s.tmp.alarm ∧
      t.fuse.unlockLatch = s.fuse.unlockLatch) ∧
    (∀ src len, s.boot.pos = .pushing src len →
      (s.boot.image = none → exec .pushEnd s = .next (settle (sourceFail s src 3 (if s.boot.push.length < 0x100 then 1 else 6) 0))) ∧
      (∀ m, s.boot.image = some m → s.boot.cache.length ≠ m.blocks → exec .pushEnd s = .next (settle (sourceFail s src 5 6 0))) ∧
      (∀ m, s.boot.image = some m → s.boot.cache.length = m.blocks → exec .pushEnd s = .next (settle (imageAccepted s src m)))) ∧
    (s.boot.pos = .offer 2 →
      (s.fuse.sensed.noRecovery = true → stopped s = false → ∃ t, exec .pushWaitTimeout s = .next (settle t) ∧ t.block = .halted ∧
        t.pins.halt = (if 8 ≤ s.boot.attempts then 0x2F else 0x2E)) ∧
      (s.fuse.sensed.noRecovery = false → ∃ t, exec .pushWaitTimeout s = .next (settle t) ∧ t.boot.pos = .offer 4 ∧ t.boot.step = 3 ∧
        t.boot.reason = 12 ∧ t.boot.hostWait = true ∧ t.fuse = s.fuse ∧ t.sbox = s.sbox)) ∧
    (s.boot.pos ≠ .offer 2 → exec .pushWaitTimeout s = .next (settle s))) ∧
  (∀ s (ok : Bool) (bytes : List Byte),
    (s.boot.flash = none → exec (.flashReadDone ok bytes) s = .next (settle s)) ∧
    (∀ q, s.boot.flash = some q → curLoad s = none → s.boot.protect = false →
      let bs := slice bytes 0 q.length
      let s1 : State := { s with boot := { s.boot with flash := none } }
      (∀ src, s.boot.pos = .fetch src →
        ((ok = false ∨ headerOk (s.boot.push ++ bs) = false) →
          exec (.flashReadDone ok bytes) s = .next (settle (sourceFail s1 src 3 1 0))) ∧
        (ok = true → headerOk (s.boot.push ++ bs) = true → (s.boot.push ++ bs).length < headLen (s.boot.push ++ bs) →
          ∃ t, exec (.flashReadDone ok bytes) s = .next (settle t) ∧ t.boot.push = s.boot.push ++ bs ∧ t.boot.flash ≠ none ∧
            t = { s with boot := t.boot })) ∧
      (∀ src i m, s.boot.pos = .block src i → s.boot.image = some m →
        (ok = false → exec (.flashReadDone ok bytes) s = .next (settle (sourceFail s1 src 5 10 i))) ∧
        (ok = true → blockOk m i bs = false → exec (.flashReadDone ok bytes) s = .next (settle (sourceFail s1 src 5 9 i))) ∧
        (ok = true → blockOk m i bs = true → i + 1 < m.blocks → ∃ t, exec (.flashReadDone ok bytes) s = .next (settle t) ∧
          t.boot.cache = smSet [] s.boot.cache i bs ∧ t.boot.pos = .block src (i + 1) ∧ t.boot.flash ≠ none ∧ t = { s with boot := t.boot }) ∧
        (ok = true → blockOk m i bs = true → m.blocks ≤ i + 1 →
          exec (.flashReadDone ok bytes) s = .next (settle (imageAccepted (cacheBlock s1 i bs) src m))))))

/-- R64, R65, R131, R146, R147: sites. SITE_READY raises its input. A site that is not ready after 50 ms leaves its group with reason 13,
the others stay; STAGED lets the load of a staged image go on, is refused for its origin with 11 and for its length with 6; without it the
sites fail with 12. The limit of a site's DRAIN lets the hold go on without it. R143: CORE_RELEASE releases the service cores that passed
their test, from BC once S6 has locked the root; each owes a heartbeat from now on. Any other writer is refused. -/
def Obligations.SitesAndCores : Prop :=
  (∀ s (site : BitVec 4),
    (exec (.siteReady site) s = .next (settle { s with pins := { s.pins with
      siteReady := s.pins.siteReady ||| BitVec.ofNat 16 (2 ^ site.toNat) } })) ∧
    (∀ l, curLoad s = some l → l.pos = .ready → l.why = .boot → l.sites.contains site.toNat = true →
      s.pins.siteReady.getLsbD site.toNat = false →
      ∃ t, exec (.siteReadyTimeout site) s = .next (settle t) ∧ (siteInfo t site.toNat).reason = 13 ∧
        (siteInfo t site.toNat).released = false ∧ (∀ k, k ≠ site.toNat → siteInfo t k = siteInfo s k) ∧ t = { s with boot := t.boot }) ∧
    ((∀ l, curLoad s = some l → l.pos ≠ .ready ∨ l.sites.contains site.toNat = false ∨ s.pins.siteReady.getLsbD site.toNat = true) →
      exec (.siteReadyTimeout site) s = .next (settle s)) ∧
    (∀ (origin : Byte) (length : DWord) l, curLoad s = some l → l.pos = .staged →
      (originOk s origin.toNat = true → length.toNat ≤ s.boot.stageSize →
        exec (.staged origin length) s = .next (settle (setLoad { s with boot := { s.boot with hostWait := false } }
          { l with pos := .ready, length := length.toNat }))) ∧
      (l.why = .boot → (originOk s origin.toNat = false ∨ s.boot.stageSize < length.toNat) →
        ∃ t, exec (.staged origin length) s = .next (settle t) ∧ t.boot.hostWait = false ∧
          (l.sites ≠ [] → t.boot.reason = if originOk s origin.toNat then 6 else 11) ∧ (∀ k ∈ l.sites, siteInfo t k = { siteInfo s k with
            released := false, reason := if originOk s origin.toNat then 6 else 11 }) ∧ t = { s with boot := t.boot }) ∧
      (l.why = .boot → ∃ t, exec .stagedTimeout s = .next (settle t) ∧ t.boot.hostWait = false ∧
        (∀ k ∈ l.sites, siteInfo t k = { siteInfo s k with released := false, reason := 12 }) ∧ t = { s with boot := t.boot })) ∧
    (curLoad s = none → (∀ origin length, exec (.staged origin length) s = .next (settle s)) ∧ exec .stagedTimeout s = .next (settle s)) ∧
    (∀ a, siteCtrl s site.toNat = some a → s.cpb.waiting = [] → exec (.siteDrainTimeout site) s = .next (settle { s with cpb := { s.cpb with
      flights := s.cpb.flights.filter (fun x => !(decide (x.frame.agent = a) && holdUse x.frame.use)) } })) ∧
    (siteCtrl s site.toNat = none → exec (.siteDrainTimeout site) s = .next (settle s))) ∧
  (∀ s w,
    (fabOk s .bc = true → s.sbox.lockRoot = true → s.boot.pos ≠ .release → ∀ data,
      let up := BitVec.ofNat 4 (fld data 3 1 * 2) &&& ~~~ s.boot.coreBist
      ∃ t, exec (.coreRelease .bc data) s = .next (settle t) ∧ t.cores.released = s.cores.released ||| up ∧
        (∀ c, c < 4 → smGet 0 t.cores.beat c =
          if up.getLsbD c = true ∧ s.cores.released.getLsbD c = false then s.time else smGet 0 s.cores.beat c) ∧
        t = { s with cores := { s.cores with released := t.cores.released, beat := t.cores.beat },
                     rsp := some { code := .ok, data := [] } }) ∧
    (fabOk s w = true → (w ≠ .bc ∨ s.sbox.lockRoot = false) → ∀ data,
      exec (.coreRelease w data) s = .next (settle { s with rsp := some { code := .eaccess, data := [] } })))

/-- R513: a write to TOP_HALT.CODE is performed only in BOOT and only for a value in 0x20 to 0x3F or 0x60 to 0x6F. A performed write halts
KX3 as R162 describes: the code on KX_HALT and in TOP_HALT.LAST, HALTED, every HUB_RST_N and SITE_HOLD_N bit and SHUTTER_N at 0, and a
HALT record in the journal where it is usable. Every other write is refused with EACCESS and changes nothing. -/
def Obligations.TopHaltWrite : Prop :=
  ∀ s w (code : Byte), fabOk s w = true →
    let permitted : Prop := s.block = .boot ∧ ((0x20 ≤ code.toNat ∧ code.toNat ≤ 0x3F) ∨ (0x60 ≤ code.toNat ∧ code.toNat ≤ 0x6F))
    (permitted → ∃ u, exec (.topHaltWrite w code) s = .next u ∧ u.block = .halted ∧ u.pins.halt = code ∧ u.pins.hubRstN = 0 ∧
      u.pins.siteHoldN = 0 ∧ u.pins.shutterN = false ∧ fld (reg u 0x4C) 15 8 = code.toNat ∧
      (s.boot.journalOk = true → ∃ r, smGet none u.boot.journal s.boot.jnext = some r ∧ r.event = 9 ∧ r.detail = BitVec.ofNat 96 code.toNat)) ∧
    (¬ permitted → exec (.topHaltWrite w code) s = .next { s with rsp := some { code := .eaccess, data := [] } })

/-! ## Power, tamper, faults and registers (chapters 2, 3, 17, 18) -/

/-- R69, R504, R505: the handshake with the hub power controller. KX_PWR_ACK at 1 takes KX_PWR_REQ back, at 0 ends the request; the end of
the request for KX3 itself switches the core island off or on, a start from which is a wake; 10 ms of silence halt with 0x61. A wake edge
is latched. R61, R68, R69, R498, R500, R507: power domains and sleep. A fall of PD_STATUS drives the domain's reset and its agents count
as reset, with empty tables, and a sequence that had released the domain goes back to step 3; PWR_CMD DOMAIN starts a sequence or gives BAD_DOMAIN or BUSY, PWR_CMD SLEEP begins the grace of a sleep entry or gives the
reason that refuses it. No domain from 40 on exists. -/
def Obligations.PowerRows : Prop :=
  (∀ s,
    (exec .kxWake s = .next (settle { s with pwr := { s.pwr with wakeLatch := true } })) ∧
    (s.pwr.asked = false → (∀ b, exec (.pwrAck b) s = .next (settle s)) ∧ exec .pwrAckTimeout s = .next (settle s)) ∧
    (∀ r rest, s.pwr.asked = true → s.pwr.queue = r :: rest →
      (exec (.pwrAck true) s = .next (settle { s with pins := { s.pins with pwrReq := false } })) ∧
      (s.pins.pwrReq = true → exec (.pwrAck false) s = .next (settle s)) ∧
      (s.pins.pwrReq = false → r.dom ≠ 63 → s.pwr.doms = [] → rest = [] →
        exec (.pwrAck false) s = .next (settle { s with pwr := { s.pwr with asked := false, queue := [] } })) ∧
      (s.block = .sleep → s.pins.pwrReq = false → r.dom = 63 → r.state = 0 → ∃ t, exec (.pwrAck false) s = .next (settle t) ∧ t.block = .sleep ∧
        t.sbox = State.reset.sbox ∧ t.sram = [] ∧ t.boot.armed = s.boot.armed ∧ t.boot.sleepDigest = s.boot.sleepDigest ∧
        t.part.versions = s.part.versions ∧ t.att.sealedArea = s.att.sealedArea ∧ t.time = s.time) ∧
      (s.block = .sleep → s.pins.pwrReq = false → r.dom = 63 → r.state ≠ 0 → ∃ t, exec (.pwrAck false) s = .next (settle t) ∧ t.block = .reset ∧
        t.boot.wakeStart = true ∧ t.pwr.wakes = satAdd 65535 s.pwr.wakes 1 ∧ t.boot.armed = s.boot.armed ∧ t.time = s.time)) ∧
    (s.pwr.asked = true → stopped s = false → ∃ t, exec .pwrAckTimeout s = .next (settle t) ∧ t.block = .halted ∧ t.pins.halt = 0x61 ∧
      t.pins.pwrReq = false ∧ t.pwr.queue = [] ∧ t.pwr.waking = false)) ∧
  (∀ s,
    (∀ d : BitVec 6, 40 ≤ d.toNat →
      exec (.pdStatusFall d) s = .fault .noSuchDomain ∧ exec (.pdStatusRise d) s = .fault .noSuchDomain ∧
      exec (.domainPowerTimeout d) s = .fault .noSuchDomain) ∧
    (∀ d : BitVec 6, d.toNat < 40 →
      (∃ t, exec (.pdStatusFall d) s = .next (settle t) ∧
        (∀ i, i < 40 → t.pins.pdStatus.getLsbD i = (s.pins.pdStatus.getLsbD i && i ≠ d.toNat)) ∧
        (∀ i, i < 40 → t.pins.hubRstN.getLsbD i = (s.pins.hubRstN.getLsbD i && i ≠ d.toNat)) ∧
        (∀ a ∈ domainAgents s d.toNat, (agent t a).seq = 0 ∧ (agent t a).kekValid = false ∧
          t.cpb.flights.all (fun x => decide (x.frame.agent ≠ a)) = true) ∧
        (∀ a, a ∉ domainAgents s d.toNat → agent t a = agent s a) ∧
        (∀ a ∈ domainAgents s d.toNat, ∀ x ∈ t.part.live ++ t.part.shadow, x.1 / 2 ^ 24 ≠ a) ∧
        (∀ x, (∀ a ∈ domainAgents s d.toNat, x.1 / 2 ^ 24 ≠ a) → (x ∈ t.part.live ↔ x ∈ s.part.live) ∧ (x ∈ t.part.shadow ↔ x ∈ s.part.shadow)) ∧
        (∀ q ∈ s.pwr.doms, q.dom = d.toNat → q.step = 4 ∨ q.step = 5 → { q with step := 3 } ∈ t.pwr.doms) ∧
        t.part = { s.part with live := t.part.live, shadow := t.part.shadow } ∧ t.pwr = { s.pwr with doms := t.pwr.doms } ∧
        t = { s with cpb := t.cpb, part := t.part, pwr := t.pwr,
                     pins := { s.pins with pdStatus := t.pins.pdStatus, hubRstN := t.pins.hubRstN } }) ∧
      (∃ t, exec (.pdStatusRise d) s = .next (settle t) ∧
        (∀ i, i < 40 → t.pins.pdStatus.getLsbD i = (s.pins.pdStatus.getLsbD i || i = d.toNat)) ∧
        t.pwr.doms = s.pwr.doms ++ (if serving s = true ∧ s.pins.pdStatus.getLsbD d.toNat = false ∧ s.pins.hubRstN.getLsbD d.toNat = false ∧
          (∀ q ∈ s.pwr.doms, q.dom ≠ d.toNat) then [{ dom := d.toNat, why := .recover, step := 0 }] else []) ∧
        t = { s with pins := { s.pins with pdStatus := t.pins.pdStatus }, pwr := { s.pwr with doms := t.pwr.doms } }) ∧
      (s.block ≠ .boot → (∀ q ∈ s.pwr.doms, q.dom ≠ d.toNat ∨ q.step ≠ 3) → exec (.domainPowerTimeout d) s = .next (settle s)) ∧
      (∀ q, s.block ≠ .boot → s.pwr.doms = [q] → q.dom = d.toNat → q.step = 3 → s.pins.pdStatus.getLsbD d.toNat = false →
        domainAgents s d.toNat = [] →
        exec (.domainPowerTimeout d) s = .next (settle { s with pwr := { s.pwr with doms := [{ q with step := 4 }] } })) ∧
      (s.block = .boot → s.boot.pos = .layout → (missingDomains s).contains d.toNat = true →
        ∃ t, exec (.domainPowerTimeout d) s = .next (settle t) ∧ t.block = .halted ∧ t.pins.halt = 0x62)) ∧
    (∀ w (d : BitVec 6) (st : BitVec 2), fabOk s w = true →
      let named : State := setReg (answer s .ok) 0x14040 (putFld (putFld (reg s 0x14040) 12 7 d.toNat) 6 5 st.toNat)
      let gives (r : Nat) : Prop := exec (.pwrDomain w d st) s = .next (settle { named with pwr := { s.pwr with result := r } })
      (s.pwr.busy = true → gives 3) ∧
      (s.pwr.busy = false → (40 ≤ d.toNat ∨ st = 3) → gives 2) ∧
      (s.pwr.busy = false → d.toNat < 40 → st ≠ 3 → (s.epoch.window = true ∨ s.pwr.doms ≠ [] ∨ s.pwr.phase ≠ 0) → gives 3) ∧
      (s.pwr.busy = false → d.toNat < 40 → st ≠ 3 → s.epoch.window = false → s.pwr.doms = [] → s.pwr.phase = 0 →
        exec (.pwrDomain w d st) s = .next (settle { named with pwr := { s.pwr with
          busy := true, doms := [{ dom := d.toNat, why := .powerFw st.toNat, step := 0 }] } }))) ∧
    (∀ w (g : BitVec 14), fabOk s w = true →
      let named : State := setReg (answer s .ok) 0x14040 (putFld (reg s 0x14040) 26 13 g.toNat)
      (s.pwr.busy = true → exec (.pwrSleep w g) s = .next (settle { named with pwr := { s.pwr with result := 3 } })) ∧
      (s.pwr.busy = false → sleepRefused s g.toNat s.pwr.staged.toNat = 4 →
        exec (.pwrSleep w g) s = .next (settle { named with pwr := { s.pwr with result := 4 } })) ∧
      (s.pwr.busy = false → sleepRefused s g.toNat s.pwr.staged.toNat = 1 →
        exec (.pwrSleep w g) s = .next (settle { named with pwr := { s.pwr with result := 1 } })) ∧
      (s.pwr.busy = false → sleepRefused s g.toNat s.pwr.staged.toNat = 0 → ∃ t, exec (.pwrSleep w g) s = .next (settle t) ∧
        t.pwr = { s.pwr with result := 0, busy := true, phase := 1, grace := g.toNat, retain := s.pwr.staged, graceDone := false,
                             started := s.time, noDigest := false } ∧ t.block = s.block ∧ t.pins = s.pins ∧ t.sbox = s.sbox)) ∧
    (exec .sleepGraceEnd s = .next (settle (if s.pwr.phase = 1 then { s with pwr := { s.pwr with graceDone := true } } else s))))

/-- R470, R477, R514: the inputs of the tamper page and of TOP. A condition shows in TMP_RAW, and in TMP_IN for the sources 0 to 15, until
it ends; source 31 does not exist. KX_TREF above 2 % sets BAD; VT keeps the slowest band until CLR. A heartbeat notes the time for its
core. R471 to R474, Tables 17-2, 6-13: a confirmed alarm of an armed source fires the Shutter: every key slot, the root and the roots of
the pod are erased, SHUTTER_N is 0, the alarm is counted and the first one kept. KX3 halts in BOOT, with 0x41 once the root is valid and
0x40 before, and goes to SAFE from RUN and DEGRADED; in RESET the record is left pending. Once the Shutter has fired nothing more happens.
-/
def Obligations.TamperRows : Prop :=
  (∀ s,
    (∀ src : BitVec 5, src.toNat ≠ 31 →
      (∃ u, exec (.tamperCondition src) s = .next u ∧ u.tmp.raw = s.tmp.raw ||| BitVec.ofNat 32 (2 ^ src.toNat) ∧
        (16 ≤ src.toNat → u.pins = s.pins) ∧ (src.toNat < 16 → u.pins = { s.pins with tmpIn := u.tmp.raw.truncate 16 }) ∧
        u = { s with pins := u.pins, tmp := { s.tmp with raw := u.tmp.raw } }) ∧
      (∃ u, exec (.tamperConditionEnd src) s = .next u ∧ u.tmp.raw = s.tmp.raw &&& ~~~ BitVec.ofNat 32 (2 ^ src.toNat) ∧
        (16 ≤ src.toNat → u.pins = s.pins) ∧ (src.toNat < 16 → u.pins = { s.pins with tmpIn := u.tmp.raw.truncate 16 }) ∧
        u = { s with pins := u.pins, tmp := { s.tmp with raw := u.tmp.raw } })) ∧
    (∀ src : BitVec 5, src.toNat = 31 → exec (.tamperCondition src) s = .fault .noSuchSource ∧
      exec (.tamperConditionEnd src) s = .fault .noSuchSource ∧ exec (.alarmConfirmed src) s = .fault .noSuchSource) ∧
    (∀ dev : BitVec 16, ∃ u, exec (.trefDeviation dev) s = .next u ∧ u.tmp.trefDev = Nat.max s.tmp.trefDev dev.toNat ∧
      u.tmp.trefBad = (s.tmp.trefBad || decide (200 < dev.toNat)) ∧
      (dev.toNat ≤ 200 → u = { s with tmp := { s.tmp with trefDev := u.tmp.trefDev } }) ∧
      u = { s with tmp := u.tmp, ledger := u.ledger, hdrs := u.hdrs, irq := u.irq, hip := u.hip, qos := u.qos }) ∧
    (exec .trefBadClear s = .next { s with tmp := { s.tmp with trefBad := false } }) ∧
    (∀ (band : BitVec 2) tj, ∃ u, exec (.timingBandChange band tj) s = .next u ∧ u.tmp.tj = tj ∧ u.tmp.band = band.toNat ∧
      (s.tmp.band ≤ s.tmp.slowest → u.tmp.slowest = Nat.max s.tmp.slowest band.toNat) ∧
      u = { s with tmp := u.tmp, hdrs := u.hdrs, irq := u.irq, hip := u.hip, qos := u.qos }) ∧
    (∀ w, fabOk s w = true → exec (.topVtClr w) s = .next (answer { s with tmp := { s.tmp with slowest := s.tmp.band } } .ok)) ∧
    (∀ w, fabOk s w = true → w ≠ .jtag →
      exec (.heartbeatWrite w) s = .next (answer { s with cores := { s.cores with beat := smSet 0 s.cores.beat w.num s.time } } .ok))) ∧
  (∀ s (src : BitVec 5), src.toNat ≠ 31 →
    ((s.tmp.shutter = true ∨ sourceArmed s src.toNat = false) → exec (.alarmConfirmed src) s = .next s) ∧
    (s.tmp.shutter = false → sourceArmed s src.toNat = true → ∃ u, exec (.alarmConfirmed src) s = .next u ∧
      u.tmp.shutter = true ∧ u.tmp.alarm = true ∧ u.tmp.alarms = satAdd 65535 s.tmp.alarms 1 ∧ u.sbox.slots = [] ∧ u.sbox.root = 0 ∧
      u.sbox.rootValid = false ∧ u.sbox.podRoot = 0 ∧ u.sbox.podRootValid = false ∧ u.pins.shutterN = false ∧ u.fuse.unlockLatch = false ∧
      u.att.sealedArea = [] ∧ u.boot.armed = false ∧ u.rng.dead = true ∧ u.anvil.mem = [] ∧
      u.tmp.first = (match s.tmp.first with | some f => some f | none => some (src.toNat, alarmMoment s)) ∧
      u.block = (match s.block with
        | .sense => .halted | .boot => .halted | .run => .safe | .degraded => .safe | b => b) ∧
      (s.block = .boot → u.pins.halt = (if s.sbox.rootValid then 0x41 else 0x40)) ∧ (s.block = .reset → u.tmp.pend = true) ∧
      (s.block = .sleep → u.tmp.sleepTamper = true) ∧ u.part.pshared = s.part.pshared ∧ u.sram = s.sram))

/-- R483 to R487, R480, R430: faults. A fault of a core that runs holds it and records it; SC3, when it stands by, takes the work of SC1
or SC2, and KX3 is DEGRADED; without it KX3 goes to SAFE, as it does when SC3 faults while it holds work. A fault of an idle SC3 leaves
no standby, a fault of BC in service leaves BC held, and an exception in the ROM halts with 0xF1. A correctable error is recorded. An
uncorrectable error in the memory of a running tenant begins its Quench, one elsewhere but in the Ledger goes to SAFE, and one in the
Ledger leaves its record suspect; an Assay array that fails its logic BIST, after three disagreements, is taken out. -/
def Obligations.Faults : Prop :=
  ∀ s,
    (∀ (c : BitVec 2) (parity : Bool), coreRuns s c.toNat = false → exec (.coreFault c parity) s = .next (settle s)) ∧
    (∀ c : BitVec 2, (coreRuns s c.toNat = false ∨ beatDue s c.toNat = false) → exec (.heartbeatTimeout c) s = .next (settle s)) ∧
    (∀ (c : BitVec 2), coreRuns s c.toNat = true → (c = 1 ∨ c = 2) → s.block = .run → s.pwr.phase = 0 →
      ∀ i ∈ [Instr.coreFault c false, .coreFault c true, .heartbeatTimeout c],
        (standby s = true → ∃ t, exec i s = .next (settle t) ∧ t.block = .degraded ∧ t.cores.work = c.toNat ∧
          t.cores.failed = s.cores.failed ||| BitVec.ofNat 4 (2 ^ c.toNat) ∧ t.fuse = s.fuse ∧ t.sbox = s.sbox) ∧
        (standby s = false → ∃ t, exec i s = .next (settle t) ∧ t.block = .safe ∧ t.pins.hubRstN = 0 ∧ t.pins.siteHoldN = 0 ∧
          t.cores.failed = s.cores.failed ||| BitVec.ofNat 4 (2 ^ c.toNat) ∧ t.fuse = s.fuse)) ∧
    (coreRuns s 0 = true → serving s = true → ∀ i ∈ [Instr.coreFault 0 false, .coreFault 0 true, .heartbeatTimeout 0],
      ∃ t, exec i s = .next (settle t) ∧ t.cores.failed = s.cores.failed ||| 1 ∧ t.block = s.block ∧ t.fuse = s.fuse ∧ t.sbox = s.sbox) ∧
    (coreRuns s 0 = true → s.block = .boot → 1 ≤ s.boot.step → s.boot.step ≤ 6 →
      ∃ t, exec (.coreFault 0 false) s = .next (settle t) ∧ t.block = .halted ∧ t.pins.halt = 0xF1) ∧
    (coreRuns s 3 = true → ∀ i ∈ [Instr.coreFault 3 false, .coreFault 3 true, .heartbeatTimeout 3],
      let holds : Prop := s.cores.work ≠ 0 ∨ s.cores.failed.getLsbD 1 = true ∨ s.cores.failed.getLsbD 2 = true
      (holds → ∃ t, exec i s = .next (settle t) ∧ t.block = .safe ∧ t.cores.failed = s.cores.failed ||| 8) ∧
      (¬ holds → ∃ t, exec i s = .next (settle t) ∧ t.block = s.block ∧ t.cores.failed = s.cores.failed ||| 8 ∧
        t.cores.standbyLost = true ∧ t.fuse = s.fuse)) ∧
    (∀ mem unc pid off, coresLive s = false → exec (.sramError mem unc pid off) s = .next (settle s)) ∧
    (∀ (mem : BitVec 3) pid off, coresLive s = true → mem ≠ 1 → ∃ t, exec (.sramError mem false pid off) s = .next (settle t) ∧
      t = { s with ledger := t.ledger, hdrs := t.hdrs, irq := t.irq, hip := t.hip, qos := t.qos } ∧
      t.ledger = (record s 0x0023 0 1 0 (2 * mem.toNat) off.toNat).ledger) ∧
    (∀ pid off, coresLive s = true → exec (.sramError 1 false pid off) s = .next (settle s)) ∧
    (∀ (mem : BitVec 3) pid off, coresLive s = true → mem = 1 ∨ mem = 2 →
      ∃ t, exec (.sramError mem true pid off) s = .next (settle t) ∧ t.block = .safe ∧ t.cores.safeCause = 1 ∧ t.pins.hubRstN = 0) ∧
    (∀ (mem : BitVec 3) pid off, coresLive s = true → 3 ≤ mem.toNat → ∃ t, exec (.sramError mem true pid off) s = .next (settle t) ∧
      (∀ k, smGet none t.ledger.slots k = if k = off.toNat / 4 % 4096
        then (smGet none s.ledger.slots k).map (fun r => { r with damaged := true }) else smGet none s.ledger.slots k) ∧
      t = { s with ledger := { s.ledger with slots := t.ledger.slots } }) ∧
    (∀ (pid : Byte) off, coresLive s = true → tenant pid.toNat = true → pstate s pid.toNat = .running →
      ∃ t, exec (.sramError 0 true pid off) s = .next (settle t) ∧ pstate t pid.toNat = .quenching ∧
        (∃ q ∈ t.qn.active, q.pid = pid.toNat ∧ q.esc = true) ∧ (∀ p, p ≠ pid.toNat → pshared t p = pshared s p) ∧ t.block = s.block) ∧
    (∀ (pid : Byte) off, coresLive s = true → tenant pid.toNat = false →
      ∃ t, exec (.sramError 0 true pid off) s = .next (settle t) ∧ t.block = .safe ∧ t.cores.safeCause = 1 ∧ t.pins.hubRstN = 0) ∧
    (∀ (a : BitVec 4), serving s = true → 3 ≤ (smGet [] s.tmp.disagree a.toNat).length →
      (exec (.arrayBistDone a true) s = .next { s with tmp := { s.tmp with disagree := smSet [] s.tmp.disagree a.toNat [] } }) ∧
      (s.cores.arrays.getLsbD a.toNat = true → ∃ u, exec (.arrayBistDone a false) s = .next u ∧ u.block = .degraded ∧
        u.cores = { s.cores with arrays := s.cores.arrays &&& ~~~ BitVec.ofNat 16 (2 ^ a.toNat) } ∧ u.part = s.part ∧ u.fuse = s.fuse)) ∧
    (∀ (a : BitVec 4) p, (serving s = false ∨ (smGet [] s.tmp.disagree a.toNat).length < 3) → exec (.arrayBistDone a p) s = .next s)

/-- R79 to R92, Table 3-9: register writes. A write that passes is performed under the register's mask and changes no other register, an
RO register keeps its value, a write to an undefined address is answered EDECODE and one to a place that the tag does not reach EACCESS,
both with nothing written; an event bit is cleared by writing 1; a write to a command register performs that command, and is refused
as it is. R84, R88 to R92: a read of a beat returns its registers, and changes nothing unless one is a _LO, whose pair it latches; one
that the tag does not reach returns EPOISON and zeros; a write of a _HI takes the staged low half with it; PG_LOCK sets the lock of its
page, which no write clears. That the reserved slot 0x7000 of a window is in service in RUNNING alone is the model's (DESIGN CHOICE, log
entry 80). -/
def Obligations.RegisterWrites : Prop :=
  (∀ s a (w : Word) (addr : BitVec 23), addr.toNat = a / 8 * 8 → a % 4 = 0 →
    (∀ tag id pid p o, locate a = .win pid p o →
      let src := Src.hcp tag id
      (passes s src (.win pid p o) true →
        (∀ m, kindAt (locate a) = .rw m → ∃ u, exec (.registerWrite src addr (oneWord a w)) s = .next (respond u src .ok) ∧
          reg u a = w &&& w32 m ∧ (∀ b, b ≠ a → reg u b = reg s b) ∧ u = { s with regs := u.regs }) ∧
        (∀ m, kindAt (locate a) = .lo m → exec (.registerWrite src addr (oneWord a w)) s =
          .next (respond { s with wstage := smSet 0 s.wstage a w } src .ok)) ∧
        (kindAt (locate a) = .ro → exec (.registerWrite src addr (oneWord a w)) s = .next (respond s src .ok)) ∧
        (∀ f, kindAt (locate a) = .own → rowAt src a w = some f → exec (.registerWrite src addr (oneWord a w)) s =
          .next (match runRow f s with | (.ok, t) => respond t src .ok | (r, _) => refuse s src (.win pid p o) a r)) ∧
        (kindAt (locate a) = .undef → exec (.registerWrite src addr (oneWord a w)) s =
          .next (refuse s src (.win pid p o) a .edecode)) ∧
        (o = 0x10 → p ≤ 6 → ∃ u, exec (.registerWrite src addr (oneWord a w)) s = .next (respond u src .ok) ∧
          (hdr u (pgWin pid p)).event = (hdr s (pgWin pid p)).event &&& ~~~w ∧ (hdr u (pgWin pid p)).evmask = (hdr s (pgWin pid p)).evmask ∧
          u = { s with hdrs := u.hdrs })) ∧
      (hcpTakes s = true → s.block ≠ .sleep → reaches s tag (.win pid p o) = false →
        ∃ u, exec (.registerWrite src addr (oneWord a w)) s = .next u ∧
          u = { s with rsp := u.rsp, qos := u.qos, ledger := u.ledger, hdrs := u.hdrs, irq := u.irq, hip := u.hip } ∧
          (sealed s (tagPid tag) = false → u.rsp = some { code := .eaccess, data := [], id := id }))) ∧
    (∀ c p o m, locate a = .fw p o → fabOk s c = true → fwBarred s c (.fw p o) = none → kindAt (.fw p o) = .rw m →
      ∃ u, exec (.registerWrite (.fab c) addr (oneWord a w)) s = .next (answer u .ok) ∧
        (let k := plainKey (.fab c) (.fw p o) a
         reg u k = w &&& w32 m ∧ ∀ b, b ≠ k → reg u b = reg s b) ∧ u = { s with regs := u.regs }) ∧
    (∀ c, fabOk s c = false → exec (.registerWrite (.fab c) addr (oneWord a w)) s = .next s)) ∧
  (∀ s tag write pid o, s.block ≠ .reset → s.block ≠ .sleep → reaches s tag (.win pid 7 o) = true →
    hcpCheck s tag write (.win pid 7 o) = if sleepShut s = false ∧ pstate s pid = .running then none else some .edown) ∧
  (∀ s tag id (addr : BitVec 23) pid p o, locate addr.toNat = .win pid p o → addr.toNat % 4 = 0 →
    let src := Src.hcp tag id
    let a := addr.toNat
    (∀ v, a % 8 = 0 → passes s src (.win pid p o) false → pairValue s src a = some v →
      exec (.readLoLatch src ⟨addr, 1⟩) s =
        .next (respond { s with latch := smSet 0 s.latch a (BitVec.ofNat 64 v) } src .ok [BitVec.ofNat 64 v])) ∧
    (a % 8 = 0 → passes s src (.win pid p o) false → pairValue s src a = none → pairValue s src (a + 4) = none → pairLow (locate a) = false →
      (4 ≤ a → pairLow (locate (a - 4)) = false) → noteAt (locate (a + 4)) = none → rxWindow a 1 = none →
      exec (.readLoLatch src ⟨addr, 1⟩) s = .next (respond s src .ok
        [BitVec.ofNat 64 (regWord s src (locate a) a % 2 ^ 32 + 2 ^ 32 * (regWord s src (locate (a + 4)) (a + 4) % 2 ^ 32))])) ∧
    (∀ n : BitVec 10, hcpTakes s = true → s.block ≠ .sleep → reaches s tag (.win pid p o) = false → shapeOk a n.toNat = true → 1 ≤ n.toNat →
      ∃ u, exec (.readLoLatch src ⟨addr, n⟩) s = .next u ∧
        u = { s with rsp := u.rsp, qos := u.qos, ledger := u.ledger, hdrs := u.hdrs, irq := u.irq, hip := u.hip } ∧
        (sealed s (tagPid tag) = false → u.rsp = some { code := .epoison, data := List.replicate n.toNat 0, id := id })) ∧
    (∀ n, hcpTakes s = false → exec (.readLoLatch src ⟨addr, n⟩) s = .next s) ∧
    (∀ m n hi, a % 8 = 4 → kindAt (locate a) = .hi m → kindAt (locate (a - 4)) = .lo n → passes s src (.win pid p o) true →
      ∃ u, exec (.writeHiCommit src addr hi) s = .next (respond u src .ok) ∧ reg u a = hi &&& w32 m ∧
        reg u (a - 4) = smGet 0 s.wstage (a - 4) &&& w32 n ∧ (∀ b, b ≠ a → b ≠ a - 4 → reg u b = reg s b) ∧
        u = { s with regs := u.regs, wstage := u.wstage }) ∧
    (p ≤ 6 → passes s src (.win pid p 0x1C) true →
      ∃ u, exec (.pgLockSet src addr) s = .next (respond u src .ok) ∧ hdr u (pgWin pid p) = { hdr s (pgWin pid p) with lock := true } ∧
        (∀ k, k ≠ pgWin pid p → hdr u k = hdr s k) ∧ u = { s with hdrs := u.hdrs }) ∧
    (∀ w : Word, p ≤ 6 → passes s src (.win pid p 0x1C) true → (hdr s (pgWin pid p)).lock = true →
      (hdr (registerWrite s src (a / 4096 * 4096 + 0x1C) w) (pgWin pid p)).lock = true))

/-! ## Fuses, the Strongbox and the engines (chapters 4, 6, 7) -/

/-- R117 to R123, R155, R516: FUSE_CMD. Only BC is served, and a command in progress answers 11. READ_RAW gives the cells of a row that is
not hidden and zeros with 7 for one that is, or for the spare of one; READ_DECODED refuses spares. A programming command writes FUSE_BEGIN,
is refused for a row that does not exist (8), a reserved row (9), an area that is not enabled (4), a supply below (1) or above (2) its
window, and otherwise starts with the cells of its pattern, none of which is programmed before it ends. PROGRAM_SECRET of the first row
of the next owner slot begins an owner change. The end of a programming operation gives its cells the value 1, but for those that failed,
with result 6 when one did; a supply that leaves its window ends it with 3 and the cells that were complete; no cell goes back to 0.
SVN_COUNTER_ADVANCE programs the next group of the counter. -/
def Obligations.FuseCommands : Prop :=
  (∀ s,
    (∀ w, fabOk s w = true → w ≠ .bc → ∀ v g c, ∀ i ∈ [Instr.readRaw w, .readDecoded w, .programRow w v, .programGroup w v g,
      .programSecret w v, .programRaw w v c], ∃ u, exec i s = .next u ∧ u.fuse = s.fuse ∧ u.rsp = some { code := .eaccess, data := [] }) ∧
    (fabOk s .bc = true → s.fuse.busy = true → ∀ v g c, ∀ i ∈ [Instr.readRaw .bc, .readDecoded .bc, .programRow .bc v, .programGroup .bc v g,
      .programSecret .bc v, .programRaw .bc v c], exec i s = .next { answer s .ok with fuse := { s.fuse with result := 11 } }) ∧
    (fabOk s .bc = true → s.fuse.busy = false →
      let reads (i : Instr) (r : Nat) (data : DWord) (check : Byte) : Prop := ∃ u, exec i s = .next u ∧
        u.fuse = { s.fuse with result := r, busy := false, op := none, data := data, check := check } ∧
        u = { answer s .ok with fuse := u.fuse, hdrs := u.hdrs, free := u.free }
      (fuseTarget s.fuse.row = none → reads (.readRaw .bc) 8 s.fuse.data s.fuse.check ∧ reads (.readDecoded .bc) 8 s.fuse.data s.fuse.check) ∧
      (∀ k, fuseTarget s.fuse.row = some k →
        let raw : Prop := ∃ c : BitVec 72, (fuseMarginal s k = 0 → c = fuseCells s k) ∧ c &&& ~~~ (fuseCells s k ||| fuseMarginal s k) = 0 ∧
          fuseCells s k &&& ~~~ c = 0 ∧ reads (.readRaw .bc) 0 (BitVec.ofNat 64 c.toNat) (BitVec.ofNat 8 (c.toNat / 2 ^ 64))
        (k < 0x1000 → rowHidden k = true → reads (.readRaw .bc) 7 0 0) ∧
        (k < 0x1000 → rowHidden k = false → raw) ∧
        (0x1000 ≤ k → k < 0x2000 → spareHidden s (readNormal s s.free) (k - 0x1000) = true → reads (.readRaw .bc) 7 0 0) ∧
        (0x1000 ≤ k → k < 0x2000 → spareHidden s (readNormal s s.free) (k - 0x1000) = false → raw) ∧
        (0x2000 ≤ k → raw) ∧
        (0x1000 ≤ k → reads (.readDecoded .bc) 8 s.fuse.data s.fuse.check) ∧
        (k < 0x1000 → rowHidden k = true → reads (.readDecoded .bc) 7 0 0) ∧
        (k < 0x1000 → rowHidden k = false → rowKind k = .reserved → reads (.readDecoded .bc) 9 s.fuse.data s.fuse.check) ∧
        (k < 0x1000 → rowHidden k = false → ∀ c, c = rowRead (readNormal s s.free) (readNormal s s.free) k →
          ((rowKind k = .thermo ∨ rowKind k = .flag) → reads (.readDecoded .bc) 0 (BitVec.ofNat 64 (groupsOf c)) 0) ∧
          ((rowKind k = .ecc ∨ rowKind k = .dual) →
            (∀ d n, rowDecode (rowKind k) c = .data d n → reads (.readDecoded .bc) 0 d 0) ∧
            (rowDecode (rowKind k) c = .blank → reads (.readDecoded .bc) 0 0 0) ∧
            (rowDecode (rowKind k) c = .bad → reads (.readDecoded .bc) 12 0 0)))) ∧
      (∀ (v : BitVec 2) (g c : Byte), ∀ x ∈ ([(Instr.programRow .bc v, 3), (Instr.programGroup .bc v g, 4), (Instr.programSecret .bc v, 5),
          (Instr.programRaw .bc v c, 6)] : List (Instr × Nat)),
        let grp : Nat := if x.2 = 4 then g.toNat else 0
        let rom : Prop := s.block = .boot ∧ s.boot.step < 7
        let asked : State := { s with fuse := { s.fuse with
          group := if x.2 = 4 then g.toNat else s.fuse.group, check := if x.2 = 6 then c else s.fuse.check } }
        let framed (u : State) : Prop :=
          u.boot = { s.boot with journal := u.boot.journal, jnext := u.boot.jnext } ∧ (rom → u.boot = s.boot) ∧
          (¬ rom → s.boot.journalOk = true → ∃ b, smGet none u.boot.journal s.boot.jnext = some b ∧ b.event = 7 ∧
            b.detail = BitVec.ofNat 96 (requestDetail asked x.2)) ∧ u.fuse.cells = s.fuse.cells
        let gives (r : Nat) : Prop := ∃ u, exec x.1 s = .next u ∧ u.fuse.result = r ∧ u.fuse.busy = false ∧ framed u ∧
          u = { answer s .ok with fuse := u.fuse, boot := u.boot }
        (s.boot.fuseOpen = [] ∨ rom) → (x.2 = 5 → s.fuse.owner ≠ none ∨ s.fuse.row ≠ w32 (0x340 + 8 * ownerEpoch s)) →
        (fuseTarget s.fuse.row = none → gives 8) ∧
        (∀ k, fuseTarget s.fuse.row = some k →
          (rowReserved k = true → gives 9) ∧
          (rowReserved k = false → opFits x.2 k grp = false → gives 8) ∧
          (rowReserved k = false → opFits x.2 k grp = true →
            (areaEnabled s x.2 k = false → gives 4) ∧
            (areaEnabled s x.2 k = true → v = 0 → gives 1) ∧
            (areaEnabled s x.2 k = true → v ≠ 0 → v ≠ 1 → gives 2) ∧
            (areaEnabled s x.2 k = true → v = 1 →
              let want : BitVec 72 := if x.2 = 3 then eccCells s.fuse.data else if x.2 = 4 then groupMask g.toNat
                else BitVec.ofNat 72 (s.fuse.data.toNat + 2 ^ 64 * c.toNat)
              (x.2 = 3 → fuseCells s k &&& ~~~ want ≠ 0 → gives 5) ∧
              (x.2 = 4 → want &&& ~~~ fuseCells s k = 0 → ∃ u, exec x.1 s = .next u ∧ u.fuse.result = 0 ∧ u.fuse.busy = false ∧ framed u ∧
                u = { answer s .ok with fuse := u.fuse, boot := u.boot, hdrs := u.hdrs }) ∧
              (x.2 ≠ 5 → (x.2 = 3 → fuseCells s k &&& ~~~ want = 0) → (x.2 = 4 → want &&& ~~~ fuseCells s k ≠ 0) →
                ∃ u, exec x.1 s = .next u ∧ u.fuse.busy = true ∧ u.fuse.op = some { op := x.2, key := k, cells := want } ∧ framed u ∧
                  u = { answer s .ok with fuse := u.fuse, boot := u.boot }) ∧
              (x.2 = 5 → fuseCells s k = 0 → (∀ d, s.fuse.stage = some (k, d) →
                ∃ u, exec x.1 s = .next u ∧ u.fuse.busy = true ∧ u.fuse.op = some { op := 5, key := k, cells := eccCells d } ∧
                  u.fuse.stage = some (k, d) ∧ framed u)) ∧
              (x.2 = 5 → fuseCells s k = 0 → (∀ d, s.fuse.stage ≠ some (k, d)) →
                (drbgWaits s true = true → ∃ u, exec x.1 s = .next u ∧ u.fuse.busy = true ∧ u.fuse.await = some k ∧ u.fuse.op = s.fuse.op ∧
                  framed u) ∧
                (drbgWaits s true = false → drbgGrant s true = none → ∃ u, exec x.1 s = .next u ∧ u.fuse.busy = false ∧ u.fuse.result = 10 ∧
                  framed u) ∧
                (drbgWaits s true = false → drbgGrant s true ≠ none →
                  ∃ u d, exec x.1 s = .next u ∧ u.fuse.busy = true ∧ u.fuse.op = some { op := 5, key := k, cells := eccCells d } ∧
                    u.fuse.stage = some (k, d) ∧ framed u)))))) ∧
      (∀ d k, s.fuse.owner = none → s.boot.fuseOpen = [] → ownerEpoch s < 8 → k = 0x340 + 8 * ownerEpoch s → s.fuse.row = w32 k →
        areaEnabled s 5 k = true → fuseCells s k = 0 → s.fuse.stage = some (k, d) →
        ∃ u, exec (.programSecret .bc 1) s = .next u ∧ u.fuse.busy = true ∧ u.fuse.op = some { op := 5, key := k, cells := eccCells d } ∧
          u.fuse.owner = some { slot := ownerEpoch s, row := 0, adv := 1 } ∧ u.fuse.cells = s.fuse.cells))) ∧
  (∀ s,
    (∀ failed, s.fuse.op = none → exec (.fuseOpDone failed) s = .next (settle s)) ∧
    (∀ o (failed : BitVec 72), s.fuse.op = some o → s.boot.pos ≠ .tamperRec → s.fuse.owner = none → s.boot.fuseOpen = [] →
      ∃ t, exec (.fuseOpDone failed) s = .next (settle t) ∧ fuseCells t o.key = fuseCells s o.key ||| (o.cells &&& ~~~ failed) ∧
        (∀ k, k ≠ o.key → fuseCells t k = fuseCells s k) ∧ t.fuse.busy = false ∧ t.fuse.op = none ∧
        t.fuse.result = (if o.cells &&& ~~~ fuseCells s o.key &&& failed ≠ 0 then 6 else 0) ∧
        t.boot = { s.boot with journal := t.boot.journal, jnext := t.boot.jnext } ∧
        (serving s = true → s.boot.journalOk = true → ∃ b, smGet none t.boot.journal s.boot.jnext = some b ∧ b.event = 8 ∧
          b.detail = BitVec.ofNat 96 (endDetail (journalRow o.key) o.op t.fuse.result)) ∧
        t = { s with fuse := t.fuse, hdrs := t.hdrs, boot := t.boot }) ∧
    (∀ (v : BitVec 2) completed (cut : BitVec 7),
      (∃ u, exec (.fuseSupplyLost v completed cut) s = .next u ∧ u.fuse.window = v.toNat ∧
        (∀ k, fuseCells s k &&& ~~~ fuseCells u k = 0) ∧
        ((v = 1 ∨ s.fuse.op = none) → u = { s with fuse := { s.fuse with window := v.toNat } }) ∧
        (∀ o, v ≠ 1 → s.fuse.op = some o → u.fuse.result = 3 ∧ u.fuse.busy = false ∧
          fuseCells u o.key = fuseCells s o.key ||| (o.cells &&& completed) ∧ (∀ k, k ≠ o.key → fuseCells u k = fuseCells s k) ∧
          (∀ k, fuseMarginal s k &&& ~~~ fuseMarginal u k = 0)))) ∧
    (∀ (n : BitVec 5) (v : BitVec 2), (serving s = false ∨ fabOk s .bc = false ∨ 16 < n.toNat) →
      exec (.svnCounterAdvance n v) s = .next s) ∧
    (∀ (n : BitVec 5) (v : BitVec 2), serving s = true → fabOk s .bc = true → n.toNat ≤ 16 → s.fuse.busy = false → s.boot.fuseOpen = [] →
      let k := (counterNext s n.toNat).1
      let want := groupMask (counterNext s n.toNat).2
      ∃ u, exec (.svnCounterAdvance n v) s = .next u ∧ u.fuse.cells = s.fuse.cells ∧ u.fuse.row = w32 k ∧
        u.fuse.group = (counterNext s n.toNat).2 ∧
        (v = 1 → areaEnabled s 4 k = true → want &&& ~~~ fuseCells s k ≠ 0 → u.fuse.busy = true ∧
          u.fuse.op = some { op := 4, key := k, cells := want }) ∧
        (v = 1 → areaEnabled s 4 k = true → want &&& ~~~ fuseCells s k = 0 → u.fuse.busy = false ∧ u.fuse.result = 0) ∧
        (areaEnabled s 4 k = false → u.fuse.busy = false ∧ u.fuse.result = 4) ∧
        (areaEnabled s 4 k = true → v ≠ 1 → u.fuse.busy = false ∧ u.fuse.result = if v = 0 then 1 else 2) ∧
        u = { s with fuse := u.fuse, hdrs := u.hdrs, free := u.free, boot := u.boot }))

/-- R164 to R177: the commands of the Strongbox. A command of a BUSY initiator is answered 9, after the Shutter 10; INSTALL fills an
empty slot from 8 on with the staged key, or gives LOCKED 5, NOT_EMPTY 1, BAD_ATTR 6, DATA_INCOMPLETE 8; DERIVE fills an open one with the
derived key, while a hash lane keeps its message aside, or with DRBG output; ERASE empties a slot, ERASE_PID and ERASE_STALE every slot of their rule, never those of PID 0; ROOT is BC's before the lock. The
result shows when the command ends. Locks are only ever set. R157, R158, R177: a Strongbox command ends with its result; word 11 of the
sleep digest arms it, once; the comparison takes the armed digest away and is BC's in BOOT before S6. -/
def Obligations.Strongbox : Prop :=
  (∀ s w, fabOk s w = true →
    let p := sboxPort s w
    let cmds : List Instr := [.install w, .erase w, .derive w, .erasePid w, .eraseStale w, .rootCmd w]
    let ends (i : Instr) (r : Nat) (slots : Nat → Slot) : Prop := ∃ u, exec i s = .next u ∧ (sboxPort u w).busy = true ∧
      (sboxPort u w).next = r ∧ (∀ n, slotOf u n = slots n) ∧
      (∀ v, v.num ≠ w.num → sboxPort u v = sboxPort s v) ∧
      (i ≠ .derive w → u.rng = s.rng ∧ u.free = s.free ∧ u.hash = s.hash) ∧
      u = { answer s .ok with sbox := u.sbox, rng := u.rng, free := u.free, hash := u.hash }
    (p.busy = true → ∀ i ∈ cmds, exec i s = .next (setSboxPort (answer s .ok) w { p with result := 9 })) ∧
    (p.busy = false → s.sbox.shutterFired = true → ∀ i ∈ cmds, ends i 10 (slotOf s)) ∧
    (p.busy = false → s.sbox.shutterFired = false →
      (p.sel < 8 → ends (.install w) 5 (slotOf s)) ∧
      (slotOpen s p.sel = false → ends (.erase w) 5 (slotOf s)) ∧
      (slotOpen s p.sel = true → ends (.erase w) 0 (fun n => if n = p.sel then slotReset else slotOf s n)) ∧
      (deriveOpen s w p = false → ends (.derive w) 5 (slotOf s)) ∧
      (∀ i, (8 ≤ p.sel ∧ i = Instr.install w) ∨ (deriveOpen s w p = true ∧ i = Instr.derive w) →
        (slotEmpty s p.sel = false → ends i 1 (slotOf s)) ∧
        (slotEmpty s p.sel = true → attrBad p.attr = true → ends i 6 (slotOf s)) ∧
        (slotEmpty s p.sel = true → attrBad p.attr = false →
          let words := lenBytes (fld p.attr 29 28) / 4
          let fills (origin : Nat) (key : List Byte) : Nat → Slot := fun n => if n = p.sel then
            { key := keyOf (slice key 0 (lenBytes (fld p.attr 29 28))),
              attr := mkAttr origin (fld p.attr 29 28) (fld p.attr 27 24) (fld p.attr 23 18) (fld p.attr 15 8) (fld p.attr 2 0) }
            else slotOf s n
          let current : Prop := fld p.attr 15 8 = 0 ∨ fld p.attr 23 18 = genOf s (fld p.attr 15 8)
          (i = .install w → p.mask.toNat % 2 ^ words ≠ 2 ^ words - 1 → ends (.install w) 8 (slotOf s)) ∧
          (i = .install w → p.mask.toNat % 2 ^ words = 2 ^ words - 1 → ends (.install w) 0 (fills 0 (leBytes 64 p.data.toNat))) ∧
          (i = .derive w → ¬ current → ends (.derive w) 12 (slotOf s)) ∧
          (i = .derive w → current → fld p.derive 2 0 = 3 →
            (drbgWaits s true = true → ∃ u, exec (.derive w) s = .next u ∧ (sboxPort u w).busy = true ∧
              (sboxPort u w).await = some (p.sel, p.attr) ∧ u.sbox.slots = s.sbox.slots) ∧
            (drbgWaits s true = false → drbgGrant s true = none → ends (.derive w) 2 (slotOf s)) ∧
            (∀ s1, drbgWaits s true = false → drbgGrant s true = some s1 → ends (.derive w) 0 (fills 2 (drbgBytes s1.free 64)))) ∧
          (∀ kin, i = .derive w → current → fld p.derive 2 0 ≠ 3 →
            deriveSource s p = .ok kin → ends (.derive w) 0 (fills 1 (deriveKey s kin (fld p.derive 15 8)
              (fld p.attr 15 8) ((reg s (whoKey w 0x3054)).toNat + 2 ^ 32 * (reg s (whoKey w 0x3058)).toNat) (fld p.attr 29 28))) ∧
              ∃ u n, exec (.derive w) s = .next u ∧ n < 16 ∧ (lane u n).shadow = true ∧ (lane u n).msg = (lane s n).msg ∧
                (sboxPort u w).lane = some n) ∧
          (∀ r, r ≠ 0 → i = .derive w → current → fld p.derive 2 0 ≠ 3 →
            deriveSource s p = .error r → ends (.derive w) r (slotOf s)))) ∧
      (fld p.attr 15 8 = 0 → ends (.erasePid w) 4 (slotOf s) ∧ ends (.eraseStale w) 4 (slotOf s)) ∧
      (fld p.attr 15 8 ≠ 0 →
        (∃ u, exec (.erasePid w) s = .next u ∧ u.sbox.slots = s.sbox.slots.filter (fun c => decide (c.2.pid ≠ fld p.attr 15 8)) ∧
          (sboxPort u w).next = 0) ∧
        (∃ u, exec (.eraseStale w) s = .next u ∧ (sboxPort u w).next = 0 ∧ u.sbox.slots = s.sbox.slots.filter (fun c =>
          decide (c.2.pid ≠ fld p.attr 15 8 ∨ c.2.gen = genOf s (fld p.attr 15 8))))) ∧
      ((w ≠ .bc ∨ s.sbox.lockRoot = true) → ends (.rootCmd w) 5 (slotOf s)) ∧
      (w = .bc → s.sbox.lockRoot = false → 2 ≤ s.fuse.sensed.lcs → ∃ u, exec (.rootCmd w) s = .next u ∧
        (sboxPort u w).next = (if (rootInput s).isSome then 0 else 7) ∧
        (∀ k l, rootInput s = some (k, l) → u.sbox.rootValid = true ∧
          u.sbox.root = keyOf (kdf k l ([BitVec.ofNat 8 s.fuse.sensed.lcs, 3, 1, 0] ++ List.replicate 60 0) 512)) ∧
        u.sbox.slots = s.sbox.slots ∧ u = { answer s .ok with sbox := u.sbox })) ∧
    (∀ data, exec (.sboxLockSet w data) s = .next (answer { s with sbox := { s.sbox with
      lockRoot := s.sbox.lockRoot || bitOf data 0, lockFixed := s.sbox.lockFixed || bitOf data 1 } } .ok))) ∧
  (∀ s w,
    ((sboxPort s w).busy = true → (sboxPort s w).await = none → ∃ u, exec (.sboxCommandDone w) s = .next u ∧
      sboxPort u w = { sboxPort s w with busy := false, result := (sboxPort s w).next, lane := none } ∧ u.sbox.slots = s.sbox.slots ∧
      (∀ n, (sboxPort s w).lane = some n → lane u n = { lane s n with shadow := false }) ∧
      u = { s with sbox := u.sbox, hdrs := u.hdrs, hash := u.hash }) ∧
    ((sboxPort s w).busy = false ∨ (sboxPort s w).await ≠ none → exec (.sboxCommandDone w) s = .next s) ∧
    (∀ word, fabOk s w = true →
      (s.boot.armed = false → exec (.sleepDigestArm w word) s = .next (settle (answer { s with boot := { s.boot with
        sleepDigest := smSet 0 s.boot.sleepDigest 11 word, armed := true } } .ok))) ∧
      (s.boot.armed = true → ∃ t, exec (.sleepDigestArm w word) s = .next (settle t) ∧ t.boot = s.boot ∧
        t.rsp = some { code := .elock, data := [] }) ∧
      ((w ≠ .bc ∨ s.block ≠ .boot ∨ 6 ≤ s.boot.step) →
        exec (.wakeDigestCompare w word) s = .next (settle (answer s .eaccess))) ∧
      (w = .bc → s.block = .boot → s.boot.step < 6 → s.boot.pos ≠ .wakeCheck →
        let d := smSet 0 s.boot.wakeDigest 11 word
        exec (.wakeDigestCompare w word) s = .next (settle (answer { s with boot := { s.boot with
          wakeDigest := d, armed := false, sleepDigest := [],
          wakeMatch := if s.boot.armed then (List.range 12).all (fun i => smGet 0 d i = smGet 0 s.boot.sleepDigest i)
            else s.boot.wakeMatch } } .ok)))))

/-- R192, R195, R198: the Anvil's modular operations on numbers in slots. On operands of their domain the destination takes the result
modulo M, outside it an open value; nothing else is left, and a slot that does not exist ends the job with BAD_DESC 4. R192, R195:
SLOT_CLEAR zeroises a slot, LOAD fills one from main SRAM and STORE copies one there. -/
def Obligations.AnvilArithmetic : Prop :=
  (∀ x ∈ ([(Instr.modAdd, 1, fun a b m _ => decide (a < m ∧ b < m), fun a b m _ => (a + b) % m),
      (Instr.modSub, 2, fun a b m _ => decide (a < m ∧ b < m), fun a b m _ => (a + m - b) % m),
      (Instr.modMul, 3, fun a b m _ => decide (a < m ∧ b < m ∧ m % 2 = 1), fun a b m _ => a * b % m),
      (Instr.modExp, 4, fun a b m e => decide (a < m ∧ m % 2 = 1 ∧ b % 2 ^ e ≠ 0), fun a b m e => powMod a (b % 2 ^ e) m e),
      (Instr.modInv, 5, fun a _ m _ => decide (a < m ∧ m % 2 = 1) && isPrime m, fun a _ m _ => powMod a (m - 2) m 16384)] :
      List (Instr × Nat × (Nat → Nat → Nat → Nat → Bool) × (Nat → Nat → Nat → Nat → Nat))),
    ∀ s e, anvilMay s x.2.1 e →
      let d := sramRead s e.2 64
      let n := dB d 3 + 1
      let a := opRead s (dB d 4) n
      let b := if x.2.1 = 5 then 0 else opRead s (dB d 5) n
      let m := opRead s (dB d 6) n
      let eb := le d 0x0C 2
      (x.2.1 = 4 → 0 < eb ∧ eb ≤ 16384) →
      let bad := slotsBad s ([dB d 4, dB d 6, dB d 7] ++ if x.2.1 = 5 then [] else [dB d 5])
      (bad = true → exec x.1 s = .next (anvilBegan s s e 4 0 outsNone)) ∧
      (bad = false → exec x.1 s = .next (anvilBegan s s e 0 0 { outsNone with
        opnd := opPut s (dB d 7) n (if x.2.2.1 a b m eb then x.2.2.2 a b m eb else Config.anvilOpen x.2.1 n [a, b, m, eb]) }))) ∧
  (∀ s e,
    let d := sramRead s e.2 64
    let n := dB d 3 + 1
    (anvilMay s 6 e → slotsBad s [dB d 7] = false →
      exec .slotClear s = .next (anvilBegan s s e 0 0 { outsNone with opnd := opPut s (dB d 7) n 0 })) ∧
    (anvilMay s 8 e → slotsBad s [dB d 7] = false →
      (sramIn (dW d 0x10) (8 * n) = true → exec .pkeLoad s = .next (anvilBegan s s e 0 0 { outsNone with
        opnd := opPut s (dB d 7) n (leVal (sramRead s (dW d 0x10) (8 * n))) })) ∧
      (sramIn (dW d 0x10) (8 * n) = false → exec .pkeLoad s = .next (anvilBegan s s e 5 0 outsNone))) ∧
    (anvilMay s 9 e → slotsBad s [dB d 4] = false →
      (sramIn (dW d 0x28) (8 * n) = true → exec .store s = .next (anvilBegan s s e 0 0 { outsNone with
        mem := [(dW d 0x28, leBytes (8 * n) (opRead s (dB d 4) n))] })) ∧
      (sramIn (dW d 0x28) (8 * n) = false → exec .store s = .next (anvilBegan s s e 5 0 outsNone))) ∧
    (anvilMay s 6 e → slotsBad s [dB d 7] = true → exec .slotClear s = .next (anvilBegan s s e 4 0 outsNone)) ∧
    (anvilMay s 8 e → slotsBad s [dB d 7] = true → exec .pkeLoad s = .next (anvilBegan s s e 4 0 outsNone)) ∧
    (anvilMay s 9 e → slotsBad s [dB d 4] = true → exec .store s = .next (anvilBegan s s e 4 0 outsNone)))

/-- R195 to R200: the Anvil's curve operations. A signature that is released verifies; VERIFY ends with 0 for a signature that holds and 1
for one that does not; EC_CHECK ends with 0 on the curve and 7 off it; ECDH leaves the shared secret in DST_SLOT alone, or under PUBONLY
the public key in memory. A key that does not serve the job ends it with 3, a range outside main SRAM with 5. -/
def Obligations.AnvilCurves : Prop :=
  ∀ s e,
    let d := sramRead s e.2 64
    let at' (o n : Nat) : Bool := sramIn (dW d o) n
    (anvilMay s 0x10 e →
      ((at' 0x10 48 && at' 0x28 96 && (!pubOut d || at' 0x18 97)) = false → exec .ecdsaSign s = .next (anvilBegan s s e 5 0 outsNone)) ∧
      ((at' 0x10 48 && at' 0x28 96 && (!pubOut d || at' 0x18 97)) = true →
        (jobKey s d 1 2 = none → exec .ecdsaSign s = .next (anvilBegan s s e 3 0 outsNone)) ∧
        (∀ v s1, jobKey s d 1 2 = some v → drbgGrant s true = some s1 → ∃ nonce n, 0 < nonce ∧ nonce < p384n ∧
          let h := beVal (sramRead s (dW d 0x10) 48)
          let g := ecdsaSign (ecScalar v.key) h nonce
          let pub := ecBase (ecScalar v.key)
          (ecdsaOk (pub.getD (0, 0)) h g.1 g.2 = true → exec .ecdsaSign s = .next (anvilBegan s (drew s1 n) e 0 0 { outsNone with
            mem := (dW d 0x28, beBytes 48 g.1 ++ beBytes 48 g.2) :: (if pubOut d then [(dW d 0x18, ecBytes pub)] else []) })) ∧
          (ecdsaOk (pub.getD (0, 0)) h g.1 g.2 = false → exec .ecdsaSign s = .next (anvilBegan s (drew s1 n) e 2 0 outsNone))))) ∧
    (anvilMay s 0x11 e →
      ((at' 0x10 48 && at' 0x18 97 && at' 0x20 96) = false → exec .ecdsaVerify s = .next (anvilBegan s s e 5 0 outsNone)) ∧
      (∀ q, (at' 0x10 48 && at' 0x18 97 && at' 0x20 96) = true → ecPoint (sramRead s (dW d 0x18) 97) = some q → ecOn q = true →
        let g := sramRead s (dW d 0x20) 96
        let r := beVal (g.take 48)
        let t := beVal (g.drop 48)
        exec .ecdsaVerify s = .next (anvilBegan s s e (if 0 < r ∧ r < p384n ∧ 0 < t ∧ t < p384n ∧
          ecdsaOk q (beVal (sramRead s (dW d 0x10) 48)) r t = true then 0 else 1) 0 outsNone))) ∧
    (anvilMay s 0x12 e →
      (pubOnly d = true → at' 0x28 97 = true → ∀ v, jobKey s d 2 2 = some v →
        exec .ecdh s = .next (anvilBegan s s e 0 0 { outsNone with mem := [(dW d 0x28, ecPublic (ecScalar v.key))] })) ∧
      (pubOnly d = false → at' 0x18 97 = true → jobKey s d 2 2 = none → exec .ecdh s = .next (anvilBegan s s e 3 0 outsNone)) ∧
      (∀ v q x, pubOnly d = false → at' 0x18 97 = true → jobKey s d 2 2 = some v → dstBad s d 1 v.pid = 0 →
        ecPoint (sramRead s (dW d 0x18) 97) = some q → ecOn q = true → ecMul (ecScalar v.key) q = some x →
        exec .ecdh s = .next (anvilBegan s s e 0 0 { outsNone with slot := some (dB d 9, w32 (dW d 0x34), beBytes 48 x.1) })) ∧
      (∀ v, pubOnly d = false → at' 0x18 97 = true → jobKey s d 2 2 = some v → dstBad s d 1 v.pid ≠ 0 →
        exec .ecdh s = .next (anvilBegan s s e (dstBad s d 1 v.pid) 0 outsNone))) ∧
    (anvilMay s 0x14 e →
      (at' 0x18 97 = false → exec .ecCheck s = .next (anvilBegan s s e 5 0 outsNone)) ∧
      (at' 0x18 97 = true → exec .ecCheck s = .next (anvilBegan s s e
        (match ecPoint (sramRead s (dW d 0x18) 97) with | some q => if ecOn q then 0 else 7 | none => 7) 0 outsNone)))

/-- R195, R200: the Anvil's lattice operations, which need the lattice workspace. A signature that is released verifies; DECAPS leaves its
secret in DST_SLOT alone. -/
def Obligations.AnvilLattice : Prop :=
  ∀ s e,
    let d := sramRead s e.2 64
    let at' (o n : Nat) : Bool := sramIn (dW d o) n
    let n := dW d 0x14
    (∀ x ∈ [(Instr.mldsaSign, 0x20), (Instr.mldsaVerify, 0x21), (Instr.mlkemEncaps, 0x22), (Instr.mlkemDecaps, 0x23)],
      anvilMay s x.2 e → s.anvil.latRes = false → exec x.1 s = .next (anvilBegan s s e 4 0 outsNone)) ∧
    (s.anvil.latRes = true →
      (anvilMay s 0x20 e → n ≤ 65536 → at' 0x10 n = true → at' 0x30 (dB d 0x0E) = true → at' 0x28 4627 = true →
        (pubOut d = true → at' 0x18 2592 = true) → ∀ v s1, jobKey s d 1 0 = some v → drbgGrant s true = some s1 →
        ∃ rnd : BitVec 256,
          let m := sramRead s (dW d 0x10) n
          let ctx := sramRead s (dW d 0x30) (dB d 0x0E)
          let sig := bytesOf (Config.mldsaSign (keyBytes v) ctx m rnd) 4627
          let pk := bytesOf (Config.mldsaPk (keyBytes v)) 2592
          let it := Nat.min 255 (Config.mldsaIters (keyBytes v) ctx m rnd)
          (Config.mldsaVerify pk ctx m sig = true → exec .mldsaSign s = .next (anvilBegan s (drew s1) e 0 it { outsNone with
            mem := (dW d 0x28, sig) :: (if pubOut d then [(dW d 0x18, pk)] else []) })) ∧
          (Config.mldsaVerify pk ctx m sig = false → exec .mldsaSign s = .next (anvilBegan s (drew s1) e 2 it outsNone))) ∧
      (anvilMay s 0x21 e → at' 0x10 n = true → at' 0x30 (dB d 0x0E) = true → at' 0x18 2592 = true → at' 0x20 4627 = true →
        exec .mldsaVerify s = .next (anvilBegan s s e (if Config.mldsaVerify (sramRead s (dW d 0x18) 2592)
          (sramRead s (dW d 0x30) (dB d 0x0E)) (sramRead s (dW d 0x10) n) (sramRead s (dW d 0x20) 4627) then 0 else 1) 0 outsNone)) ∧
      (anvilMay s 0x22 e → at' 0x18 1568 = true → at' 0x28 1568 = true → dstBad s d 0 0 = 0 →
        (Config.mlkemKeyOk (sramRead s (dW d 0x18) 1568) = false → exec .mlkemEncaps s = .next (anvilBegan s s e 7 0 outsNone)) ∧
        (∀ s1, Config.mlkemKeyOk (sramRead s (dW d 0x18) 1568) = true → drbgGrant s false = some s1 → ∃ m : BitVec 256,
          exec .mlkemEncaps s = .next (anvilBegan s (drew s1) e 0 0
            { mem := [(dW d 0x28, bytesOf (Config.mlkemCipher (sramRead s (dW d 0x18) 1568) m) 1568)], opnd := [],
              slot := some (dB d 9, w32 (dW d 0x34), leBytes 32 (Config.mlkemSecret (sramRead s (dW d 0x18) 1568) m).toNat) }))) ∧
      (∀ v, anvilMay s 0x23 e → pubOnly d = false → at' 0x10 1568 = true → jobKey s d 2 2 = some v → dstBad s d 0 v.pid = 0 →
        exec .mlkemDecaps s = .next (anvilBegan s s e 0 0 { outsNone with
          slot := some (dB d 9, w32 (dW d 0x34), leBytes 32 (Config.mlkemDecaps (keyBytes v) (sramRead s (dW d 0x10) 1568)).toNat) })) ∧
      (∀ v, anvilMay s 0x23 e → pubOnly d = true → at' 0x28 1568 = true → jobKey s d 2 2 = some v →
        exec .mlkemDecaps s = .next (anvilBegan s s e 0 0 { outsNone with
          mem := [(dW d 0x28, bytesOf (Config.mlkemPk (keyBytes v)) 1568)] })))

/-- R193, R194, R201 to R204: the Anvil's queue. PKE_JOB takes a job into the queue of its class, 16 at most, and a job takes its sequence number when it is served; PKE_SLOT_LEN zeroises
operand memory and is refused while a job waits or runs; the arbiter takes Master first; at a yield point a long job gives way once; the
job's end writes its outputs, then SEQ and STATUS. -/
def Obligations.AnvilQueue : Prop :=
  ∀ s,
    (∀ w (off : Word), fabOk s w = true →
      let cls := (sramByte s (off.toNat + 1)).toNat % 4
      (descOk off.toNat 64 = true → (s.anvil.queue.filter (fun e => decide (e.1 = cls))).length < 16 →
        exec (.pkeJob w off) s = .next (answer { s with anvil := { s.anvil with
          queue := s.anvil.queue ++ [(cls, off.toNat)] } } .ok)) ∧
      (descOk off.toNat 64 = true → 16 ≤ (s.anvil.queue.filter (fun e => decide (e.1 = cls))).length →
        exec (.pkeJob w off) s = .next (answer s .efull)) ∧
      (descOk off.toNat 64 = false → ∃ u, exec (.pkeJob w off) s = .next u ∧ u.anvil = s.anvil ∧
        u.rsp = some { code := .edecode, data := [] })) ∧
    (∀ w data, fabOk s w = true →
      let n := fld data 8 0
      let idle : Prop := s.anvil.run = none ∧ s.anvil.susp = none ∧ s.anvil.queue = []
      (1 ≤ n → n ≤ 256 → idle → exec (.pkeSlotLenWrite w data) s =
        .next (answer { s with anvil := { s.anvil with mem := [], words := n, latRes := bitOf data 16 } } .ok)) ∧
      ((n = 0 ∨ 256 < n ∨ ¬ idle) → exec (.pkeSlotLenWrite w data) s = .next (answer s .eaccess))) ∧
    ((∃ e ∈ s.anvil.queue, e.1 = 0) → s.anvil.susp = none → ∀ e ∈ anvilPool s, e.1 = 0) ∧
    (∀ j (st : BitVec 16), s.anvil.run = some j → pShort (dB j.desc 0) (dB j.desc 3 + 1) = false →
      let high := Nat.max s.anvil.maxStretch st.toNat
      ((j.byYield = true ∨ s.anvil.susp ≠ none ∨ s.anvil.queue.any (mayPreempt s j) = false) →
        exec (.anvilYield st) s = .next { s with anvil := { s.anvil with maxStretch := high } }) ∧
      (j.byYield = false → s.anvil.susp = none → s.anvil.queue.any (mayPreempt s j) = true →
        exec (.anvilYield st) s = .next { s with anvil := { s.anvil with
          maxStretch := high, run := none, susp := some { j with yields := satAdd 255 j.yields 1 },
          yields := satAdd 65535 s.anvil.yields 1 } })) ∧
    (∀ st, s.anvil.run = none → exec (.anvilYield st) s = .next s) ∧
    (∀ j, coreOn s = true → s.anvil.run = some j → j.outs.slot = none → j.result ≠ 2 → ∃ u, exec .anvilJobDone s = .next u ∧
      u.anvil.run = (if j.byYield then s.anvil.susp else none) ∧ u.anvil.susp = (if j.byYield then none else s.anvil.susp) ∧
      u.anvil.mem = j.outs.opnd.foldl (fun m c => smSet 0 m c.1 c.2) s.anvil.mem ∧
      u.sram = sramPut (sramPut (j.outs.mem.foldl (fun m c => sramPut m c.1 c.2) s.sram) (j.addr + 0x38) (leBytes 4 j.seq)) (j.addr + 0x3C)
        (leBytes 4 (j.result * 2 ^ 28 + 2 ^ 27 + j.yields * 256 + j.iters)) ∧
      u.sbox = s.sbox ∧ bitOf (hdr u (pgFw 4)).event 0 = true) ∧
    (∀ j n a key, coreOn s = true → s.anvil.run = some j → j.outs.slot = some (n, a, key) → j.result ≠ 2 →
      (slotEmpty s n = true → ∃ u, exec .anvilJobDone s = .next u ∧ slotOf u n = {
        key := keyOf (slice key 0 (lenBytes (fld a 29 28)))
        attr := mkAttr 1 (fld a 29 28) (fld a 27 24) (fld a 23 18) (fld a 15 8) (fld a 2 0) } ∧
        (∀ k, k ≠ n → slotOf u k = slotOf s k)) ∧
      (slotEmpty s n = false → ∃ u, exec .anvilJobDone s = .next u ∧ u.sbox = s.sbox ∧
        u.anvil.run = (if j.byYield then s.anvil.susp else none)))

/-- R205 to R209: the hash lanes. A lane takes 8 jobs; the row of an OP starts its oldest job when it is of that OP: with FIRST a new
message opens with the segment, without it the segment joins the open message of that operation, and without one the job ends with
BAD_DESC 2. A segment in hub memory is read over HIP first. At the end of the last job the digest goes to memory, then STATUS. A lane
that a derivation or a measurement of weights holds starts and ends no job. -/
def Obligations.HashLanes : Prop :=
  ∀ s (n : BitVec 4),
    let l := lane s n.toNat
    (∀ w (off : Word), fabOk s w = true → descOk off.toNat 32 = true →
      (l.queue.length + b2n l.run.isSome < 8 →
        exec (.measJob w n off) s = .next (answer (setLane s n.toNat { l with queue := l.queue ++ [off.toNat] }) .ok)) ∧
      (8 ≤ l.queue.length + b2n l.run.isSome → exec (.measJob w n off) s = .next (answer s .efull))) ∧
    (∀ x ∈ [(Instr.sha384 n, 1), (Instr.sha3384 n, 2), (Instr.kmac256 n, 3)],
      ((coreOn s = false ∨ l.queue = [] ∨ laneRuns s n.toNat = true ∨ l.shadow = true) → exec x.1 s = .next s) ∧
      (∀ off rest, coreOn s = true → laneRuns s n.toNat = false → l.shadow = false → l.queue = off :: rest →
        (qOp s off ≠ x.2 → exec x.1 s = .next s) ∧
        (qOp s off = x.2 →
          let d := sramRead s off 32
          let l0 := { l with queue := rest }
          let seg := sramRead s (le d 8 8) (dW d 0x10)
          let ks := sramRead s (dW d 0x14) (dB d 4 + dB d 5)
          (hashBad d = true → exec x.1 s = .next (setLane s n.toNat { l0 with run := some (off, d, 2) })) ∧
          (hashBad d = false → hFirst d = false → l.abandon = true →
            exec x.1 s = .next (setLane s n.toNat { l0 with abandon := false, run := some (off, d, 4) })) ∧
          (hashBad d = false → hFirst d = false → l.abandon = false → (∀ m, l.msg = some m → m.1 ≠ x.2) →
            exec x.1 s = .next (setLane s n.toNat { l0 with run := some (off, d, 2) })) ∧
          (hashBad d = false → hFirst d = true → hHub d = false →
            exec x.1 s = .next (setLane s n.toNat { l0 with
              abandon := l.abandon || l.msg.isSome, run := some (off, d, 0),
              msg := some (if x.2 = 3 then (3, ks.take (dB d 4), ks.drop (dB d 4), dB d 2, seg) else (x.2, [], [], 48, seg)) })) ∧
          (hashBad d = false → hFirst d = true → hHub d = true →
            exec x.1 s = .next (laneRead (setLane s n.toNat { l0 with
              abandon := l.abandon || l.msg.isSome, run := some (off, d, 0), hubAddr := le d 8 8, hubLeft := dW d 0x10,
              msg := some (if x.2 = 3 then (3, ks.take (dB d 4), ks.drop (dB d 4), dB d 2, []) else (x.2, [], [], 48, [])) }) n.toNat)) ∧
          (∀ m, hashBad d = false → hFirst d = false → l.abandon = false → l.msg = some m → m.1 = x.2 →
            (hHub d = false → exec x.1 s = .next (setLane s n.toNat { l0 with
              run := some (off, d, 0), msg := some (m.1, m.2.1, m.2.2.1, m.2.2.2.1, m.2.2.2.2 ++ seg) })) ∧
            (hHub d = true → exec x.1 s = .next (laneRead (setLane s n.toNat { l0 with
              run := some (off, d, 0), hubAddr := le d 8 8, hubLeft := dW d 0x10 }) n.toNat)))))) ∧
    ((l.shadow = true ∨ laneMeasures s n.toNat = true) → exec (.hashJobDone n) s = .next s) ∧
    (∀ off d m, coreOn s = true → l.shadow = false → laneMeasures s n.toNat = false → l.run = some (off, d, 0) → l.hubLeft = 0 → l.msg = some m → hLast d = true →
      ∃ u, exec (.hashJobDone n) s = .next u ∧ lane u n.toNat = { l with run := none, msg := none } ∧
        u.sram = sramPut (sramPut s.sram (dW d 0x18) (laneDigest m)) (off + 0x1C) (leBytes 4 (2 ^ 27)) ∧ u.hash.err = s.hash.err) ∧
    (∀ off d, coreOn s = true → l.shadow = false → laneMeasures s n.toNat = false → l.run = some (off, d, 0) → l.hubLeft = 0 →
      hLast d = false → ∃ u, exec (.hashJobDone n) s = .next u ∧ lane u n.toNat = { l with run := none } ∧
        u.sram = sramPut s.sram (off + 0x1C) (leBytes 4 (2 ^ 27)) ∧ u.hash.err = s.hash.err) ∧
    (∀ off d r, coreOn s = true → l.shadow = false → laneMeasures s n.toNat = false → l.run = some (off, d, r) → l.hubLeft = 0 → r ≠ 0 →
      ∃ u, exec (.hashJobDone n) s = .next u ∧ lane u n.toNat = { l with run := none } ∧
        u.sram = sramPut s.sram (off + 0x1C) (leBytes 4 (r * 2 ^ 28 + 2 ^ 27)) ∧ u.hash.err = satInc s.hash.err)

/-- R178, R179, R210 to R213: the modes of the AES engine. With a key that serves the job its output goes to memory, or, for GCM_DEC_SLOT
and KW_UNWRAP, into the slot alone; GCM_DEC leaves zeros on a tag mismatch (1), the slot forms leave nothing; a key that does not serve it
ends it with 2, a range outside main SRAM with 4. -/
def Obligations.AesModes : Prop :=
  ∀ s e,
    let d := sramRead s e.2 64
    let src := aSrc s d
    let inAll (l : List (Nat × Nat)) : Bool := l.all (fun c => sramIn c.1 c.2)
    let io : List (Nat × Nat) := [(dW d 0x20, dW d 0x24), (dW d 0x28, dW d 0x24)]
    let unit := dW d 0x2C
    let unitOk : Prop := (unit = 512 ∨ unit = 4096) ∧ dW d 0x24 ≠ 0 ∧ dW d 0x24 % unit = 0
    let ends (i : Instr) (r : Nat) (o : Outs) : Prop := exec i s = .next (aesBegan s s e r o)
    (∀ x ∈ ([(Instr.gcmEnc, 1, 1, 0, dW d 0x1C ≤ 65536, gcmIn d true), (Instr.gcmDec, 2, 2, 0, dW d 0x1C ≤ 65536, gcmIn d true),
        (Instr.xtsEnc, 4, 1, 2, unitOk, inAll io), (Instr.xtsDec, 5, 2, 2, unitOk, inAll io), (Instr.ctr, 6, 1, 0, True, inAll io)] :
        List (Instr × Nat × Nat × Nat × Prop × Bool)),
      aesMay s x.2.1 e → x.2.2.2.2.1 →
        (x.2.2.2.2.2 = false → ends x.1 4 outsNone) ∧
        (x.2.2.2.2.2 = true → aesKey s d x.2.2.1 x.2.2.2.1 = none → ends x.1 2 outsNone)) ∧
    (∀ k, dW d 0x1C ≤ 65536 → gcmIn d true = true →
      let ks := aesKeys k
      let c := gcmCrypt ks (aIv d 12) src
      (aesMay s 1 e → aesKey s d 1 0 = some k → ends .gcmEnc 0 { outsNone with
        mem := [(dW d 0x28, c), (dW d 0x30, gcmTag ks (aIv d 12) (aAad s d) c)] }) ∧
      (aesMay s 2 e → aesKey s d 2 0 = some k →
        (gcmTag ks (aIv d 12) (aAad s d) src = sramRead s (dW d 0x30) 16 → ends .gcmDec 0 { outsNone with mem := [(dW d 0x28, c)] }) ∧
        (gcmTag ks (aIv d 12) (aAad s d) src ≠ sramRead s (dW d 0x30) 16 →
          ends .gcmDec 1 { outsNone with mem := [(dW d 0x28, List.replicate src.length 0)] }))) ∧
    (aesMay s 3 e → attrBad (w32 (dW d 0x34)) = true ∨ dB d 4 < 8 → ends .gcmDecSlot 3 outsNone) ∧
    (∀ k,
      let a := putFld (w32 (dW d 0x34)) 15 8 (slotOf s (dB d 3)).pid
      let ks := aesKeys k
      aesMay s 3 e → dW d 0x1C ≤ 65536 → (dW d 0x24 = 32 ∨ dW d 0x24 = 64) → attrBad (w32 (dW d 0x34)) = false →
      lenBytes (fld a 29 28) = dW d 0x24 → 8 ≤ dB d 4 → gcmIn d false = true → aesKey s d 2 0 = some k →
      (slotEmpty s (dB d 4) = false → ends .gcmDecSlot 8 outsNone) ∧
      (slotEmpty s (dB d 4) = true →
        (gcmTag ks (aIv d 12) (aAad s d) src = sramRead s (dW d 0x30) 16 → ends .gcmDecSlot 0 { outsNone with
          slot := some (dB d 4, a, gcmCrypt ks (aIv d 12) src) }) ∧
        (gcmTag ks (aIv d 12) (aAad s d) src ≠ sramRead s (dW d 0x30) 16 → ends .gcmDecSlot 1 outsNone))) ∧
    (∀ k, unitOk → inAll io = true →
      (aesMay s 4 e → aesKey s d 1 2 = some k → ends .xtsEnc 0 { outsNone with
        mem := [(dW d 0x28, xtsUnits k true unit (dW d 0x24 / unit) (le d 8 16) src)] }) ∧
      (aesMay s 5 e → aesKey s d 2 2 = some k → ends .xtsDec 0 { outsNone with
        mem := [(dW d 0x28, xtsUnits k false unit (dW d 0x24 / unit) (le d 8 16) src)] })) ∧
    (∀ k, inAll io = true → aesMay s 6 e → aesKey s d 1 0 = some k → ends .ctr 0 { outsNone with
      mem := [(dW d 0x28, ctrMode (aesKeys k) inc128 (aIv d 16) src)] }) ∧
    (∀ k,
      let v := slotOf s (dB d 4)
      aesMay s 7 e → sramIn (dW d 0x28) (16 + lenBytes v.len) = true → aesKey s d 3 0 = some k →
      (8 ≤ dB d 4 → slotEmpty s (dB d 4) = false → ((slotOf s (dB d 3)).pid = 0 ∨ v.pid = (slotOf s (dB d 3)).pid) →
        ends .kwWrap 0 { outsNone with mem := [(dW d 0x28, kwWrap k (beBytes 8 v.attr.toNat ++ keyBytes v))] }) ∧
      ((dB d 4 < 8 ∨ slotEmpty s (dB d 4) = true ∨ ((slotOf s (dB d 3)).pid ≠ 0 ∧ v.pid ≠ (slotOf s (dB d 3)).pid)) →
        ends .kwWrap 2 outsNone)) ∧
    (∀ k, aesMay s 8 e → dW d 0x24 % 8 = 0 → 16 ≤ dW d 0x24 → dW d 0x24 ≤ 4104 → sramIn (dW d 0x20) (dW d 0x24) = true →
      aesKey s d 3 0 = some k →
      ((dB d 4 < 8 ∨ slotEmpty s (dB d 4) = false) → ends .kwUnwrap 8 outsNone) ∧
      (8 ≤ dB d 4 → slotEmpty s (dB d 4) = true → kwUnwrap k src = none → ends .kwUnwrap 7 outsNone) ∧
      (∀ pt, 8 ≤ dB d 4 → slotEmpty s (dB d 4) = true → kwUnwrap k src = some pt →
        let a := w32 (beVal (slice pt 4 4))
        let fits : Prop := beVal (slice pt 0 4) = 0 ∧ pt.length = 8 + lenBytes (fld a 29 28) ∧ attrBad a = false ∧
          ((slotOf s (dB d 3)).pid = 0 ∨ fld a 15 8 = (slotOf s (dB d 3)).pid)
        (fits → ends .kwUnwrap 0 { outsNone with slot := some (dB d 4, a, pt.drop 8) }) ∧ (¬ fits → ends .kwUnwrap 7 outsNone))) ∧
    (drbgWaits s true = true → exec .drbgGen s = .next s) ∧
    (∀ s1, aesMay s 9 e → drbgWaits s true = false → 1 ≤ dW d 0x24 → dW d 0x24 ≤ 65536 → dW d 0x1C ≤ 65536 → sramIn (dW d 0x18) (dW d 0x1C) = true →
      sramIn (dW d 0x28) (dW d 0x24) = true → drbgGrant s (decide (dB d 1 / 8 % 2 = 1)) = some s1 →
      exec .drbgGen s = .next (aesBegan s (drew s1 (dW d 0x24 / 64 + 1)) e 0 { outsNone with
        mem := [(dW d 0x28, drbgBytes s1.free (dW d 0x24))] }))

/-- R210, R214 to R218: SYM_JOB, the end of an AES job, and the entropy source. A window of raw bits that passes the continuous tests becomes
one block of the pool where it has room, one that fails restarts the source; three failed tests within a second, or three failed start-up
tests, end it; a start-up test that passes returns it to service. What waited for the source goes on. A reseed that is due starts the count of requests again; after the Shutter nothing is granted. -/
def Obligations.AesAndEntropy : Prop :=
  ∀ s,
    (∀ w (off : Word), fabOk s w = true →
      let cls := (sramByte s (off.toNat + 1)).toNat % 4
      (descOk off.toNat 64 = true → (s.aes.queue.filter (fun e => decide (e.1 = cls))).length < 16 →
        exec (.symJob w off) s = .next (answer { s with aes := { s.aes with
          queue := s.aes.queue ++ [(cls, off.toNat)] } } .ok)) ∧
      (descOk off.toNat 64 = true → 16 ≤ (s.aes.queue.filter (fun e => decide (e.1 = cls))).length →
        exec (.symJob w off) s = .next (answer s .efull))) ∧
    (∀ j, coreOn s = true → s.aes.run = some j → j.outs.slot = none → ∃ u, exec .aesJobDone s = .next u ∧ u.aes = { s.aes with run := none } ∧
      u.sram = sramPut (sramPut (j.outs.mem.foldl (fun m c => sramPut m c.1 c.2) s.sram) (j.addr + 0x38) (leBytes 4 j.seq)) (j.addr + 0x3C)
        (leBytes 4 (j.result * 2 ^ 28 + 2 ^ 27)) ∧ u.sbox = s.sbox ∧ bitOf (hdr u (pgFw 6)).event 0 = true) ∧
    (∀ j n a key, coreOn s = true → s.aes.run = some j → j.outs.slot = some (n, a, key) → slotEmpty s n = true →
      ∃ u, exec .aesJobDone s = .next u ∧ (∀ k, k ≠ n → slotOf u k = slotOf s k) ∧ (slotOf u n).key = keyOf (slice key 0 (lenBytes (fld a 29 28))) ∧
        fld (slotOf u n).attr 31 30 = 3) ∧
    (coreOn s = true →
      let passed := settle (drbgResume { s with rng := { s.rng with es := 0, startFails := 0, poolAt := s.time } })
      (∀ raw,
        (s.rng.es = 2 → exec (.entropyTestFail raw) s = .next (settle (drbgResume s))) ∧
        (s.rng.es = 0 → rawFails raw = true → ∃ t, exec (.entropyTestFail raw) s = .next (settle (drbgResume t)) ∧
          t.rng.intermittent = satAdd 255 s.rng.intermittent 1 ∧ t.sbox = s.sbox ∧
          t.rng.es = (if 2 ≤ (s.rng.failTimes.filter (fun t => decide (s.time < t + oneSecond))).length then 2 else 1)) ∧
        (s.rng.es = 0 → rawFails raw = false →
          let r := poolRefill s
          exec (.entropyTestFail raw) s = .next (settle (drbgResume (if poolSize ≤ r.rng.pool.length then r
            else { r with rng := { r.rng with pool := r.rng.pool ++ [condition raw] } })))) ∧
        (s.rng.es = 1 → rawFails raw = true → ∃ t, exec (.entropyTestFail raw) s = .next (settle (drbgResume t)) ∧
          t.rng.startFails = s.rng.startFails + 1 ∧ t.rng.es = (if 2 ≤ s.rng.startFails then 2 else 1) ∧ t.rng.pool = s.rng.pool) ∧
        (s.rng.es = 1 → rawFails raw = false → exec (.entropyTestFail raw) s = .next passed)) ∧
      (s.rng.es = 1 → exec .entropyRestartDone s = .next passed) ∧ (s.rng.es ≠ 1 → exec .entropyRestartDone s = .next s) ∧
      (reseedDue s false = true → s.rng.es ≠ 2 → s.rng.dead = false → ∃ t, exec .drbgReseed s = .next t ∧ t.rng.genCount = 0 ∧
        t.rng.reseeds = satInc s.rng.reseeds ∧ t.rng.lastSeed = s.time ∧ t.rng.seed.length = 3 ∧
        (3 ≤ (poolRefill s).rng.pool.length →
          t.rng.seed = (poolRefill s).rng.pool.take 3 ∧ t.rng.pool = (poolRefill s).rng.pool.drop 3) ∧
        t = { s with rng := t.rng, free := t.free }) ∧
      ((reseedDue s false = false ∨ s.rng.es = 2 ∨ s.rng.dead = true) → exec .drbgReseed s = .next s)) ∧
    (s.rng.dead = true → ∀ b, drbgGrant s b = none)

/-- R219 to R222: the check-value units. START takes the unit for its initiator and INIT into RUNNING, data is fed under the unit's WIDTH,
POLY and REFIN, MEMRUN feeds a range of main SRAM and is BUSY until its end, FINISH frees the unit. Another initiator's command is
refused. -/
def Obligations.CheckValueUnits : Prop :=
  ∀ s w (u : BitVec 3), fabOk s w = true →
    let c := cvu s u.toNat
    let fed (c : Cvu) (bs : List Byte) : Cvu := { c with
      running := w32 (crcFeed c.width c.poly.toNat (bitOf c.cfg 0) (c.running.toNat % 2 ^ c.width) bs) }
    let becomes (i : Instr) (v : Cvu) : Prop := ∃ t, exec i s = .next (answer t .ok) ∧ cvu t u.toNat = v ∧
      (∀ k, k ≠ u.toNat → cvu t k = cvu s k) ∧ t = { s with cvu := t.cvu }
    (c.foldMode = 0 ∨ c.foldMode = 2 → becomes (.cvuStart w u) { c with running := c.init, holder := w.num + 1, busy := false }) ∧
    (c.widthOk = true → (c.foldMode = 1 ∨ c.foldMode = 3) →
      becomes (.cvuStart w u) (fed { c with running := c.init, holder := w.num + 1, busy := false } (foldBytes c))) ∧
    (c.holder ≠ 0 → c.holder ≠ w.num + 1 → ∀ d b, ∀ i ∈ [Instr.cvuFinish w u, .cvuMemrun w u, .cvuData w u d, .cvuData8 w u b],
      exec i s = .next (answer s .eaccess)) ∧
    ((c.holder = 0 ∨ c.holder = w.num + 1) →
      (c.widthOk = true → ∀ d b,
        becomes (.cvuData w u d) (fed c (orderWords (bitOf c.cfg 6) 1 (leBytes 4 d.toNat))) ∧ becomes (.cvuData8 w u b) (fed c [b])) ∧
      (c.widthOk = false → ∀ d b, ∀ i ∈ [Instr.cvuData w u d, .cvuData8 w u b], ∃ t, exec i s = .next (answer t .ok) ∧
        (∀ k, k ≠ u.toNat → cvu t k = cvu s k) ∧ cvu t u.toNat = { c with running := (cvu t u.toNat).running } ∧
        t = { s with cvu := t.cvu, free := t.free }) ∧
      (c.foldMode = 0 ∨ c.foldMode = 1 → becomes (.cvuFinish w u) { c with holder := 0 }) ∧
      (c.foldMode = 3 → becomes (.cvuFinish w u) { c with holder := 0, fold := c.fold + BitVec.ofNat 64 c.foldStep.toNat }) ∧
      (c.foldMode = 2 → c.widthOk = true → becomes (.cvuFinish w u) (fed { c with holder := 0 } (foldBytes c))) ∧
      (c.busy = true → exec (.cvuMemrun w u) s = .next (answer s .ok)) ∧
      (c.busy = false → sramIn c.src.toNat c.len.toNat = false → becomes (.cvuMemrun w u) { c with busy := true, memErr := true }) ∧
      (c.busy = false → sramIn c.src.toNat c.len.toNat = true → c.widthOk = true →
        becomes (.cvuMemrun w u) (fed { c with busy := true, memErr := false }
          (orderWords (bitOf c.cfg 6) ((c.len.toNat + 3) / 4) (sramRead s c.src.toNat c.len.toNat))))) ∧
    (coreOn s = true → c.busy = true → ∃ t, exec (.cvuMemrunDone u) s = .next t ∧ cvu t u.toNat = { c with busy := false } ∧
      bitOf (hdr t (pgFw 7)).event u.toNat = true ∧ t = { s with cvu := t.cvu, hdrs := t.hdrs }) ∧
    (c.busy = false → exec (.cvuMemrunDone u) s = .next s)

/-! ## Translation, interrupts, Quench and service classes (chapters 10 to 12) -/

/-- R289, R292, R299: the commands of XL_CMD. SEND refuses a kind above 5 or a slot without a Tally (BAD_DESC 2), then a full queue of 16
(FULL 1); otherwise the request joins the queue with the next sequence number, demoted to Journeyman when admission refuses it.
FQ_REGISTER takes the ring that the registers name, when it lies in one region of the partition, FQ_RELEASE gives it up; each waits for
its commit; a ring in another region leaves the old one first. R294 to R298, Table 10-5a: a fault record of 32 bytes joins the open batch with the time that KX3 gives it, and closes the
batch as the 64th (1), or as a record of a Master context (3); 20 us close it too (2). With 64 open records and two closed batches a
record is answered EFULL. 200 us without every DRAIN_ACK of the request at the head begin its fence, whose wait of 5 ms ends in step 4. -/
def Obligations.TranslationRows : Prop :=
  (∀ s tag id,
    let src := Src.hcp tag id
    let p := tagPid tag
    let x := xlat s p
    pagePasses s src 3 0x40 →
    (let d := pReg64 s p 0x3048 % 2 ^ 48
     let tw := pReg s p 0x3050
     let badSlot : Prop := bitOf tw 15 = false ∧ tallyOfSlot s p (fld tw 10 0) = none
     let gives (r : Nat) : Prop := exec (.xlSend src) s = .next (respond (setXlat s p { x with result := r }) src .ok)
     ((5 < nfld d 47 45 ∨ badSlot) → gives 2) ∧
     (nfld d 47 45 ≤ 5 → ¬ badSlot → 16 ≤ x.queue.length → gives 1) ∧
     (nfld d 47 45 ≤ 5 → ¬ badSlot → x.queue.length < 16 →
       ∃ t q, exec (.xlSend src) s = .next (respond (xlPump 3 t p) src .ok) ∧
         xlat t p = { x with queue := x.queue ++ [q], seq := (x.seq + 1) % 2 ^ 20, result := 0 } ∧
         q.seq = (x.seq + 1) % 2 ^ 20 ∧ q.desc = BitVec.ofNat 48 d ∧ q.tally = (if bitOf tw 15 then none else some (fld tw 10 0)) ∧
         q.cls = (if fld tw 17 16 = 0 ∧ ¬ (1 ≤ (bucket s p).tokens ∧ (bucket s p).out < 8) then 1 else fld tw 17 16) ∧
         q.reuseCnt = fld (pReg s p 0x3060) 22 0 ∧ t.xcnt.sent = satInc s.xcnt.sent ∧
         (∀ k, k ≠ p → xlat t k = xlat s k) ∧
         t = { s with xlat := t.xlat, qos := { s.qos with buckets := t.qos.buckets }, xcnt := { s.xcnt with sent := t.xcnt.sent } })) ∧
    (let base := pReg64 s p 0x3068
     let slots := fld (pReg s p 0x3070) 8 0
     let fits : Prop := base % 4096 = 0 ∧ slots ∈ [2, 4, 8, 16, 32, 64, 128, 256]
     let gives (i : Instr) (r : Nat) : Prop := exec i s = .next (settle (respond (setXlat s p { x with result := r }) src .ok))
     (x.ringBusy = true → gives (.fqRegister src) 4 ∧ gives (.fqRelease src) 4) ∧
     (x.ringBusy = false →
       ((¬ fits ∨ ownedRegion s p base (4096 * slots) = none) → gives (.fqRegister src) 3) ∧
       (∀ i, fits → ownedRegion s p base (4096 * slots) = some i →
         exec (.fqRegister src) s = .next (settle (respond (pushJob (setXlat (if x.ringRegion = i then s else ringLeaves s p) p { x with
           ringOn := false, ringBusy := true, ringBase := base, ringSlots := slots, ringTally := fld (pReg s p 0x3070) 26 16,
           ringRegion := i, result := 0 }) (.ring p i)) src .ok))) ∧
       (x.ringOn = false → gives (.fqRelease src) 5) ∧
       (x.ringOn = true → ∃ t, exec (.fqRelease src) s = .next (settle (respond t src .ok)) ∧
         t.part = { s.part with jobs := s.part.jobs ++ [.ringRelease p x.ringRegion] } ∧ (xlat t p).ringOn = false ∧
         (xlat t p).ringBusy = true ∧ (xlat t p).result = 0 ∧ (x.closed.length < 2 → (xlat t p).openB = []) ∧
         (∀ k, k ≠ p → xlat t k = xlat s k) ∧ t = { s with part := t.part, xlat := t.xlat, hip := t.hip })))) ∧
  (∀ s,
    (∀ tag id bytes,
      let src := Src.hcp tag id
      let p := tagPid tag
      let x := xlat s p
      pagePasses s src 3 0x100 →
      (bytes.length ≠ 32 → exec (.xlFaultIn src bytes) s = .next (refuse s src (.win p 3 0x100) (winBase p + 0x3100) .edecode)) ∧
      (bytes.length = 32 → 64 ≤ x.openB.length → 2 ≤ x.closed.length →
        exec (.xlFaultIn src bytes) s = .next (refuse s src (.win p 3 0x100) (winBase p + 0x3100) .efull)) ∧
      (bytes.length = 32 → (x.openB.length < 64 ∨ x.closed.length < 2) →
        ∃ t m, exec (.xlFaultIn src bytes) s = .next (respond (xlRingStep t p) src .ok) ∧
          (let r : FRec := { bytes := slice bytes 0 16 ++ leBytes 6 (shownTime s p s.time) ++ [0, 0] ++ slice bytes 24 8, master := m }
           let batch (reason : Nat) : Batch := { reason := reason, closed := shownTime s p s.time, recs := x.openB ++ [r] }
           (recMaster x bytes = false → m = false ∧ (x.openB.length ≠ 63 → xlat t p = { x with openB := x.openB ++ [r] }) ∧
             (x.openB.length = 63 → x.closed.length < 2 →
               xlat t p = { x with openB := [], due := 0, closed := x.closed ++ [batch 1] })) ∧
           (recMaster x bytes = true → m = decide (1 ≤ (bucket s p).tokens ∧ (bucket s p).out < 8) ∧
             (x.closed.length < 2 → xlat t p = { x with openB := [], due := 0, closed := x.closed ++ [batch 3] }))) ∧
          t.xcnt.records = satInc s.xcnt.records ∧ (∀ k, k ≠ p → xlat t k = xlat s k))) ∧
    (∀ pid : Byte,
      let p := pid.toNat
      let x := xlat s p
      (x.openB = [] → exec (.batchTimer pid) s = .next (xlRingStep s p)) ∧
      (x.openB ≠ [] → x.closed.length < 2 → exec (.batchTimer pid) s = .next (xlRingStep (setXlat s p { x with
        openB := [], due := 0, closed := x.closed ++ [{ reason := 2, closed := shownTime s p s.time, recs := x.openB }] }) p)) ∧
      (x.openB ≠ [] → 2 ≤ x.closed.length →
        exec (.batchTimer pid) s = .next (xlRingStep (setXlat s p { x with due := if x.due = 0 then 2 else x.due }) p)) ∧
      (s.cpb.flights.find? (fun f => decide (f.frame.use = .inval p)) = none → exec (.invalTimeout pid) s = .next s) ∧
      (∀ fl q rest, s.cpb.flights.find? (fun f => decide (f.frame.use = .inval p)) = some fl → x.fence = none →
        x.queue = q :: rest → x.sent = true → nfld q.desc.toNat 47 45 ≤ 3 →
        exec (.invalTimeout pid) s = .next (xlPump 2 (fwEvent (setXlat s p { x with fence := some {
          step := 1, regions := fenceRegions s p q, unit := fl.frame.agent, silent := false } }) (pgFw 0xB) 1) p)) ∧
      (∀ f, x.fence = some f → f.step = 3 → exec (.invalFenceDrainEnd pid) s = .next (xlPump 2 (sendFences
        (setXlat s p { x with fence := some { f with step := 4 } }) (fenceOwned s p f) (pshared s p).gen false (.fence p true)) p)) ∧
      (∀ f, x.fence = some f → f.step ≠ 3 → exec (.invalFenceDrainEnd pid) s = .next s) ∧
      (x.fence = none → exec (.invalFenceDrainEnd pid) s = .next s)))

/-- R315, R316: APPLY commits the staged bindings of the partition's sources, or gives BUSY 1 while it may not, BAD_VECTOR 2 for an
enabled binding at or above VECTORS; DISCARD makes every staged binding the active one. IRQ_BIND binds operator sources: a wrong count is
a bad frame, a source of another PID BAD_RESOURCE 6, an enabled vector below 8 LIMIT 4, a bundle in progress BUSY 8 (a model's choice: the
spec orders the codes, and DEDUCED from R266 for the last). -/
def Obligations.InterruptBindings : Prop :=
  ∀ s tag id,
    let src := Src.hcp tag id
    let p := tagPid tag
    (pagePasses s src 4 0x50 →
      let es := (s.part.active.sources p).map (fun n => (n, entryOf p (stagedOf s n)))
      let bad : Prop := ∃ e ∈ es, bitOf e.2 0 = true ∧ vectors s p ≤ fld e.2 23 16
      ((pstate s p ≠ .running ∨ bundleBusy s = true ∨ smGet false s.irq.running p = true) →
        exec (.irqApply src) s = .next (settle (respond (irqResult s p 1) src .ok))) ∧
      (pstate s p = .running → bundleBusy s = false → smGet false s.irq.running p = false →
        (bad → exec (.irqApply src) s = .next (settle (respond (irqResult s p 2) src .ok))) ∧
        (¬ bad → exec (.irqApply src) s =
          .next (settle (respond (pushJob (irqRunning (irqResult s p 0) p true) (.irqApply p es)) src .ok)))) ∧
      (smGet false s.irq.running p = true → exec (.irqDiscard src) s = .next (respond (irqResult s p 1) src .ok)) ∧
      (smGet false s.irq.running p = false → ∃ t, exec (.irqDiscard src) s = .next (respond t src .ok) ∧
        smGet 0 t.irq.result p = 0 ∧ (∀ n ∈ s.part.active.sources p, stagedOf t n = entryView (s.part.active.srcWord n)) ∧
        (∀ n, n ∉ s.part.active.sources p → stagedOf t n = stagedOf s n) ∧ t = { s with irq := t.irq })) ∧
    (∀ (ch : Chan) (tg : BitVec 6) cls n ws, asked s ch tg 0x0307 cls (n :: ws) →
      let u := taken s ch tg 0x0307
      let es := bindEntries ws
      let foreign : Prop := ∃ e ∈ es, fld (s.part.active.srcWord e.1) 31 24 ≠ 1
      let low : Prop := ∃ e ∈ es, bitOf e.2 0 = true ∧ fld e.2 23 16 < 8
      let gives (r : Nat) : Prop := exec (.irqBind ch tg) s = .next (settle (replyCode u ch.num tg.toNat 0x0307 r))
      (n.toNat ≠ ws.length → exec (.irqBind ch tg) s = .next (settle (replyError u ch.num tg.toNat 2 0x0307))) ∧
      (n.toNat = ws.length → (foreign → gives 6) ∧ (¬ foreign → low → gives 4) ∧ (¬ foreign → ¬ low → bundleBusy s = true → gives 8) ∧
        (¬ foreign → ¬ low → bundleBusy s = false →
          exec (.irqBind ch tg) s = .next (settle (pushJob u (.irqBind ch.num tg.toNat cls ws))))))

/-- R323 to R329: a Quench is accepted from QN_CMD and from a QUENCH message for a partition that is CONFIGURED or RUNNING, merged while
one is in progress before its step 11, and refused otherwise; accepted, the partition is QUENCHING and the sequence stands at step 1.
QUENCH_RESUME lets the oldest one that waits have a place of the four, and the end of the drain wait is noted from step 5 on. R262, R263:
a quarantine is lifted when the operator and the partition have both asked; PART_START loads the sites of a CONFIGURED partition, and both
refuse another state, a PID that is no tenant, and a body that is not one word. -/
def Obligations.QuenchCommands : Prop :=
  ((∀ s w (pid : Byte) (out : BitVec 2), fabOk s w = true →
    let p := pid.toNat
    let s0 := setReg (answer s .ok) 0xD040 (w32 (out.toNat * 2 ^ 24 + p * 256))
    let done (r : Nat) (t : State) : Prop := exec (.qnStart w pid out) s = .next (settle { t with qn := { t.qn with result := r } })
    (tenant p = false → done 2 s0) ∧ (tenant p = true → out = 3 → done 1 s0) ∧
    (tenant p = true → out ≠ 3 →
      ((pstate s p = .configured ∨ pstate s p = .running) → done 0 (quenchStart s0 p out.toNat .firmware false)) ∧
      (∀ q, pstate s p = .quenching → quenchOf s p = some q →
        (q.step ≤ 10 → done 0 (quenchMerge s0 q out.toNat false)) ∧ (10 < q.step → done 1 s0)) ∧
      ((pstate s p = .free ∨ pstate s p = .quarantined ∨ pstate s p = .retiring) → done 1 s0))) ∧
  (∀ s p out req esc, pstate s p ≠ .quenching → ∃ q, (quenchStart s p out req esc).qn.active = s.qn.active ++ [q] ∧ q.pid = p ∧
    q.outcome = (if out = 0 ∧ pstate s p ≠ .running then 1 else out) ∧ q.step = 1 ∧ q.place = none ∧
    pstate (quenchStart s p out req esc) p = .quenching ∧
    (genPermits s p (((pshared s p).gen + 1) % 64) = true →
      (pshared (quenchStart s p out req esc) p).gen = ((pshared s p).gen + 1) % 64)) ∧
  (∀ s q out esc, quenchMerge s q out esc = { s with qn := { s.qn with active := s.qn.active.map (fun x =>
    if x.pid = q.pid then { q with outcome := Nat.max q.outcome out, esc := q.esc || esc } else x) } }) ∧
  (∀ s (ch : Chan) (tag : BitVec 6) cls w, asked s ch tag 0x0304 cls [w] →
    let u := taken s ch tag 0x0304
    let p := if operChan ch.num then fld w 7 0 else chanPid ch.num
    let gives (r : Nat) (t : State) : Prop := exec (.quench ch tag) s = .next (settle (replyCode t ch.num tag.toNat 0x0304 r))
    (tenant p = false → gives 6 u) ∧ (tenant p = true → 2 ≤ fld w 9 8 → gives 1 u) ∧
    (tenant p = true → fld w 9 8 < 2 →
      ((pstate s p = .configured ∨ pstate s p = .running) →
        (operChan ch.num = true → gives 0 (quenchStart u p (fld w 9 8) (.oper ch.num) false)) ∧
        (operChan ch.num = false → exec (.quench ch tag) s = .next (settle (quenchStart u p (fld w 9 8) .tenant false)))) ∧
      (∀ q, pstate s p = .quenching → quenchOf s p = some q →
        (q.step ≤ 10 → operChan ch.num = true → gives 0 (quenchMerge u q (fld w 9 8) false)) ∧
        (q.step ≤ 10 → operChan ch.num = false → exec (.quench ch tag) s = .next (settle (quenchMerge u q (fld w 9 8) false))) ∧
        (10 < q.step → gives 1 u)) ∧
      ((pstate s p = .free ∨ pstate s p = .quarantined ∨ pstate s p = .retiring) → gives 1 u))) ∧
  (∀ s q, s.qn.active.find? (fun q => decide (q.step = 2) && q.blocked) = some q → placedCount s < 4 →
    exec .quenchResume s = .next (settle (quenchThree s q.pid))) ∧
  (∀ s, (s.qn.active.find? (fun q => decide (q.step = 2) && q.blocked) = none ∨ 4 ≤ placedCount s) →
    exec .quenchResume s = .next (settle s)) ∧
  (∀ s (pid : Byte),
    (quenchOf s pid.toNat = none → exec (.quenchDrainWaitEnd pid) s = .next (settle s)) ∧
    (∀ q, quenchOf s pid.toNat = some q → 5 ≤ q.step →
      exec (.quenchDrainWaitEnd pid) s = .next (settle (setQuench s { q with drained := true }))))) ∧
  ((∀ s (ch : Chan) (tag : BitVec 6) cls w, asked s ch tag 0x0305 cls [w] →
    let u := taken s ch tag 0x0305
    let p := if operChan ch.num then fld w 7 0 else chanPid ch.num
    let gives (r : Nat) (t : State) : Prop := exec (.quarantineLift ch tag) s = .next (settle (replyCode t ch.num tag.toNat 0x0305 r))
    let v := pshared s p
    (tenant p = false → gives 6 u) ∧ (tenant p = true → pstate s p ≠ .quarantined → gives 1 u) ∧
    (tenant p = true → pstate s p = .quarantined →
      (operChan ch.num = true → v.liftPriv = false → gives 0 (setPshared u p { v with liftOper := true })) ∧
      (operChan ch.num = false → v.liftOper = false → gives 0 (setPshared u p { v with liftPriv := true })) ∧
      (((operChan ch.num = true ∧ v.liftPriv = true) ∨ (operChan ch.num = false ∧ v.liftOper = true)) →
        ∃ t, exec (.quarantineLift ch tag) s = .next (settle t) ∧ pstate t p = .configured ∧ (pshared t p).gen = v.gen ∧
          (∀ k, k ≠ p → pshared t k = pshared s k)))) ∧
  (∀ s (ch : Chan) (tag : BitVec 6) cls body, asked s ch tag 0x0305 cls body → operChan ch.num = true → body.length ≠ 1 →
    exec (.quarantineLift ch tag) s = .next (settle (replyError (taken s ch tag 0x0305) ch.num tag.toNat 2 0x0305))) ∧
  (∀ s (ch : Chan) (tag : BitVec 6) cls w, asked s ch tag 0x0303 cls [w] →
    let u := taken s ch tag 0x0303
    let p := fld w 7 0
    let why := LoadWhy.partStart p ch.num tag.toNat cls
    let loading : Prop := ∃ l ∈ s.boot.loads, ∃ c g k, l.why = .partStart p c g k
    let here := (sitesOf s p).filter (fun k => s.pins.sitePresent.getLsbD k && !s.pins.siteHoldN.getLsbD k && (siteEnt s k).isSome &&
      !siteWithheld s k)
    let gives (r : Nat) : Prop := exec (.partStart ch tag) s = .next (settle (replyCode u ch.num tag.toNat 0x0303 r))
    (tenant p = false → gives 6) ∧ (tenant p = true → pstate s p ≠ .configured → gives 1) ∧
    (tenant p = true → pstate s p = .configured → loading → gives 8) ∧
    (tenant p = true → pstate s p = .configured → ¬ loading → siteGroups s here = [] →
      let t := setState u p .running
      exec (.partStart ch tag) s = .next (settle (reply t ch.num tag.toNat 0x0303 [w32 (heldMask t p)]))) ∧
    (tenant p = true → pstate s p = .configured → ¬ loading → siteGroups s here ≠ [] →
      exec (.partStart ch tag) s = .next (settle { u with boot := { s.boot with loads := s.boot.loads ++ (siteGroups s here).map (fun g =>
        { sites := g, why := why, pos := .ready, alt := 0, image := none, length := 0, buf := [], num := 0 }) } }))))

/-- R336 to R338, R345 to R347, R279: admission, releases and the retry of a scrub. A token arrives in the bucket of PID 1 to 65 up to 2;
the operator's rate is taken when it and the sum of the rates fit, and fills the bucket of PID 1; a release performs the k-th response
that a sealed partition waits for. A region whose scrub failed is due again. -/
def Obligations.Admission : Prop :=
  (∀ s (pid : Byte),
    (1 ≤ pid.toNat → pid.toNat ≤ 65 → ∃ u, exec (.tokenRefill pid) s = .next u ∧
      bucket u pid.toNat = { bucket s pid.toNat with tokens := Nat.min 2 ((bucket s pid.toNat).tokens + 1) } ∧
      (∀ k, k ≠ pid.toNat → bucket u k = bucket s k) ∧ u = { s with qos := { s.qos with buckets := u.qos.buckets } }) ∧
    ((pid.toNat = 0 ∨ 65 < pid.toNat) → exec (.tokenRefill pid) s = .next s)) ∧
  (∀ s w (rate : BitVec 16), fabOk s w = true →
    let sum := listSum (s.part.active.pids.map s.part.active.pRate) + rate.toNat
    ((50000 < rate.toNat ∨ s.qos.capacity < sum) → exec (.qosOperRateWrite w rate) s = .next (answer s .eaccess)) ∧
    (rate.toNat ≤ 50000 → sum ≤ s.qos.capacity → ∃ u, exec (.qosOperRateWrite w rate) s = .next (answer u .ok) ∧
      u.qos.operRate = rate.toNat ∧ (bucket u 1).tokens = 2 ∧ (bucket u 1).out = (bucket s 1).out ∧ (∀ k, k ≠ 1 → bucket u k = bucket s k) ∧
      u = { s with qos := { s.qos with operRate := u.qos.operRate, buckets := u.qos.buckets } })) ∧
  (∀ s (pid k : Byte),
    (∀ i h, heldAt s pid.toNat k.toNat false = some (i, h) →
      exec (.sealedRelease pid k) s = .next (releaseNow { s with qos := { s.qos with held := s.qos.held.eraseIdx i } } h)) ∧
    (∀ i r d n, heldAt s pid.toNat k.toNat true = some (i, { pid := pid.toNat, eff := .hcp r d n, master := false }) →
      exec (.sealedHcpResponse pid k) s = .next (answer { s with qos := { s.qos with held := s.qos.held.eraseIdx i } } r d n)) ∧
    (heldAt s pid.toNat k.toNat false = none → exec (.sealedRelease pid k) s = .next s) ∧
    (heldAt s pid.toNat k.toNat true = none → exec (.sealedHcpResponse pid k) s = .next s)) ∧
  (∀ s (region : BitVec 13) n, smGet 0 s.part.failed region.toNat = n + 2 → (rshared s region.toNat).state = 1 →
    exec (.scrubRetry region) s = .next (settle { s with part := { s.part with failed := smSet 0 s.part.failed region.toNat 1 } })) ∧
  (∀ s (region : BitVec 13), (smGet 0 s.part.failed region.toNat < 2 ∨ (rshared s region.toNat).state ≠ 1) →
    exec (.scrubRetry region) s = .next (settle s))

/-! ## The Assay's commands (chapters 15, 16) -/

/-- R413 to R417, Table 15-6: SUBMIT and RUN make their checks in order and answer the first that fails, with nothing taken: no free place
1, the descriptor 2, the declaration 3 (RUN: no such program 10), the limits 4, a tensor that the partition may not use 5, the quota 6.
One that passes, whose bytes are all tapped and for which the DRBG grants the draw, is open in the lowest free place (a model's choice,
log entry 44) and takes the next operation number; no other place changes. -/
def Obligations.AssaySubmissions : Prop :=
  ∀ s tag id,
    let src := Src.hcp tag id
    let p := tagPid tag
    let d := asyDesc s p
    let a := apart s p
    let gives (i : Instr) (r : Nat) : Prop := exec i s = .next (respond (asyResult s p r) src .ok)
    let opens (i : Instr) (k : Nat) (run : Bool) : Prop := ∀ s1, drbgGrant s false = some s1 → ∃ u o,
      exec i s = .next (respond u src .ok) ∧ opAt u p k = some o ∧ o.desc = d ∧ o.stage = 0 ∧ o.isRun = run ∧ o.opno = a.opno ∧ o.trig = oTrig d ∧ o.opened = s.time ∧ o.gen = genOf s p ∧
      o.sampled = decide ((freeNow s1).toNat % 2 ^ oSample d = 0) ∧ o.wbase = s1.free + 1 ∧ o.blocks = [] ∧ o.untapped = false ∧
      o.ctx = (if run then some (ctxStart d) else none) ∧
      apart u p = { a with result := 0, opno := (a.opno + 1) % 65536, lastOp := a.opno, accepted := a.accepted + 1 } ∧
      (∀ q j, j < 4 → (q ≠ p ∨ j ≠ k) → place u q j = place s q j) ∧ u = { s with asy := u.asy, rng := u.rng, free := u.free }
    pagePasses s src 5 0x40 →
    (freePlace s p = none → gives (.asySubmit src) 1 ∧ gives (.asyRun src) 1) ∧
    (∀ k, freePlace s p = some k →
      (opDescOk d = false → gives (.asySubmit src) 2) ∧
      (opDescOk d = true → opDeclOk d = false → gives (.asySubmit src) 3) ∧
      (opDescOk d = true → opDeclOk d = true →
        (opLimitOk d = false → gives (.asySubmit src) 4) ∧
        (opLimitOk d = true → tensorsOwned s p (opTensors d) = false → gives (.asySubmit src) 5) ∧
        (opLimitOk d = true → tensorsOwned s p (opTensors d) = true →
          (a.quota < scratchUsed s p + opCost d → gives (.asySubmit src) 6) ∧
          (scratchUsed s p + opCost d ≤ a.quota → oKind d ≠ 0x80 → allTapped s (opTensors d) = true →
            opens (.asySubmit src) k false))) ∧
      (oKind d ≠ 0x80 → gives (.asyRun src) 2) ∧
      (oKind d = 0x80 → progOf s p (oBands d) = none → runDescOk d 0 = true → gives (.asyRun src) 10) ∧
      (∀ g, oKind d = 0x80 → progOf s p (oBands d) = some g →
        (runDescOk d (le g.obj 0x10 4) = false → gives (.asyRun src) 2) ∧
        (runDescOk d (le g.obj 0x10 4) = true → runLimitOk d = false → gives (.asyRun src) 4) ∧
        (runDescOk d (le g.obj 0x10 4) = true → runLimitOk d = true → tensorsOwned s p (runTensors d) = false → gives (.asyRun src) 5) ∧
        (runDescOk d (le g.obj 0x10 4) = true → runLimitOk d = true → tensorsOwned s p (runTensors d) = true →
          (a.quota < scratchUsed s p + runCost d → gives (.asyRun src) 6) ∧
          (scratchUsed s p + runCost d ≤ a.quota → allTapped s (runTensors d) = true →
            opens (.asyRun src) k true))))

/-- R415, R423, R437, R440, R465, Table 15-12: CLOSE closes every open operation of its TRIG, CANCEL ends one ABORTED, each answering 7
when there is none; counting ends 20 us after the close, and ASSAY_VERDICT then judges an operation, or ends a run that was not sampled
with 4 and cause 6, or 6 after a tap fault. Each recheck that does not confirm a form is a disagreement of its array, and without one
nothing but the operation's end happens. The verdict ring is registered and released by commits; a ring in another region leaves the old
one first. -/
def Obligations.AssayProgress : Prop :=
  (∀ s tag id,
    let src := Src.hcp tag id
    let p := tagPid tag
    let a := apart s p
    let trig := fld (pReg s p 0x5044) 15 0
    let k := fld (pReg s p 0x5044) 17 16
    let gives (i : Instr) (r : Nat) : Prop := exec i s = .next (respond (asyResult s p r) src .ok)
    pagePasses s src 5 0x40 →
    (hasTrig s p trig = false → gives (.asyClose src) 7) ∧
    (hasTrig s p trig = true → ∃ u, exec (.asyClose src) s = .next (respond u src .ok) ∧ (apart u p).result = 0 ∧
      (∀ j o, j < 4 → opAt s p j = some o → opAt u p j =
        some (if o.stage = 0 ∧ o.trig = trig then { o with stage := 1, closedAt := s.time, byAct := false } else o)) ∧
      (∀ q j, j < 4 → q ≠ p → place u q j = place s q j) ∧ u = { s with asy := u.asy }) ∧
    (opAt s p k = none → gives (.asyCancel src) 7) ∧
    (∀ o, opAt s p k = some o →
      (o.stage ≠ 0 → o.isRun = false → gives (.asyCancel src) 7) ∧
      ((o.stage = 0 ∨ o.isRun = true) → exec (.asyCancel src) s = .next (respond (opAbort (asyResult s p 0) p k o 8) src .ok))) ∧
    (let base := pReg64 s p 0x5060
     let slots := fld (pReg s p 0x5068) 12 0
     let fits : Prop := base % 4096 = 0 ∧ slots ∈ [2, 4, 8, 16, 32, 64, 128, 256, 512, 1024, 2048, 4096]
     let gives (i : Instr) (r : Nat) : Prop := exec i s = .next (settle (respond (asyResult s p r) src .ok))
     (a.ringBusy = true → gives (.logRegister src) 8 ∧ gives (.logRelease src) 8) ∧
     (a.ringBusy = false →
       ((¬ fits ∨ ownedRegion s p base (128 * slots) = none) → gives (.logRegister src) 5) ∧
       (∀ i, fits → ownedRegion s p base (128 * slots) = some i →
         exec (.logRegister src) s = .next (settle (respond (pushJob (setApart (if a.region = i then s else logLeaves s p) p { a with
           ringOn := false, ringBusy := true, base := base, size := slots, tally := fld (pReg s p 0x5068) 26 16, region := i, result := 0 })
           (.log p i)) src .ok))) ∧
       (a.ringOn = false → gives (.logRelease src) 9) ∧
       (a.ringOn = true → exec (.logRelease src) s = .next (settle (respond (pushJob (setApart s p { a with
         ringOn := false, ringBusy := true, result := 0 }) (.logRelease p a.region)) src .ok)))))) ∧
  (∀ s (pid : Byte) (k : BitVec 2) rs,
    let p := pid.toNat
    let j := k.toNat
    (opAt s p j = none → exec (.countingWindowEnd pid k) s = .next s ∧ exec (.assayVerdict pid ⟨k, rs⟩) s = .next s) ∧
    (∀ o, opAt s p j = some o →
      (o.stage = 1 → exec (.countingWindowEnd pid k) s = .next (setOp s p j { o with stage := 2 })) ∧
      (o.stage ≠ 1 → exec (.countingWindowEnd pid k) s = .next s) ∧
      (o.stage ≠ 2 → exec (.assayVerdict pid ⟨k, rs⟩) s = .next s) ∧
      (o.stage = 2 → o.isRun = false → o.tapFault = true →
        exec (.assayVerdict pid ⟨k, rs⟩) s = .next (opEnd s p j o (plainVerdict 6))) ∧
      (o.stage = 2 → o.isRun = false → o.tapFault = false → o.sampled = false →
        exec (.assayVerdict pid ⟨k, rs⟩) s = .next (opEnd s p j o (gapVerdict o.bandsE 6 1))) ∧
      (o.stage = 2 → o.isRun = false → o.tapFault = false → o.sampled = true →
        let bands := (List.range o.bandsE).map (fun b => judgeBand o.desc (weightsOf o.desc o.wbase) (feeds o.desc [] o.fed)
          (fun t blk => decide (o.block t blk = 1)) o.gaps rs b)
        exec (.assayVerdict pid ⟨k, rs⟩) s = .next (opEnd (disagreements s p o bands) p j o (bandsVerdict bands)) ∧
        ((∀ b ∈ bands, b.dis = []) → disagreements s p o bands = s)) ∧
      (o.stage = 2 → o.isRun = true → o.sampled = true → exec (.assayVerdict pid ⟨k, rs⟩) s = .next s) ∧
      (o.stage = 2 → o.isRun = true → o.sampled = false → o.tapFault = true →
        exec (.assayVerdict pid ⟨k, rs⟩) s = .next (opEnd s p j o (runVerdict s p o 6 0))) ∧
      (o.stage = 2 → o.isRun = true → o.sampled = false → o.tapFault = false →
        exec (.assayVerdict pid ⟨k, rs⟩) s = .next (opEnd s p j o { runVerdict s p o 4 6 with flags := 1 })))) ∧
  (∀ s p k (o : AOp) v, o.tally = none → (place (opEnd s p k o v) p k).op = none ∧ (place (opEnd s p k o v) p k).verdict = v.code)

/-- R407 to R411, R418 to R420, Table 15-7: a beat whose CRC or sequence fails is discarded and counted, and disables its port as the
seventeenth within a second; a port without a checker and one that is disabled take nothing. The transition of a block: LOST stays, an own
write of an output counts it once, any other one loses it, a write of an input loses it, a dropped write loses it. R417, R541: quotas and
slots are taken whole when R417 permits them, from ASF_QUOTA and from ASY_CONFIG, and the slot frame follows at its boundary. -/
def Obligations.TapsAndQuotas : Prop :=
  (∀ s (n : BitVec 4) data info b,
    ((s.block ≠ .boot ∧ serving s = false) → exec (.tapBeat n data info b) s = .next s) ∧
    ((tapPort s n.toNat).checker = none → exec (.tapBeat n data info b) s = .next s) ∧
    ((tapPort s n.toNat).disabled = true → exec (.tapBeat n data info b) s = .next s) ∧
    (∀ c, (s.block = .boot ∨ serving s = true) → (tapPort s n.toNat).checker = some c → (tapPort s n.toNat).disabled = false →
      let m := metaOf info
      let good : Prop := m.crc = tapCrc info data ∧ ∀ q, (tapPort s n.toNat).pseq = some q → m.pseq = (q + 1) % 65536
      (good → openOps s = [] → exec (.tapBeat n data info b) s =
        .next (setTap s n.toNat { tapPort s n.toNat with pseq := some m.pseq })) ∧
      (good → exec (.tapBeat n data info b) s = .next ((openOps s).foldl (beatOp m n.toNat (leBytes 128 data.toNat) b)
        (setTap s n.toNat { tapPort s n.toNat with pseq := some m.pseq }))) ∧
      (¬ good → ∃ u, exec (.tapBeat n data info b) s = .next u ∧ u.asy.tapFaults = satInc s.asy.tapFaults ∧
        (tapPort u n.toNat).disabled = decide (16 ≤ ((tapPort s n.toNat).faults.filter (fun f => decide (s.time < f + oneSecond))).length) ∧
        u = { s with asy := u.asy, ledger := u.ledger, hdrs := u.hdrs, irq := u.irq, hip := u.hip }))) ∧
  (∀ out write own part dropped st,
    blockStep out write own part dropped 2 = (2, 0, false) ∧
    (st ≠ 2 → blockStep out true own part true st = (2, 2, false) ∧ blockStep out false own part true st = (st, 0, false) ∧
      blockStep false true own part false st = (2, 5, false) ∧ blockStep true false own part false st = (st, 0, false) ∧
      blockStep true true false part false st = (2, 4, false) ∧ blockStep true true own true false st = (2, 4, false)) ∧
    blockStep false false true part false 0 = (1, 0, true) ∧ blockStep true true true false false 0 = (1, 0, true) ∧
    blockStep true true true false false 1 = (2, 4, false) ∧ blockStep false false own part false 1 = (1, 0, false)) ∧
  (∀ s,
    (serving s = true → exec .slotFrameBoundary s = .next { s with asy := { s.asy with frame := slotFrame s } }) ∧
    (serving s = false → exec .slotFrameBoundary s = .next s) ∧ (slotFrame s).length = 16) ∧
  (∀ s w value, fabOk s w = true →
    let p := fld (reg s 0x11040) 7 0
    let es := [(p, fld value 28 24, fld value 11 0)]
    (quotaCheck s es ≠ 0 → exec (.asfQuotaWrite w value) s = .next (answer s .eaccess)) ∧
    (quotaCheck s es = 0 → ∃ u, exec (.asfQuotaWrite w value) s = .next (answer u .ok) ∧
      apart u p = { apart s p with slots := fld value 28 24, quota := fld value 11 0 } ∧ (∀ q, q ≠ p → apart u q = apart s q) ∧
      u = { s with asy := { s.asy with parts := u.asy.parts } })) ∧
  (∀ s (ch : Chan) (tag : BitVec 6) cls n ws, asked s ch tag 0x0401 cls (n :: ws) →
    let u := taken s ch tag 0x0401
    let es := ws.map (fun w => (fld w 31 24, fld w 20 16, fld w 11 0))
    (n.toNat ≠ ws.length → exec (.asyConfig ch tag) s = .next (replyError u ch.num tag.toNat 2 0x0401)) ∧
    (n.toNat = ws.length → quotaCheck s es ≠ 0 → exec (.asyConfig ch tag) s = .next (replyCode u ch.num tag.toNat 0x0401 (quotaCheck s es))) ∧
    (n.toNat = ws.length → quotaCheck s es = 0 → exec (.asyConfig ch tag) s = .next (replyCode (setQuotas u es) ch.num tag.toNat 0x0401 0)))

/-- R461 to R463, R469, Table 16-7: OPEN empties the load buffer, a write of the window appends to it up to 16,384 bytes, LOAD makes its
checks in order (no handle 5, format 1, entries 2, an instruction 3 with its index, room for 32 programs 4) and loads the program under
the lowest free handle, UNLOAD takes out a program that no run uses, INFO shows one. -/
def Obligations.Programs : Prop :=
  ∀ s tag id,
    let src := Src.hcp tag id
    let p := tagPid tag
    let a := apart s p
    let h := fld (pReg s p 0x5304) 1 0
    (pagePasses s src 5 0x300 →
      let loads (r : Nat) : Prop := exec (.prgLoad src) s = .next (respond (winEvent (setApart s p { a with prgRes := r }) p 5 4) src .ok)
      let gives (i : Instr) (r : Nat) : Prop := exec i s = .next (respond (setApart s p { a with prgRes := r }) src .ok)
      (exec (.prgOpen src) s = .next (respond (setApart s p { a with loadBuf := [], prgRes := 0 }) src .ok)) ∧
      (freeHandle s p = none → loads 5) ∧
      (∀ k, freeHandle s p = some k →
        (objFormatOk a.loadBuf = false → loads 1) ∧
        (objFormatOk a.loadBuf = true → objEntryOk a.loadBuf = false → loads 2) ∧
        (∀ n, objFormatOk a.loadBuf = true → objEntryOk a.loadBuf = true → objBad a.loadBuf = some n →
          exec (.prgLoad src) s = .next (respond (winEvent (setApart s p { a with prgRes := 3, badIndex := n }) p 5 4) src .ok)) ∧
        (objFormatOk a.loadBuf = true → objEntryOk a.loadBuf = true → objBad a.loadBuf = none →
          (32 ≤ s.asy.progs.length → loads 4) ∧
          (s.asy.progs.length < 32 → ∃ t, exec (.prgLoad src) s = .next (respond (winEvent t p 5 4) src .ok) ∧
            t.asy.progs = s.asy.progs ++ [{ pid := p, handle := k, obj := a.loadBuf, digest := sha384 a.loadBuf }] ∧
            apart t p = { a with prgRes := 0, prgHandle := k, loadBuf := [] } ∧ (∀ q, q ≠ p → apart t q = apart s q) ∧
            t = { s with asy := t.asy }))) ∧
      (progOf s p h = none → gives (.prgUnload src) 7 ∧
        exec (.prgInfo src) s = .next (respond (setApart s p { a with prgRes := 7, info := 0, infoDig := [] }) src .ok)) ∧
      (∀ g, progOf s p h = some g →
        (0 < runsOf s p h → gives (.prgUnload src) 6) ∧
        (runsOf s p h = 0 → ∃ t, exec (.prgUnload src) s = .next (respond t src .ok) ∧
          t.asy.progs = s.asy.progs.filter (fun x => decide (x.pid ≠ p ∨ x.handle ≠ h)) ∧ progOf t p h = none ∧
          apart t p = { a with prgRes := 0 } ∧ t = { s with asy := t.asy }) ∧
        exec (.prgInfo src) s = .next (respond (setApart s p { a with
          prgRes := 0, info := 2 ^ 31 + runsOf s p h * 2 ^ 24 + objWords g.obj, infoDig := g.digest }) src .ok))) ∧
    (∀ bytes, pagePasses s src 5 0x400 →
      (a.loadBuf.length + bytes.length ≤ 16384 →
        exec (.prgWindowWrite src bytes) s = .next (respond (setApart s p { a with loadBuf := a.loadBuf ++ bytes }) src .ok)) ∧
      (16384 < a.loadBuf.length + bytes.length →
        exec (.prgWindowWrite src bytes) s = .next (refuse s src (.win p 5 0x400) (winBase p + 0x5400) .efull)))

/-! ## The Pattern Book, the Ledger and messages (chapters 8, 9, 13, 17, 18) -/

/-- R265 to R270, R547, Table 9-7: the commands of O_BOOK. OPEN empties the buffer and LOADING takes what BOOK_WINDOW writes; SUBMIT
checks the buffer, ending the bundle with 1 when it is not well formed, 2 on another base, the first failed check otherwise, or waiting
for consent; ABORT ends it with 16 before its commit; RESTORE submits a version of the book and READBACK shows one; a command that is
BUSY, in the wrong phase or for an empty slot gives 1, 2 and 3. Without consent in time the bundle ends with 12. R267, R268: CONSENT of a
partition is taken while the bundle waits for it and names the bundle's digest and the notice's version, otherwise it is answered
REFUSED_STATE 1 or STALE 7; a refusal ends the bundle with 11. The body's layout is the model's (DESIGN CHOICE, log entry 63). -/
def Obligations.PatternBook : Prop :=
  (∀ s tag id,
    let src := Src.hcp tag id
    let b := s.book
    let k := fld (reg s 0x8704C) 2 0
    let shut : Prop := s.pwr.phase ≠ 0
    (passes s src (.oper 7 0x40) true →
      let does (i : Instr) (t : State) : Prop := exec i s = .next (settle (respond t src .ok))
      let gives (i : Instr) (r : Nat) : Prop := does i { s with book := { b with cmdres := r } }
      let submits (i : Instr) (bs : List Byte) : Prop :=
        (parseBundle bs = none → ∃ t, does i t ∧ t.book.phase = .done ∧ t.book.result = 1 ∧ t.part = s.part) ∧
        (∀ x, parseBundle bs = some x →
          ((s.epoch.curValid = false ∨ x.base ≠ s.epoch.curVersion) → ∃ t, does i t ∧ t.book.phase = .done ∧ t.book.result = 2 ∧
            t.part = s.part) ∧
          (s.epoch.curValid = true → x.base = s.epoch.curVersion →
            (bundleCheck s (bundleBank x) ≠ 0 → ∃ t, does i t ∧ t.book.phase = .done ∧
              t.book.result = bundleCheck s (bundleBank x) ∧ t.part = s.part) ∧
            (bundleCheck s (bundleBank x) = 0 → ∃ t, does i t ∧ t.book.phase = .consent ∧ t.book.cand = bundleBank x ∧
              t.book.digest = sha384 bs ∧ t.book.startTime = s.time ∧ t.book.given = [] ∧ t = { s with book := t.book })))
      (bundleBusy s = true → gives (.bookOpen src) 1 ∧ gives (.bookSubmit src) 1 ∧ gives (.bookRestore src) 1) ∧
      (bundleBusy s = false → does (.bookOpen src) { s with book := { b with cmdres := 0, phase := .loading, buf := [] } }) ∧
      (shut → gives (.bookSubmit src) 1 ∧ gives (.bookRestore src) 1) ∧
      (bundleBusy s = false → ¬ shut → b.phase ≠ .loading → gives (.bookSubmit src) 2) ∧
      (¬ shut → b.phase = .loading → submits (.bookSubmit src) b.buf) ∧
      (bundleBusy s = false → ¬ shut → bookSlot s k = none → gives (.bookRestore src) 3) ∧
      (∀ v, bundleBusy s = false → ¬ shut → bookSlot s k = some v → submits (.bookRestore src) (bundleBytes v s.epoch.curVersion)) ∧
      (bookSlot s k = none → gives (.bookReadback src) 3) ∧
      (∀ v, bookSlot s k = some v → does (.bookReadback src) { s with book := { b with
        cmdres := 0, readback := bundleBytes v v.num, rbReady := true } }) ∧
      ((b.phase = .idle ∨ b.phase = .done ∨ b.phase = .committing ∨ b.phase = .rollback) → gives (.bookAbort src) 2) ∧
      (b.phase = .quiesce → bundleHead s = true → s.epoch.window = true → gives (.bookAbort src) 2) ∧
      ((b.phase = .loading ∨ b.phase = .checking ∨ b.phase = .consent) → ∃ t, does (.bookAbort src) t ∧ t.book.phase = .done ∧
        t.book.result = 16 ∧ t.book.cmdres = 0 ∧ t.part = s.part) ∧
      (b.phase = .quiesce → bundleHead s = false → ∃ t, does (.bookAbort src) t ∧ t.book.phase = .done ∧ t.book.result = 16 ∧
        t.part.active = s.part.active)) ∧
    (∀ bytes, passes s src (.oper 7 0x800) true →
      let does (t : State) : Prop := exec (.bookWindowWrite src bytes) s = .next (settle t)
      (b.phase ≠ .loading → does (respond s src .edown)) ∧
      (b.phase = .loading → 0x30000 < b.buf.length + bytes.length → does (respond s src .efull)) ∧
      (b.phase = .loading → b.buf.length + bytes.length ≤ 0x30000 →
        does (respond { s with book := { b with buf := b.buf ++ bytes } } src .ok))) ∧
    (b.phase = .consent → ∃ t, exec .consentTimeout s = .next (settle t) ∧ t.book.phase = .done ∧ t.book.result = 12 ∧ t.part = s.part) ∧
    (b.phase ≠ .consent → exec .consentTimeout s = .next (settle s))) ∧
  (∀ s (ch : Chan) (tag : BitVec 6) cls body, asked s ch tag 0x0302 cls body →
    let u := taken s ch tag 0x0302
    let c := ch.num
    let p := chanPid c
    let b := s.book
    let dec := fld (body.getD 12 0) 23 16
    let gives (r : Nat) : Prop := exec (.consent ch tag) s = .next (settle (replyCode u c tag.toNat 0x0302 r))
    let waits : Prop := b.phase = .consent ∧ b.needed.contains p = true ∧ b.given.contains p = false ∧ (dec = 1 ∨ dec = 2)
    let named : Prop := (wordsToBytes body).take 48 = b.digest ∧
      ∃ n ∈ b.notices, n.1 = p ∧ n.2.2 = fld (body.getD 12 0) 15 0 ∧ n.2.1 = genOf s p
    (body.length ≠ 13 → exec (.consent ch tag) s = .next (settle (replyError u c tag.toNat 2 0x0302))) ∧
    (body.length = 13 → ¬ waits → gives 1) ∧ (body.length = 13 → waits → ¬ named → gives 7) ∧
    (body.length = 13 → waits → named →
      (dec = 1 → ∃ t, exec (.consent ch tag) s = .next (settle t) ∧ t.book.phase = .consent ∧ t.book.given.contains p = true ∧
        (∀ q, q ≠ p → t.book.given.contains q = b.given.contains q)) ∧
      (dec = 2 → ∃ t, exec (.consent ch tag) s = .next (settle t) ∧ t.book.phase = .done ∧ t.book.result = 11)))

/-- R493, R542, R113, Table 17-12: RELEASE after a freeze writes its record and lets the writer go on over the whole ring, and does
nothing without one; LGF_CMD.WRITE makes a record of the operands, or refuses an event, a severity, a scope or a PID that does not exist
(2), and counts it as discarded while the Ledger is frozen (1). A debug unlock needs a token that names a key set which the life-cycle
state honours and no fuse has revoked; it answers the challenge of this start, which serves once and is drawn anew; its check is free (a model's
choice, log entry 64). -/
def Obligations.LedgerAndUnlock : Prop :=
  (∀ s tag id, passes s (.hcp tag id) (.oper 5 0x50) true →
    (s.ledger.mode = .ring → exec (.lgRelease (.hcp tag id)) s = .next (respond s (.hcp tag id) .ok)) ∧
    (s.ledger.mode ≠ .ring → exec (.lgRelease (.hcp tag id)) s =
      .next (respond (record { s with ledger := { s.ledger with mode := .ring } } 0x0007 0 0 0 s.ledger.frozenSeq) (.hcp tag id) .ok))) ∧
  (∀ s w, fabOk s w = true → w ≠ .jtag →
    let e := reg s (whoKey w 0x13060)
    let p (i : Nat) : Nat := (reg s (whoKey w (0x13064 + 4 * i))).toNat
    let cmd := whoKey w 0x13070
    let known : Prop := fld e 15 0 ∈ eventCodes ∧ fld e 23 20 ≤ 6 ∧ fld e 17 16 ≠ 3 ∧ fld e 31 24 ≤ 65
    (¬ known → ∃ u, exec (.lgfWrite w) s = .next (answer u .ok) ∧ fld (reg u cmd) 31 28 = 2 ∧ u.ledger = s.ledger ∧ u = { s with regs := u.regs }) ∧
    (known → s.ledger.mode = .stopped → ∃ u, exec (.lgfWrite w) s = .next (answer u .ok) ∧ fld (reg u cmd) 31 28 = 1 ∧
      u.ledger = { s.ledger with discarded := satAdd 65535 s.ledger.discarded 1 } ∧ u = { s with regs := u.regs, ledger := u.ledger }) ∧
    (known → s.ledger.mode ≠ .stopped → ∃ u, exec (.lgfWrite w) s = .next (answer u .ok) ∧
      reg u cmd = w32 (s.ledger.nextSeq * 256) ∧
      smGet none u.ledger.slots s.ledger.nextSlot = some (ledgerRec s (fld e 15 0) (fld e 31 24) (fld e 23 20) (fld e 17 16) (p 0) (p 1) (p 2)) ∧
      u.ledger.nextSeq = (s.ledger.nextSeq + 1) % 2 ^ 20 ∧ u.part = s.part ∧ u.fuse = s.fuse)) ∧
  (∀ s token,
    let live : Prop := (serving s = true ∨ (s.block = .boot ∧ 7 ≤ s.boot.step)) ∧ s.fuse.sensed.noDebugUnlock = false
    ((¬ live ∨ unlockChallenge s = none) → exec (.debugUnlock token) s = .next s) ∧
    (∀ s1 c, live → unlockChallenge s = some (s1, c) →
      let check := Config.unlockCheck token (leBytes 32 c.toNat) (leBytes 8 (identRow s 0x000))
      ∃ u, u.fuse.challenge = (drbgGrant s1 false).map (fun t => BitVec.ofNat 256 (freeNow t).toNat) ∧
        u = { s with rng := u.rng, free := u.free, fuse := { s.fuse with challenge := u.fuse.challenge } } ∧
        (check = none → exec (.debugUnlock token) s = .next u) ∧
        (∀ set scope, check = some (set, scope) →
          ((set ∉ unlockSets s.fuse.sensed.lcs ∨ keysetLive s set = false) → exec (.debugUnlock token) s = .next u) ∧
          (set ∈ unlockSets s.fuse.sensed.lcs → keysetLive s set = true → exec (.debugUnlock token) s =
            .next (record { u with fuse := { u.fuse with unlockLatch := true } } 0x0013 0 0 2 set scope)))) ∧
    (∀ c, s.fuse.challenge = some c → unlockChallenge s = some ({ s with fuse := { s.fuse with challenge := none } }, c)))

/-- R383, R320, R321, R498, R500: messages of the operator and of tenants. OPER_TALLY reads, signals, sets, waits on and cancels an
operator Tally; DOMAIN_RESET and DOMAIN_POWER begin a sequence of the domain, and SLEEP_REQUEST the grace of a sleep entry, or give the
code that refuses them. R97 to R99, Table 13-15: VERSION refuses a malformed offer, chooses the highest common major with the lower minor,
and keeps a version that an operator channel or a channel with other work already has; ECHO returns its words after a zero. That WSP 1.0
is the one version offered is the model's (DESIGN CHOICE, log entry 12), and so is the refusal of an ECHO of more than seven words. -/
def Obligations.OperatorMessages : Prop :=
  ((∀ s (ch : Chan) (tag : BitVec 6) cls w lo hi act arg, asked s ch tag 0x0103 cls [w, lo, hi, act, arg] →
    let u := taken s ch tag 0x0103
    let c := ch.num
    let e := fld w 8 8
    let n := 16320 + fld w 5 0
    let v : DWord := BitVec.ofNat 64 (lo.toNat + 2 ^ 32 * hi.toNat)
    let op := fld w 31 28
    let gives (t : State) (r q : Nat) : Prop := exec (.operTally ch tag) s = .next (operTallyReply t c tag.toNat n e r q)
    (op = 1 → gives u 8 (smGet 0 s.tl.opSeq n)) ∧
    (∀ x ∈ ([(2, fun d => satAdd64 d.toNat 1), (3, fun _ => v)] : List (Nat × (DWord → DWord))), op = x.1 →
      ∃ t, gives t 8 s.tl.seq ∧ (∀ k, tallyValue t k = if k = n then x.2 (tallyValue s n) else tallyValue s k) ∧
        t.tl.seq = (s.tl.seq + 1) % 2 ^ 20 ∧
        (∀ k j, j < 2 → waitEntry t k j = if k = n ∧ (waitEntry s k j).state = 1 ∧ (waitEntry s k j).thr.toNat ≤ (x.2 (tallyValue s n)).toNat
          then { waitEntry s k j with state := 2, seq := s.tl.seq } else waitEntry s k j)) ∧
    (op = 4 → badWait s (tallyOwner s n) act = false → (waitEntry s n e).state ≠ 1 →
      let st : Nat := if v.toNat ≤ (tallyValue s n).toNat then 2 else 1
      ∃ t, gives t (st - 1) s.tl.seq ∧ waitEntry t n e = { thr := v, action := act, arg := arg, state := st, seq := s.tl.seq } ∧
        t.tl.value = s.tl.value) ∧
    (op = 5 → ∃ t, gives t (match (waitEntry s n e).state with | 1 => 2 | 2 => 3 | _ => 4) s.tl.seq ∧
      waitEntry t n e = (if (waitEntry s n e).state = 1 then { waitEntry s n e with state := 3, seq := s.tl.seq } else waitEntry s n e)) ∧
    ((op = 0 ∨ 5 < op) → exec (.operTally ch tag) s = .next (reply u c tag.toNat 0x0103 [w32 (6 * 2 ^ 24), 0, 0, 0]))) ∧
  (∀ s (ch : Chan) (tag : BitVec 6) cls w, asked s ch tag 0x0308 cls [w] →
    let u := taken s ch tag 0x0308
    let c := ch.num
    let p := chanPid c
    let d := fld w 5 0
    let gives (r : Nat) : Prop := exec (.domainReset ch tag) s = .next (settle (replyCode u c tag.toNat 0x0308 r))
    let may : Prop := d < 40 ∧ (operChan c = true → hubDomain s d = true) ∧
      (operChan c = false → pstate s p = .running ∧ ownsDomain s p d = true)
    (operChan c = false → pstate s p = .quenching → gives 1) ∧
    ((operChan c = true ∨ pstate s p ≠ .quenching) → ¬ may → gives 6) ∧
    (may → s.pins.pdStatus.getLsbD d = false → exec (.domainReset ch tag) s = .next (settle (replyError u c tag.toNat 6 0x0308))) ∧
    (may → s.pins.pdStatus.getLsbD d = true → exec (.domainReset ch tag) s = .next (settle { u with pwr := { s.pwr with
      doms := s.pwr.doms ++ [{ dom := d, why := .reset c tag.toNat cls, step := 0 }] } }))) ∧
  (∀ s (ch : Chan) (tag : BitVec 6) cls w, asked s ch tag 0x0603 cls [w] →
    let u := taken s ch tag 0x0603
    let c := ch.num
    let r := domainPowerCheck s (if operChan c then none else some (chanPid c)) (fld w 5 0) (fld w 9 8)
    (r ≠ 0 → exec (.domainPower ch tag) s = .next (settle (replyCode u c tag.toNat 0x0603 r))) ∧
    (r = 0 → exec (.domainPower ch tag) s = .next (settle { u with pwr := { s.pwr with
      doms := s.pwr.doms ++ [{ dom := fld w 5 0, why := .power (fld w 9 8) c tag.toNat cls, step := 0 }] } }))) ∧
  (∀ s (ch : Chan) (tag : BitVec 6) cls w lo hi, asked s ch tag 0x0601 cls [w, lo, hi] →
    let u := taken s ch tag 0x0601
    let r := sleepRefused s (fld w 13 0) (lo.toNat + 2 ^ 32 * hi.toNat)
    (r ≠ 0 → exec (.sleepRequest ch tag) s = .next (settle (replyCode u ch.num tag.toNat 0x0601 r))) ∧
    (r = 0 → ∃ t, exec (.sleepRequest ch tag) s = .next (settle t) ∧ t.pwr = { s.pwr with
      phase := 1, grace := fld w 13 0, retain := BitVec.ofNat 40 (lo.toNat + 2 ^ 32 * hi.toNat), graceDone := false, started := s.time,
      noDigest := false } ∧ t.block = s.block))) ∧
  ((∀ s (ch : Chan) (tag : BitVec 6) cls w offers, asked s ch tag 0x0001 cls (w :: offers) →
    let u := taken s ch tag 0x0001
    let c := ch.num
    let gives (t : State) (r : Word) : Prop := exec (.version ch tag) s = .next (reply t c tag.toNat 1 [r, w32 256])
    let n := fld w 31 24
    let takes (t : State) : State := setChannel t c { channel t c with version := some (1, 0) }
    ((n = 0 ∨ 4 < n ∨ offers.length ≠ n) → exec (.version ch tag) s = .next (replyError u c tag.toNat 2 1)) ∧
    (1 ≤ n → n ≤ 4 → offers.length = n →
      ((channel s c).version = none → (∃ o ∈ offers, fld o 15 8 = 1) → gives (takes u) (w32 256)) ∧
      ((channel s c).version = none → (∀ o ∈ offers, fld o 15 8 ≠ 1) →
        gives (setChannel u c { channel u c with version := none }) (w32 (2 ^ 24))) ∧
      (∀ a b, (channel s c).version = some (a, b) →
        (operChan c = true → (∃ o ∈ offers, fld o 15 8 = a.toNat ∧ b.toNat ≤ fld o 7 0) → gives u (w32 (a.toNat * 256 + b.toNat))) ∧
        (operChan c = true → (∀ o ∈ offers, ¬ (fld o 15 8 = a.toNat ∧ b.toNat ≤ fld o 7 0)) →
          gives u (w32 (2 * 2 ^ 24 + a.toNat * 256 + b.toNat))) ∧
        (operChan c = false → 1 < (channel s c).outst.length → gives u (w32 (2 * 2 ^ 24 + a.toNat * 256 + b.toNat))) ∧
        (operChan c = false → (channel s c).outst.length ≤ 1 → (∃ o ∈ offers, fld o 15 8 = 1) → gives (takes u) (w32 256))))) ∧
  (∀ s (ch : Chan) (tag : BitVec 6) cls body, asked s ch tag 0x0003 cls body →
    let u := taken s ch tag 0x0003
    (body.length ≤ 7 → exec (.echo ch tag) s = .next (reply u ch.num tag.toNat 3 (0 :: body))) ∧
    (7 < body.length → exec (.echo ch tag) s = .next (replyError u ch.num tag.toNat 2 3))))

/-! ## Attestation (chapter 8) -/

/-- R232 to R236, R523 to R526: HALLMARK_GET with a nonce of 2 to 16 words takes the snapshot of its partition in the lowest free place
(waiting for a commit window to end), and refuses a partition that has no Hallmark; WEIGHT_MEASURE begins a measurement of an owned range
with a commit that grants its reads, refusing an object or range that does not exist (6), one not owned (10), which the object then shows, and a third measurement (8);
WEIGHT_STATUS reports one. A payload above 48 KiB is answered LIMIT and frees its place (DESIGN CHOICE, log entry 89). Words 1 to 4 of the WEIGHT bodies are laid out by the model (DESIGN CHOICE, log entry 54). -/
def Obligations.HallmarksAndWeights : Prop :=
  ∀ s (ch : Chan) (tag : BitVec 6) cls body,
    let c := ch.num
    let p := chanPid c
    (asked s ch tag 0x0202 cls body →
      let u := taken s ch tag 0x0202
      let prep (k : Nat) (pay : List Byte) : HPrep := {
        place := k, ch := c, tag := tag.toNat, cls := cls, code := 0x0202, pid := p, nonce := wordsToBytes body, secured := false, payload := pay }
      ((body.length < 2 ∨ 16 < body.length) →
        exec (.hallmarkGet ch tag .clear) s = .next (replyError u c tag.toNat 2 0x0202)) ∧
      (2 ≤ body.length → body.length ≤ 16 → (hmkPidOk s p = false ∨ noHallmarks s = true) →
        exec (.hallmarkGet ch tag .clear) s = .next (replyCode u c tag.toNat 0x0202 1)) ∧
      (2 ≤ body.length → body.length ≤ 16 → hmkPidOk s p = true → noHallmarks s = false → (∀ x ∈ s.att.preps, x.place ≠ 255) →
        (s.epoch.window = true → (hmkPlace s 0).held = false →
          exec (.hallmarkGet ch tag .clear) s = .next { u with att := { s.att with preps := s.att.preps ++ [prep 255 []] } }) ∧
        (∀ k, s.epoch.window = false → k < 4 → (hmkPlace s k).held = false → (∀ j, j < k → (hmkPlace s j).held = true) →
          let t := setHmkPlace (setPreps u (s.att.preps ++ [prep 255 []])) k (hmkSnapshot s p)
          let pay := hallmarkPayload t p (wordsToBytes body) none
          (pay.length ≤ 49152 → exec (.hallmarkGet ch tag .clear) s = .next (setPreps t (s.att.preps ++ [prep k pay]))) ∧
          (49152 < pay.length → exec (.hallmarkGet ch tag .clear) s =
            .next (replyCode (setPreps (setHmkPlace t k hmkPlaceReset) s.att.preps) c tag.toNat 0x0202 4))))) ∧
    (asked s ch tag 0x0203 cls body →
      let u := taken s ch tag 0x0203
      let w (i : Nat) : Nat := (body.getD i 0).toNat
      let base := w 1 + 2 ^ 32 * w 2
      let len := w 3 + 2 ^ 32 * w 4
      let gives (r : Nat) : Prop := exec (.weightMeasure ch tag .clear) s = .next (settle (replyCode u c tag.toNat 0x0203 r))
      let valid : Prop := 1 ≤ w 0 ∧ w 0 ≤ 16 ∧ base % 4096 = 0 ∧ 1 ≤ len ∧ len ≤ 2 ^ 40
      (body.length ≠ 5 → exec (.weightMeasure ch tag .clear) s = .next (settle (replyError u c tag.toNat 2 0x0203))) ∧
      (body.length = 5 → ¬ valid → gives 6) ∧
      (body.length = 5 → valid → rangeOwned s p base len = false →
        ∃ t, exec (.weightMeasure ch tag .clear) s = .next (settle (replyCode t c tag.toNat 0x0203 10)) ∧
          ∃ o, weight t p (w 0) = some o ∧ o.base = base ∧ o.len = len ∧ o.status = 4 ∧ o.start = s.time ∧ o.stop = s.time) ∧
      (body.length = 5 → valid → rangeOwned s p base len = true → 2 ≤ weightsRunning s → gives 8) ∧
      (body.length = 5 → valid → rangeOwned s p base len = true → weight s p (w 0) = none → weightsRunning s < 2 →
        ∃ t, exec (.weightMeasure ch tag .clear) s = .next (settle (replyCode t c tag.toNat 0x0203 0)) ∧
          t.part.jobs = s.part.jobs ++ [.grantRead p (w 0)] ∧
          (∃ o, weight t p (w 0) = some o ∧ o.base = base ∧ o.len = len ∧ o.status = 1 ∧ o.phase = 0))) ∧
    (∀ obj, body = [obj] → asked s ch tag 0x0204 cls body →
      let u := taken s ch tag 0x0204
      (weight s p obj.toNat = none → exec (.weightStatus ch tag .clear) s = .next (replyCode u c tag.toNat 0x0204 6)) ∧
      (∀ o, weight s p obj.toNat = some o → sealed s p = false →
        exec (.weightStatus ch tag .clear) s = .next (reply u c tag.toNat 0x0204
          ([w32 o.status, w32 o.start, w32 (o.start / 2 ^ 32), w32 o.stop, w32 (o.stop / 2 ^ 32)] ++
           byteString (if o.status = 0 then o.root else [])))))

/-- R245, R247, R248, R246: KEM_UPGRADE, KEY_DELIVER and KEY_REVOKE are answered NO_SESSION in the clear. In a session an upgrade is
refused a second time (1) and with a bad key (9), and otherwise advances the update count and the session's slots; a delivery that a check
refuses gives its code, one whose tag fails 9, and one that opens joins the keys in delivery; a revocation of a key in force waits for its
commit. A session that is idle for 60 s ends and its slots are erased. R189, R190, R230: IDENT_ENDORSE keeps the certificate whose key is
one of the device's identities and refuses any other with 9; POD_TOKEN is refused outside pod-keyed mode (5), for another device (6) and
when it does not open (9), and otherwise fills the lowest empty slot with the pod master, from which the pod keys follow. A session whose
generation has passed answers STALE 7 and ends (R167, R248). -/
def Obligations.SessionMessages : Prop :=
  (∀ s (ch : Chan) (tag : BitVec 6) cls body,
    let c := ch.num
    let p := chanPid c
    (∀ x ∈ [(Instr.kemUpgrade ch tag .clear, 0x0205), (Instr.keyDeliver ch tag .clear, 0x0206)], asked s ch tag x.2 cls body →
      exec x.1 s = .next (replyCode (taken s ch tag x.2) c tag.toNat x.2 2)) ∧
    (asked s ch tag 0x0207 cls body →
      exec (.keyRevoke ch tag .clear) s = .next (settle (replyCode (taken s ch tag 0x0207) c tag.toNat 0x0207 2))) ∧
    (∀ plain v, asked s ch tag 0x0201 cls body → session s c = some v → v.opening = false →
      let u := setSession (taken s ch tag 0x0201) c (some { v with lastRec := s.time, recvSeq := v.recvSeq + 1 })
      let m := (innerMsg plain).2
      let gives (t : State) (r : Nat) : State := spdmReply (sendRecord t c tag.toNat) c tag.toNat (.wsp [w32 (r * 2 ^ 24)])
      let inSess (i : Instr) (r : Nat) : Prop := exec i s = .next (gives u r)
      ((innerMsg plain).1 = 0x0205 → codePermitted 0x0205 c = false →
        exec (.kemUpgrade ch tag (.secured plain)) s = .next (replyError u c tag.toNat 3 0x0205)) ∧
      ((innerMsg plain).1 = 0x0205 → codePermitted 0x0205 c = true →
        (v.kem = true → inSess (.kemUpgrade ch tag (.secured plain)) 1) ∧
        (v.kem = false → v.gen ≠ genOf s v.pid →
          exec (.kemUpgrade ch tag (.secured plain)) s = .next (endSession (gives u 7) c)) ∧
        (v.kem = false → v.gen = genOf s v.pid → (m.length ≠ 392 ∨ Config.mlkemKeyOk (wordsToBytes m) = false) →
          inSess (.kemUpgrade ch tag (.secured plain)) 9) ∧
        (v.kem = false → v.gen = genOf s v.pid → m.length = 392 → Config.mlkemKeyOk (wordsToBytes m) = true → s.rng.dead = false →
          s.rng.es ≠ 2 → 4 ≤ (emptySlots s).length → ∃ t w, exec (.kemUpgrade ch tag (.secured plain)) s = .next t ∧ session t c = some w ∧
            w.kem = true ∧ w.update = v.update + 1 ∧ w.opening = false ∧ w.reqId = v.reqId ∧ w.rspId = v.rspId ∧ w.lastRec = s.time ∧
            w.recvSeq = 0 ∧ w.sendSeq = 0)) ∧
      ((innerMsg plain).1 = 0x0206 → codePermitted 0x0206 c = true →
        (bodyBytes m = none → inSess (.keyDeliver ch tag (.secured plain)) 6) ∧
        (∀ bs, bodyBytes m = some bs →
          (deliverRefused s v c bs = 7 → exec (.keyDeliver ch tag (.secured plain)) s = .next (endSession (gives u 7) c)) ∧
          (deliverRefused s v c bs ≠ 0 → deliverRefused s v c bs ≠ 7 →
            inSess (.keyDeliver ch tag (.secured plain)) (deliverRefused s v c bs)) ∧
          (deliverRefused s v c bs = 0 → deliverOpen s v bs = none → inSess (.keyDeliver ch tag (.secured plain)) 9) ∧
          (∀ key a n rest i, deliverRefused s v c bs = 0 → deliverOpen s v bs = some key →
            keyAgent s (operChan c) p (le bs 0 1) (le bs 2 2) = some a → emptySlots s = n :: rest → freeIndex s a = some i →
            ∃ t, exec (.keyDeliver ch tag (.secured plain)) s = .next t ∧
              t.att.keys = s.att.keys ++ [{
                pid := p, keyId := le bs 4 4, purpose := le bs 0 1, dir := le bs 1 1, target := le bs 2 2, slot := n, agent := a, index := i, asker := some (c, tag.toNat, cls), phase := 0 }] ∧
              session t c = some { v with delivery := v.delivery + 1, lastRec := s.time, recvSeq := v.recvSeq + 1 } ∧
              (slotOf t n).key = keyOf (slice key 0 (lenBytes (if le bs 0 1 = 1 then 2 else 0)))))) ∧
      ((innerMsg plain).1 = 0x0207 → codePermitted 0x0207 c = true →
        let mine (k : DKey) : Bool := decide (k.pid = p ∧ k.keyId = (m.headD 0).toNat ∧ k.phase = 2)
        (s.att.keys.find? mine = none → exec (.keyRevoke ch tag (.secured plain)) s = .next (settle (gives u 6))) ∧
        (∀ k, s.att.keys.find? mine = some k → ∃ t, exec (.keyRevoke ch tag (.secured plain)) s = .next (settle t) ∧
          t.att.keys = s.att.keys.map (fun x => if x = k then { k with phase := 3, asker := some (c, tag.toNat, cls) } else x) ∧
          t.part.jobs = s.part.jobs ++ [.keys k.pid]))) ∧
    (session s c = none → exec (.sessionIdleTimeout ch) s = .next s) ∧
    (∀ v, session s c = some v → ∃ t, exec (.sessionIdleTimeout ch) s = .next t ∧ session t c = none ∧
      (∀ n ∈ v.slots, slotOf t n = slotReset) ∧ (∀ n, n ∉ v.slots → slotOf t n = slotOf s n) ∧
      (∀ k, k ≠ c → session t k = session s k))) ∧
  (∀ s (ch : Chan) (tag : BitVec 6) cls body,
    let c := ch.num
    (asked s ch tag 0x0208 cls body →
      let u := taken s ch tag 0x0208
      let gives (t : State) (r : Nat) : Prop := exec (.identEndorse ch tag) s = .next (replyCode t c tag.toNat 0x0208 r)
      (bodyBytes body = none → exec (.identEndorse ch tag) s = .next (replyError u c tag.toNat 2 0x0208)) ∧
      (∀ der, bodyBytes body = some der →
        (certPublicKey der = some (devidEc s) → gives { u with att := { s.att with endorseEc := der } } 0) ∧
        (certPublicKey der ≠ some (devidEc s) → certPublicKey der = some (devidMl s) →
          gives { u with att := { s.att with endorseMl := der } } 0) ∧
        (certPublicKey der ≠ some (devidEc s) → certPublicKey der ≠ some (devidMl s) → gives u 9))) ∧
    (asked s ch tag 0x0102 cls body →
      let u := taken s ch tag 0x0102
      let gives (t : State) (r : Nat) : Prop := exec (.podToken ch tag) s = .next (replyCode t c tag.toNat 0x0102 r)
      (bodyBytes body = none → exec (.podToken ch tag) s = .next (replyError u c tag.toNat 2 0x0102)) ∧
      (∀ bs, bodyBytes body = some bs →
        let mine : Prop := le bs 4 4 = nfld (identRow s 0x388) 31 0 ∧ le bs 8 1 = nfld (identRow s 0x388) 38 32
        let formed : Prop := bs.length = 1760 ∧ slice bs 0 4 = [0x4B, 0x58, 0x50, 0x54] ∧ le bs 9 3 = 0 ∧ le bs 1677 3 = 0
        (s.fuse.sensed.podKeyed = false → gives u 5) ∧
        (s.fuse.sensed.podKeyed = true →
          (¬ mine → gives u 6) ∧ (mine → ¬ formed → gives u 9) ∧ (mine → formed → podOpen s bs = none → gives u 9) ∧
          (∀ pt, mine → formed → podOpen s bs = some pt → (emptySlots s).length < 4 → gives u 4) ∧
          (∀ pt n rest, mine → formed → podOpen s bs = some pt → emptySlots s = n :: rest → 3 ≤ rest.length →
            (¬ (pt.length = 72 ∧ podAttrOk pt = true) → gives u 9) ∧
            (pt.length = 72 → podAttrOk pt = true → ∃ t, gives (podKeys t) 0 ∧ slotOf t n = {
                key := keyOf (slice (pt.drop 8) 0 64), attr := mkAttr 3 2 3 (fld (podAttr pt) 23 18) 0 4 } ∧
              (∀ k, k ≠ n → slotOf t k = slotOf s k) ∧ t = { u with sbox := t.sbox, att := { s.att with podToken := true } }))))))

/-- R238 to R244, Table 8-9a: SPDM requests outside a session. The contents of each answer are noted, and its bytes go out in a 0x0201
reply. KEY_EXCHANGE opens a session on a channel that has none, and is answered Busy past the limits; a request that needs a session is
answered SessionRequired; a record that fails its tag ends the session. A large request is gathered in parts, and its last part leaves it
to the row that the whole spells (log entry 90). The encoding of the messages is free (DESIGN CHOICE, log entry
51), and so is the error of a bad record (log entry 52). -/
def Obligations.SpdmRequests : Prop :=
  ∀ s (ch : Chan) (tag : BitVec 6) cls body, asked s ch tag 0x0201 cls body →
    let u := taken s ch tag 0x0201
    let c := ch.num
    let p := chanPid c
    let gets (t : State) (i : Instr) (r : SpdmRsp) : Prop := exec i s = .next (spdmReply t c tag.toNat r)
    let gives := gets u
    let chunks := smGet ([], []) s.att.chunks c
    let bad (n : String) : SpdmRsp := .error n
    gives (.getVersion ch tag .clear) (.version 0x13) ∧ gives (.getCapabilities ch tag .clear) (.capabilities
      ["CERT_CAP", "CHAL_CAP", "MEAS_CAP with signatures", "MEAS_FRESH_CAP", "ENCRYPT_CAP", "MAC_CAP", "KEY_EX_CAP", "HBEAT_CAP",
        "KEY_UPD_CAP", "CHUNK_CAP"] 4096 65536) ∧
    (∀ o : AlgOffer, (algsChosen o ≠ [] → gives (.negotiateAlgorithms ch tag .clear o) (.algorithms (algsChosen o))) ∧
      (algsChosen o = [] → gives (.negotiateAlgorithms ch tag .clear o) (bad "InvalidRequest")) ∧
      (algsChosen o = [] ↔ ¬ (o.asym ∨ o.hash ∨ o.meas ∨ o.dhe ∨ o.aead ∨ o.schedule))) ∧
    gives (.getDigests ch tag .clear) (.digests [sha384 (certChain u 0 p), sha384 (certChain u 1 p)]) ∧
    (∀ n : BitVec 4, (n.toNat ≤ 1 → gives (.getCertificate ch tag .clear n) (.certificate n.toNat (certChain u n.toNat p))) ∧
      (1 < n.toNat → gives (.getCertificate ch tag .clear n) (bad "InvalidRequest"))) ∧
    (∀ (n : BitVec 4) (h : BitVec 384),
      (n ≠ 0 → gives (.challenge ch tag .clear n h) (bad "InvalidRequest")) ∧
      (∀ t, n = 0 → partSign u p h.toNat = (none, t) → gets t (.challenge ch tag .clear n h) (bad "Unspecified")) ∧
      (∀ a b t, n = 0 → partSign u p h.toNat = (some (a, b), t) →
        gets t (.challenge ch tag .clear n h) (.signed (beBytes 48 h.toNat) a b))) ∧
    (∀ (n : BitVec 4) (k : Byte) (h : BitVec 384), n ≠ 0 → gives (.getMeasurements ch tag .clear ⟨n, k⟩ h) (bad "InvalidRequest")) ∧
    (∀ (h : BitVec 384) t, partSign u p h.toNat = (none, t) → gets t (.getMeasurements ch tag .clear ⟨0, 0xFF⟩ h) (bad "Unspecified")) ∧
    (∀ (k : Byte) (h : BitVec 384) a b t, partSign u p h.toNat = (some (a, b), t) →
      gets t (.getMeasurements ch tag .clear ⟨0, 0xFF⟩ h) (.measurements (measBlocks s p) a b) ∧
      gets t (.getMeasurements ch tag .clear ⟨0, 0⟩ h) (.measurements [] a b) ∧
      ((measBlocks s p).filter (fun x => decide (x.1 = k.toNat)) ≠ [] → k ≠ 0xFF →
        gets t (.getMeasurements ch tag .clear ⟨0, k⟩ h) (.measurements ((measBlocks s p).filter (fun x => decide (x.1 = k.toNat))) a b))) ∧
    (∀ (n : BitVec 4) (k : BitVec 16) pt th, n ≠ 0 → gives (.keyExchange ch tag .clear ⟨n, k⟩ pt th) (bad "InvalidRequest")) ∧
    (∀ (k : BitVec 16) pt th,
      let i := Instr.keyExchange ch tag .clear ⟨0, k⟩ pt th
      ((session s c ≠ none ∨ 24 ≤ sessCount s false ∨ 4 ≤ sessCount s true) → gives i (bad "Busy")) ∧
      (session s c = none → sessCount s false < 24 → sessCount s true < 4 →
        (ecPoint pt = none → gives i (bad "InvalidRequest")) ∧
        (∀ q, ecPoint pt = some q → ecOn q = false → gives i (bad "InvalidRequest")) ∧
        (∀ q, ecPoint pt = some q → ecOn q = true → s.rng.dead = false → s.rng.es ≠ 2 → 7 ≤ (emptySlots s).length →
          ∃ w e v rsp ke, v.opening = true ∧ v.reqId = k.toNat ∧ v.rspId = rsp ∧ v.pid = p ∧ v.gen = genOf s p ∧ v.delivery = 0 ∧
            v.update = 0 ∧ v.kem = false ∧ v.lastRec = s.time ∧ v.hsKeys.length = 4 ∧ (∀ j, session w j = session s j) ∧
            (∀ a b t, partSign w p e = (some (a, b), t) → gets (setSession t c (some v)) i
              (.keyExchange rsp 30 ke (verifyData (slotKeyBytes t (v.hsKeys.getD 3 0)) th) a b)) ∧
            (∀ t, partSign w p e = (none, t) → gets (eraseSlots t (v.hsSlot :: v.hsKeys)) i (bad "Unspecified"))))) ∧
    (∀ last bs,
      let whole := chunks.1 ++ bs
      let put (w : List Byte) : State := { u with att := { s.att with chunks := smSet ([], []) s.att.chunks c (w, chunks.2) } }
      (65536 < whole.length → gets (put []) (.chunkSend ch tag .clear last bs) (bad "InvalidRequest")) ∧
      (whole.length ≤ 65536 → gets (put whole) (.chunkSend ch tag .clear false bs) .ok) ∧
      (whole.length ≤ 65536 → exec (.chunkSend ch tag .clear true bs) s =
        .next { s with att := { s.att with chunks := smSet ([], []) s.att.chunks c ([], chunks.2) } })) ∧
    (chunks.2 = [] → gives (.chunkGet ch tag .clear) (bad "UnexpectedRequest")) ∧
    (chunks.2 ≠ [] → gets { u with att := { s.att with chunks := smSet ([], []) s.att.chunks c (chunks.1, chunks.2.drop 4096) } }
      (.chunkGet ch tag .clear) (.chunk (chunks.2.take 4096))) ∧
    (∀ th y, ∀ i ∈ [Instr.finish ch tag .clear th y, .heartbeat ch tag .clear, .keyUpdate ch tag .clear, .endSession ch tag .clear],
      gives i (bad "SessionRequired")) ∧
    (∀ th y, ∀ i ∈ [Instr.getVersion ch tag .badTag, .finish ch tag .badTag th y, .heartbeat ch tag .badTag, .endSession ch tag .badTag],
      (session s c = none → exec i s = .next (replyCode u c tag.toNat 0x0201 2)) ∧
      (∀ v, session s c = some v → gets (endSession (sendRecord u c tag.toNat) c) i (bad "DecryptError")))

/-- R243, R244, R246, Table 8-10: SPDM requests inside a session. FINISH with the right VerifyData opens it for data and a wrong one ends
it; HEARTBEAT answers; KEY_UPDATE advances the update count with new slots, and ends a session whose generation has passed; END_SESSION
ends it. Each record takes the next sequence number of its direction, which starts anew with new keys. -/
def Obligations.SpdmSessions : Prop :=
  ∀ s (ch : Chan) (tag : BitVec 6) cls body v plain, asked s ch tag 0x0201 cls body → session s ch.num = some v →
    let c := ch.num
    let u := sendRecord (setSession (taken s ch tag 0x0201) c (some { v with lastRec := s.time, recvSeq := v.recvSeq + 1 })) c tag.toNat
    let gives (i : Instr) (r : SpdmRsp) : Prop := exec i s = .next (spdmReply u c tag.toNat r)
    (∀ th y,
      let wrong : Prop := verifyData (slotKeyBytes s (v.hsKeys.getD 2 0)) th ≠ beBytes 48 y.toNat
      (v.opening = false → gives (.finish ch tag (.secured plain) th y) (.error "UnexpectedRequest")) ∧
      (v.opening = true → wrong →
        exec (.finish ch tag (.secured plain) th y) s = .next (spdmReply (endSession u c) c tag.toNat (.error "DecryptError"))) ∧
      (v.opening = true → ¬ wrong → 3 ≤ (emptySlots s).length →
        ∃ t w, exec (.finish ch tag (.secured plain) th y) s = .next (spdmReply t c tag.toNat .ok) ∧ session t c = some w ∧
          w.opening = false ∧ w.recvSeq = 0 ∧ w.sendSeq = 0 ∧ w.th = beBytes 48 th.toNat ∧ w.reqId = v.reqId ∧ w.rspId = v.rspId ∧ w.update = v.update ∧
          (∀ j, j ≠ c → session t j = session s j))) ∧
    (v.opening = true → ∀ i ∈ [Instr.heartbeat ch tag (.secured plain), .keyUpdate ch tag (.secured plain),
      .endSession ch tag (.secured plain)], gives i (.error "UnexpectedRequest")) ∧
    (v.opening = false →
      gives (.heartbeat ch tag (.secured plain)) .ok ∧
      (v.gen ≠ genOf s v.pid → exec (.keyUpdate ch tag (.secured plain)) s =
        .next (spdmReply (endSession u c) c tag.toNat (.error "Unspecified"))) ∧
      (v.gen = genOf s v.pid → (emptySlots s).length < 3 → gives (.keyUpdate ch tag (.secured plain)) (.error "Busy")) ∧
      (v.gen = genOf s v.pid → 3 ≤ (emptySlots s).length → ∃ t w, exec (.keyUpdate ch tag (.secured plain)) s = .next (spdmReply t c tag.toNat .ok) ∧
        session t c = some w ∧ w.update = v.update + 1 ∧ w.opening = false ∧ w.recvSeq = 0 ∧ w.sendSeq = 0 ∧ w.reqId = v.reqId ∧ w.kem = v.kem ∧
        (∀ j, j ≠ c → session t j = session s j)) ∧
      exec (.endSession ch tag (.secured plain)) s = .next (spdmReply (endSession u c) c tag.toNat .ok) ∧
      session (endSession u c) c = none)

/-- R249 to R251, Table 8-9: TDISP and IDE_KM on operator channel 3, in the session that holds the TSM role, which the first TDISP request
after a reset takes and no later session. LOCK, START and STOP move a virtual function through its states, its report is given in CONFIG_LOCKED and RUN, its state always;
K_SET_GO and K_SET_STOP activate and stop a key set of a stream, the latter with every function of the stream in ERROR; KEY_PROG programs
nothing. -/
def Obligations.TdispAndIde : Prop :=
  ∀ s (tag : BitVec 6) cls body v plain, asked s (.oper 3) tag 0x0201 cls body → session s 67 = some v → v.opening = false →
    let u := sendRecord (setSession (taken s (.oper 3) tag 0x0201) 67 (some { v with lastRec := s.time, recvSeq := v.recvSeq + 1 })) 67 tag.toNat
    let car := Carriage.secured plain
    let gets (t : State) (i : Instr) (r : SpdmRsp) : Prop := exec i s = .next (spdmReply t 67 tag.toNat r)
    let bad (i : Instr) (n : String) : Prop := gets u i (.error n)
    (s.att.tsm = false → s.att.tsmTaken = true → bad (.getTdispVersion (.oper 3) tag car) "UnsupportedRequest" ∧
      bad (.getTdispCapabilities (.oper 3) tag car) "UnsupportedRequest" ∧
      ∀ f, bad (.getDeviceInterfaceState (.oper 3) tag car f) "UnsupportedRequest") ∧
    (s.att.tsm = false → s.att.tsmTaken = false →
      let t : State := { u with att := { u.att with tsm := true } }
      gets t (.getTdispVersion (.oper 3) tag car) .tdispVersion ∧ gets t (.getTdispCapabilities (.oper 3) tag car) .tdispCapabilities ∧
      ∀ st ks, ∀ i ∈ [Instr.query (.oper 3) tag car, .kSetGo (.oper 3) tag car st ks, .kSetStop (.oper 3) tag car st ks,
        .keyProg (.oper 3) tag car], bad i "UnsupportedRequest") ∧
    (s.att.tsm = true →
      gets u (.getTdispVersion (.oper 3) tag car) .tdispVersion ∧ gets u (.getTdispCapabilities (.oper 3) tag car) .tdispCapabilities ∧
      gets u (.query (.oper 3) tag car) .ideOk ∧ gets u (.keyProg (.oper 3) tag car) .ideFail ∧
      (∀ (st : Byte) ks,
        (∃ t, gets t (.kSetGo (.oper 3) tag car st ks) .ideOk ∧ smGet false t.att.streams (2 * st.toNat + b2n ks) = true ∧
          (∀ k, k ≠ 2 * st.toNat + b2n ks → smGet false t.att.streams k = smGet false s.att.streams k) ∧
          t = { u with att := { u.att with streams := t.att.streams } }) ∧
        (∃ t, gets t (.kSetStop (.oper 3) tag car st ks) .ideOk ∧ smGet false t.att.streams (2 * st.toNat + b2n ks) = false ∧
          (∀ x, tdisp t x = if x < 64 ∧ Config.streamOf x % 256 = st.toNat ∧ x ∈ s.part.active.pids.map s.part.active.pVf then 3
            else tdisp s x))) ∧
      (∀ (f : BitVec 6),
        let n := f.toNat
        (vfOwner s n = none → ∀ i ∈ [Instr.lockInterfaceRequest (.oper 3) tag car f, .getDeviceInterfaceReport (.oper 3) tag car f,
          .getDeviceInterfaceState (.oper 3) tag car f, .startInterfaceRequest (.oper 3) tag car f, .stopInterfaceRequest (.oper 3) tag car f],
          bad i "InvalidInterface") ∧
        (∀ p, vfOwner s n = some p →
          (tdisp s n = 0 → pstate s p = .running → gets (setTdisp u n 1) (.lockInterfaceRequest (.oper 3) tag car f) (.locked n)) ∧
          ((tdisp s n ≠ 0 ∨ pstate s p ≠ .running) → bad (.lockInterfaceRequest (.oper 3) tag car f) "InvalidInterfaceState") ∧
          ((tdisp s n = 1 ∨ tdisp s n = 2) → gets u (.getDeviceInterfaceReport (.oper 3) tag car f)
            (.report p (genOf s p) s.epoch.curVersion (ueid s) (sha384 (((pairSeed s 0x14 1 p).map ecPub).getD [])) (winBase p) 0x10000 true)) ∧
          (tdisp s n ≠ 1 → tdisp s n ≠ 2 → bad (.getDeviceInterfaceReport (.oper 3) tag car f) "InvalidInterfaceState") ∧
          gets u (.getDeviceInterfaceState (.oper 3) tag car f) (.ifState n (tdisp s n)) ∧
          (tdisp s n = 1 → streamKeyed s (Config.streamOf n % 256) = true →
            gets (setTdisp u n 2) (.startInterfaceRequest (.oper 3) tag car f) .ok) ∧
          ((tdisp s n ≠ 1 ∨ streamKeyed s (Config.streamOf n % 256) = false) →
            bad (.startInterfaceRequest (.oper 3) tag car f) "InvalidInterfaceState") ∧
          gets (setTdisp u n 0) (.stopInterfaceRequest (.oper 3) tag car f) .ok)))

/-! ## The whole machine -/

/-- A step takes the command at the front of the queue and performs it with the queue's rest. With none waiting the block idles: its time
count goes on by one, and nothing else changes (DESIGN CHOICE, log entry 1). -/
def Obligations.StepRunsCommand : Prop :=
  ∀ s,
    (∀ c rest, s.pending = c :: rest → step s = exec c { s with pending := rest }) ∧
    (s.pending = [] → step s = .next { s with time := s.time + 1 })

/-- R31, R32, R67, R68, R253, R360, R511, Table 2-3: what reset leaves. KX3 is in RESET, with SHUTTER_N, KX_HALT, every HUB_RST_N and
every SITE_HOLD_N bit at 0, the critical outputs at their most restrictive values, every wait entry IDLE and every doorbell 0, the
generation of PID 0 and of PID 1 at 0, PG_CTRL.OWNER of PKE, MEAS, SYM and CVU at 1, no frame, no request and no command outstanding. Main
SRAM lists nothing, which is its canonical form. -/
def Obligations.ResetState : Prop :=
  let s := State.reset
  s.block = .reset ∧ s.time = 0 ∧ s.pins.shutterN = false ∧ s.pins.halt = 0 ∧ s.pins.hubRstN = 0 ∧ s.pins.siteHoldN = 0 ∧
  s.pins.critValid = false ∧ s.pins.dbgEn = false ∧ s.pins.testEn = false ∧ s.pins.lcs = 0x3F ∧ s.pins.pwrReq = false ∧
  (∀ t e, e < 2 → (waitEntry s t e).state = 0) ∧ (∀ p n, doorbell s p n = 0) ∧ genOf s 0 = 0 ∧ genOf s 1 = 0 ∧
  (∀ k ∈ [4, 5, 6, 7], fld (hdr s (pgFw k)).ctrl 1 0 = 1) ∧ s.cpb.flights = [] ∧ s.hip.out = [] ∧ s.pending = [] ∧
  Memory.wf s.sram = true ∧ hubHeld s ∧ quiet s = true

/-- R80, R82, R83, Tables 3-10 and 3-11: steps 2 and 3 of an HCP access. A tag reaches a view only with the view's PID, its current
generation and, for a Tally slot, one that is assigned; EP and SUB are not looked at, and no tag reaches the firmware view or a hole. What
a tag does not reach is refused with EACCESS or EPOISON; a page that is not in service in the block's and the partition's state gives
EDOWN. While a sleep entry has them shut (R507) the windows, O_MBOX0 to O_MBOX3 and O_BOOK give EDOWN. In SLEEP every access does (R40).
-/
def Obligations.PagesInService : Prop :=
  ∀ s (tag : BitVec 24) (write : Bool),
    let check (l : Loc) : Option Rsp := hcpCheck s tag write l
    let miss : Option Rsp := some (if write then .eaccess else .epoison)
    let mine (p : Nat) : Prop := tagPid tag = p ∧ tagGen tag = genOf s p
    (∀ l, s.block = .sleep → check l = some .edown) ∧
    (∀ l tag', tagPid tag' = tagPid tag → tagGen tag' = tagGen tag → hcpCheck s tag' write l = check l) ∧
    (s.block ≠ .reset → s.block ≠ .sleep →
      (∀ k o t, check (.fw k o) = miss ∧ check (.fwTally t o) = miss ∧ check .hole = miss) ∧
      (∀ k o, ¬ mine 1 → check (.oper k o) = miss) ∧
      (∀ p k o, (¬ mine p ∨ serving s = false ∨ pstate s p = .free ∨ pstate s p = .retiring) →
        check (.win p k o) = miss ∧ check (.slot p k o) = miss) ∧
      (∀ p k o, tallyOfSlot s p k = none → check (.slot p k o) = miss) ∧
      (∀ k o, mine 1 →
        let shown : Prop := match s.block with
          | .sense | .boot => (k = 0 ∧ write = false) ∨ k = 1
          | .run | .degraded => sleepShut s = false ∨ k = 0 ∨ k = 5 ∨ k = 6 ∨ 7 < k
          | .safe => (k = 0 ∨ k = 5) ∧ write = false
          | .halted => k = 0 ∧ write = false
          | _ => False
        (shown → check (.oper k o) = none) ∧ (¬ shown → check (.oper k o) = some .edown)) ∧
      (∀ p k o, mine p → serving s = true → pstate s p ≠ .free → pstate s p ≠ .retiring →
        let shown : Prop := sleepShut s = false ∧ match pstate s p with
          | .running => True
          | .configured | .quarantined => k = 0 ∨ k = 1 ∨ k = 6
          | .quenching => k = 0 ∧ write = false
          | _ => False
        (k ≠ 7 → shown → check (.win p k o) = none) ∧ (k ≠ 7 → ¬ shown → check (.win p k o) = some .edown) ∧
        (∀ t, tallyOfSlot s p k = some t →
          (sleepShut s = false → pstate s p = .running → check (.slot p k o) = none) ∧
          ((sleepShut s = true ∨ pstate s p ≠ .running) → check (.slot p k o) = some .edown))))

/-- R79, R80, R85: a request whose tag reaches no view (a PID without a window, a generation that has passed) has no part performed,
whatever it asks: a step on it leaves every register, queue, table, key and pin as it was. What may change is the answer, the record of
the refusal in the Ledger with its events, and the posts those events make. -/
def Obligations.ForeignRequest : Prop :=
  ∀ s i tag id, accessSrc i = some (.hcp tag id) → (∀ l, reaches s tag l = false) → resting s →
    ∃ u, exec i s = .next u ∧
      u = { s with rsp := u.rsp, qos := u.qos, ledger := u.ledger, hdrs := u.hdrs, irq := u.irq, hip := u.hip } ∧
      (sealed s (tagPid tag) = false → u.rsp = s.rsp ∨ ∃ r data, u.rsp = some { code := r, data := data, id := id } ∧ r ≠ .ok ∧
        ∀ d ∈ data, d = 0)

/-- R68: from every state that keeps it, every step keeps it: a HUB_RST_N bit is 1 only where PD_STATUS of its domain has read 1, and in
HALTED and in SAFE every HUB_RST_N bit is 0. -/
def Obligations.HubResetsHeld : Prop :=
  ∀ s t, hubHeld s → step s = .next t → hubHeld t

/-- Table 1-3, R486: HALTED and SAFE are left by a reset only: a step on any command but KX_POR_N and KX_RST_N leaves the block state as
it is. -/
def Obligations.StoppedUntilReset : Prop :=
  ∀ s t, stopped s = true → step s = .next t → s.pending.head? ≠ some .kxPorNAssert → s.pending.head? ≠ some .kxRstNAssert →
    t.block = s.block

/-- Chapter 4 (a programmed anti-fuse cell cannot be returned to 0): no step, a reset included, takes a cell of the array from 1 to 0. -/
def Obligations.FuseCellsStay : Prop :=
  ∀ s t, step s = .next t → ∀ k, fuseCells s k &&& ~~~ fuseCells t k = 0

/-- Main SRAM keeps its canonical form: addresses strictly rising, and no entry that an unlisted address would read as. -/
def Obligations.MainSramForm : Prop :=
  ∀ s t, Memory.wf s.sram = true → step s = .next t → Memory.wf t.sram = true
end

