-- ==== Sys2Proof/Laws/Aes.lean ====
section
/-! SUPPORT. The two byte tables of AES are the substitution that FIPS 197 computes, and its inverse. -/
namespace Sys2Proof.Machine

theorem sub_tables : ∀ a ∈ List.range 256, sub sboxTable a = sboxCalc a ∧ sub invTable (sboxCalc a) = a := by decide +kernel

end Sys2Proof.Machine
end

