-- ==== Sys2Proof/Laws/Store.lean ====
section
/-! SUPPORT. Sparse stores: reading after writing, and the canonical form that every operation keeps. -/
namespace Sys2Proof.Machine

variable {α : Type} {d : α}

@[simp] theorem smGet_smPut_same (m : SMap α) (k : Nat) (v : α) : smGet d (smPut m k v) k = v := by
  induction m with
  | nil => simp [smPut, smGet]
  | cons c m ih =>
    unfold smPut
    split
    · simp [smGet]
    · split
      · simp [smGet]
      · rename_i h; simp [smGet, h, ih]

theorem smGet_smPut_other (m : SMap α) {k j : Nat} (v : α) (h : j ≠ k) : smGet d (smPut m k v) j = smGet d m j := by
  induction m with
  | nil => simp [smPut, smGet, h]
  | cons c m ih =>
    unfold smPut
    split
    · simp [smGet, h]
    · split
      · rename_i hk; simp [smGet, h, ← hk]
      · simp only [smGet, ih]

theorem smGet_drop_same (m : SMap α) (k : Nat) : smGet d (m.filter (fun c => decide (c.1 ≠ k))) k = d := by
  induction m with
  | nil => rfl
  | cons c m ih =>
    by_cases h : c.1 = k
    · simpa [List.filter, h] using ih
    · have : k ≠ c.1 := fun e => h e.symm
      simpa [List.filter, h, smGet, this] using ih

theorem smGet_drop_other (m : SMap α) {k j : Nat} (h : j ≠ k) :
    smGet d (m.filter (fun c => decide (c.1 ≠ k))) j = smGet d m j := by
  induction m with
  | nil => rfl
  | cons c m ih =>
    by_cases hc : c.1 = k
    · have : j ≠ c.1 := fun e => h (e.trans hc)
      simpa [List.filter, hc, smGet, h] using ih
    · simp only [ne_eq, decide_not] at ih
      simp [List.filter, hc, smGet, ih]

variable [DecidableEq α]

/-- Reading the key that was written. -/
@[simp] theorem smGet_smSet_same (m : SMap α) (k : Nat) (v : α) : smGet d (smSet d m k v) k = v := by
  unfold smSet
  split
  · rename_i h; rw [h]; exact smGet_drop_same m k
  · exact smGet_smPut_same m k v

/-- Reading another key than the one written. -/
theorem smGet_smSet_other (m : SMap α) {k j : Nat} (v : α) (h : j ≠ k) : smGet d (smSet d m k v) j = smGet d m j := by
  unfold smSet
  split
  · exact smGet_drop_other m h
  · exact smGet_smPut_other m v h

/-- The same where what an unlisted key reads as depends on the key. -/
theorem smGet_smSet_other_default {e : α} (m : SMap α) {k j : Nat} (v : α) (h : j ≠ k) : smGet d (smSet e m k v) j = smGet d m j := by
  unfold smSet
  split
  · exact smGet_drop_other m h
  · exact smGet_smPut_other m v h

/-- Reading after a write. -/
theorem smGet_smSet (m : SMap α) (k j : Nat) (v : α) : smGet d (smSet d m k v) j = if j = k then v else smGet d m j := by
  by_cases h : j = k
  · subst h; simp
  · simp [h, smGet_smSet_other]

theorem smWfFrom_le (m : SMap α) {a b : Nat} (hab : a ≤ b) (hm : smWfFrom d b m = true) : smWfFrom d a m = true := by
  cases m with
  | nil => rfl
  | cons c m => simp_all [smWfFrom]; omega

theorem smWfFrom_filter (m : SMap α) (lo : Nat) (q : Nat × α → Bool) (h : smWfFrom d lo m = true) :
    smWfFrom d lo (m.filter q) = true := by
  induction m generalizing lo with
  | nil => rfl
  | cons c m ih =>
    simp only [smWfFrom, Bool.and_eq_true, decide_eq_true_eq] at h
    simp only [List.filter]
    split
    · simp only [smWfFrom, Bool.and_eq_true, decide_eq_true_eq]; exact ⟨h.1, ih _ h.2⟩
    · exact smWfFrom_le _ (by omega) (ih _ h.2)

theorem smWfFrom_smPut (m : SMap α) (lo k : Nat) (v : α) (hk : lo ≤ k) (hv : v ≠ d) (h : smWfFrom d lo m = true) :
    smWfFrom d lo (smPut m k v) = true := by
  induction m generalizing lo with
  | nil => simp [smPut, smWfFrom, hk, hv]
  | cons c m ih =>
    simp only [smWfFrom, Bool.and_eq_true, decide_eq_true_eq] at h
    unfold smPut
    split
    · simp only [smWfFrom, Bool.and_eq_true, decide_eq_true_eq]; exact ⟨⟨hk, hv⟩, ⟨by omega, h.1.2⟩, h.2⟩
    · split
      · rename_i hkk; subst hkk
        simp only [smWfFrom, Bool.and_eq_true, decide_eq_true_eq]; exact ⟨⟨hk, hv⟩, h.2⟩
      · simp only [smWfFrom, Bool.and_eq_true, decide_eq_true_eq]; exact ⟨h.1, ih _ (by omega) h.2⟩

/-- Writing keeps the canonical form. -/
theorem smWf_smSet (m : SMap α) (k : Nat) (v : α) (h : smWf d m = true) : smWf d (smSet d m k v) = true := by
  unfold smSet
  split
  · exact smWfFrom_filter m 0 _ h
  · exact smWfFrom_smPut m 0 k v (Nat.zero_le _) ‹_› h

/-- Bytes stored in main SRAM keep its canonical form. -/
theorem smWf_sramPut (m : List Host.Cell) (a : Nat) (bs : List Byte) (h : smWf 0 m = true) : smWf 0 (sramPut m a bs) = true := by
  induction bs generalizing m a with
  | nil => exact h
  | cons b bs ih => exact ih _ _ (smWf_smSet m a b h)

/-- A byte outside the stored range reads as before. -/
theorem smGet_sramPut_other (m : List Host.Cell) (a b : Nat) (bs : List Byte) (h : b < a ∨ a + bs.length ≤ b) :
    smGet 0 (sramPut m a bs) b = smGet 0 m b := by
  induction bs generalizing m a with
  | nil => rfl
  | cons x bs ih =>
    simp only [List.length_cons] at h
    rw [sramPut, ih _ _ (by omega), smGet_smSet_other _ _ (by omega)]

/-- A byte inside the stored range reads as stored. -/
theorem smGet_sramPut_in (m : List Host.Cell) (a i : Nat) (bs : List Byte) (h : i < bs.length) :
    smGet 0 (sramPut m a bs) (a + i) = bs[i] := by
  induction bs generalizing m a i with
  | nil => simp at h
  | cons x bs ih =>
    cases i with
    | zero => rw [sramPut, smGet_sramPut_other _ _ _ _ (by omega)]; simp
    | succ i =>
      have := ih (smSet 0 m a x) (a + 1) i (by simpa using h)
      rw [sramPut, show a + (i + 1) = a + 1 + i by omega]; simpa using this

end Sys2Proof.Machine
end

