-- ==== Sys2Proof/Laws/State.lean ====
section
/-! SUPPORT. The small updates of State: what each leaves alone, field by field, and what is read back after each. -/
namespace Sys2Proof.Machine

variable (s : State)

/-! `setHdr` writes `hdrs`. -/
@[simp] theorem setHdr_block (p : Nat) (h : Hdr) : (setHdr s p h).block = s.block := rfl
@[simp] theorem setHdr_time (p : Nat) (h : Hdr) : (setHdr s p h).time = s.time := rfl
@[simp] theorem setHdr_free (p : Nat) (h : Hdr) : (setHdr s p h).free = s.free := rfl
@[simp] theorem setHdr_pins (p : Nat) (h : Hdr) : (setHdr s p h).pins = s.pins := rfl
@[simp] theorem setHdr_cores (p : Nat) (h : Hdr) : (setHdr s p h).cores = s.cores := rfl
@[simp] theorem setHdr_tmp (p : Nat) (h : Hdr) : (setHdr s p h).tmp = s.tmp := rfl
@[simp] theorem setHdr_pwr (p : Nat) (h : Hdr) : (setHdr s p h).pwr = s.pwr := rfl
@[simp] theorem setHdr_ledger (p : Nat) (h : Hdr) : (setHdr s p h).ledger = s.ledger := rfl
@[simp] theorem setHdr_cpb (p : Nat) (h : Hdr) : (setHdr s p h).cpb = s.cpb := rfl
@[simp] theorem setHdr_hip (p : Nat) (h : Hdr) : (setHdr s p h).hip = s.hip := rfl
@[simp] theorem setHdr_part (p : Nat) (h : Hdr) : (setHdr s p h).part = s.part := rfl
@[simp] theorem setHdr_epoch (p : Nat) (h : Hdr) : (setHdr s p h).epoch = s.epoch := rfl
@[simp] theorem setHdr_book (p : Nat) (h : Hdr) : (setHdr s p h).book = s.book := rfl
@[simp] theorem setHdr_xlat (p : Nat) (h : Hdr) : (setHdr s p h).xlat = s.xlat := rfl
@[simp] theorem setHdr_xcnt (p : Nat) (h : Hdr) : (setHdr s p h).xcnt = s.xcnt := rfl
@[simp] theorem setHdr_irq (p : Nat) (h : Hdr) : (setHdr s p h).irq = s.irq := rfl
@[simp] theorem setHdr_qn (p : Nat) (h : Hdr) : (setHdr s p h).qn = s.qn := rfl
@[simp] theorem setHdr_qos (p : Nat) (h : Hdr) : (setHdr s p h).qos = s.qos := rfl
@[simp] theorem setHdr_tl (p : Nat) (h : Hdr) : (setHdr s p h).tl = s.tl := rfl
@[simp] theorem setHdr_mbox (p : Nat) (h : Hdr) : (setHdr s p h).mbox = s.mbox := rfl
@[simp] theorem setHdr_fuse (p : Nat) (h : Hdr) : (setHdr s p h).fuse = s.fuse := rfl
@[simp] theorem setHdr_boot (p : Nat) (h : Hdr) : (setHdr s p h).boot = s.boot := rfl
@[simp] theorem setHdr_sbox (p : Nat) (h : Hdr) : (setHdr s p h).sbox = s.sbox := rfl
@[simp] theorem setHdr_anvil (p : Nat) (h : Hdr) : (setHdr s p h).anvil = s.anvil := rfl
@[simp] theorem setHdr_hash (p : Nat) (h : Hdr) : (setHdr s p h).hash = s.hash := rfl
@[simp] theorem setHdr_aes (p : Nat) (h : Hdr) : (setHdr s p h).aes = s.aes := rfl
@[simp] theorem setHdr_rng (p : Nat) (h : Hdr) : (setHdr s p h).rng = s.rng := rfl
@[simp] theorem setHdr_cvu (p : Nat) (h : Hdr) : (setHdr s p h).cvu = s.cvu := rfl
@[simp] theorem setHdr_hmk (p : Nat) (h : Hdr) : (setHdr s p h).hmk = s.hmk := rfl
@[simp] theorem setHdr_att (p : Nat) (h : Hdr) : (setHdr s p h).att = s.att := rfl
@[simp] theorem setHdr_asy (p : Nat) (h : Hdr) : (setHdr s p h).asy = s.asy := rfl
@[simp] theorem setHdr_sram (p : Nat) (h : Hdr) : (setHdr s p h).sram = s.sram := rfl
@[simp] theorem setHdr_regs (p : Nat) (h : Hdr) : (setHdr s p h).regs = s.regs := rfl
@[simp] theorem setHdr_latch (p : Nat) (h : Hdr) : (setHdr s p h).latch = s.latch := rfl
@[simp] theorem setHdr_wstage (p : Nat) (h : Hdr) : (setHdr s p h).wstage = s.wstage := rfl
@[simp] theorem setHdr_rsp (p : Nat) (h : Hdr) : (setHdr s p h).rsp = s.rsp := rfl
@[simp] theorem setHdr_pending (p : Nat) (h : Hdr) : (setHdr s p h).pending = s.pending := rfl

/-! `setReg` writes `regs`. -/
@[simp] theorem setReg_block (k : Nat) (v : Word) : (setReg s k v).block = s.block := rfl
@[simp] theorem setReg_time (k : Nat) (v : Word) : (setReg s k v).time = s.time := rfl
@[simp] theorem setReg_free (k : Nat) (v : Word) : (setReg s k v).free = s.free := rfl
@[simp] theorem setReg_pins (k : Nat) (v : Word) : (setReg s k v).pins = s.pins := rfl
@[simp] theorem setReg_cores (k : Nat) (v : Word) : (setReg s k v).cores = s.cores := rfl
@[simp] theorem setReg_tmp (k : Nat) (v : Word) : (setReg s k v).tmp = s.tmp := rfl
@[simp] theorem setReg_pwr (k : Nat) (v : Word) : (setReg s k v).pwr = s.pwr := rfl
@[simp] theorem setReg_ledger (k : Nat) (v : Word) : (setReg s k v).ledger = s.ledger := rfl
@[simp] theorem setReg_cpb (k : Nat) (v : Word) : (setReg s k v).cpb = s.cpb := rfl
@[simp] theorem setReg_hip (k : Nat) (v : Word) : (setReg s k v).hip = s.hip := rfl
@[simp] theorem setReg_part (k : Nat) (v : Word) : (setReg s k v).part = s.part := rfl
@[simp] theorem setReg_epoch (k : Nat) (v : Word) : (setReg s k v).epoch = s.epoch := rfl
@[simp] theorem setReg_book (k : Nat) (v : Word) : (setReg s k v).book = s.book := rfl
@[simp] theorem setReg_xlat (k : Nat) (v : Word) : (setReg s k v).xlat = s.xlat := rfl
@[simp] theorem setReg_xcnt (k : Nat) (v : Word) : (setReg s k v).xcnt = s.xcnt := rfl
@[simp] theorem setReg_irq (k : Nat) (v : Word) : (setReg s k v).irq = s.irq := rfl
@[simp] theorem setReg_qn (k : Nat) (v : Word) : (setReg s k v).qn = s.qn := rfl
@[simp] theorem setReg_qos (k : Nat) (v : Word) : (setReg s k v).qos = s.qos := rfl
@[simp] theorem setReg_tl (k : Nat) (v : Word) : (setReg s k v).tl = s.tl := rfl
@[simp] theorem setReg_mbox (k : Nat) (v : Word) : (setReg s k v).mbox = s.mbox := rfl
@[simp] theorem setReg_fuse (k : Nat) (v : Word) : (setReg s k v).fuse = s.fuse := rfl
@[simp] theorem setReg_boot (k : Nat) (v : Word) : (setReg s k v).boot = s.boot := rfl
@[simp] theorem setReg_sbox (k : Nat) (v : Word) : (setReg s k v).sbox = s.sbox := rfl
@[simp] theorem setReg_anvil (k : Nat) (v : Word) : (setReg s k v).anvil = s.anvil := rfl
@[simp] theorem setReg_hash (k : Nat) (v : Word) : (setReg s k v).hash = s.hash := rfl
@[simp] theorem setReg_aes (k : Nat) (v : Word) : (setReg s k v).aes = s.aes := rfl
@[simp] theorem setReg_rng (k : Nat) (v : Word) : (setReg s k v).rng = s.rng := rfl
@[simp] theorem setReg_cvu (k : Nat) (v : Word) : (setReg s k v).cvu = s.cvu := rfl
@[simp] theorem setReg_hmk (k : Nat) (v : Word) : (setReg s k v).hmk = s.hmk := rfl
@[simp] theorem setReg_att (k : Nat) (v : Word) : (setReg s k v).att = s.att := rfl
@[simp] theorem setReg_asy (k : Nat) (v : Word) : (setReg s k v).asy = s.asy := rfl
@[simp] theorem setReg_sram (k : Nat) (v : Word) : (setReg s k v).sram = s.sram := rfl
@[simp] theorem setReg_hdrs (k : Nat) (v : Word) : (setReg s k v).hdrs = s.hdrs := rfl
@[simp] theorem setReg_latch (k : Nat) (v : Word) : (setReg s k v).latch = s.latch := rfl
@[simp] theorem setReg_wstage (k : Nat) (v : Word) : (setReg s k v).wstage = s.wstage := rfl
@[simp] theorem setReg_rsp (k : Nat) (v : Word) : (setReg s k v).rsp = s.rsp := rfl
@[simp] theorem setReg_pending (k : Nat) (v : Word) : (setReg s k v).pending = s.pending := rfl

/-! `answer` writes `rsp`. -/
@[simp] theorem answer_block (r : Rsp) (d : List DWord) : (answer s r d).block = s.block := rfl
@[simp] theorem answer_time (r : Rsp) (d : List DWord) : (answer s r d).time = s.time := rfl
@[simp] theorem answer_free (r : Rsp) (d : List DWord) : (answer s r d).free = s.free := rfl
@[simp] theorem answer_pins (r : Rsp) (d : List DWord) : (answer s r d).pins = s.pins := rfl
@[simp] theorem answer_cores (r : Rsp) (d : List DWord) : (answer s r d).cores = s.cores := rfl
@[simp] theorem answer_tmp (r : Rsp) (d : List DWord) : (answer s r d).tmp = s.tmp := rfl
@[simp] theorem answer_pwr (r : Rsp) (d : List DWord) : (answer s r d).pwr = s.pwr := rfl
@[simp] theorem answer_ledger (r : Rsp) (d : List DWord) : (answer s r d).ledger = s.ledger := rfl
@[simp] theorem answer_cpb (r : Rsp) (d : List DWord) : (answer s r d).cpb = s.cpb := rfl
@[simp] theorem answer_hip (r : Rsp) (d : List DWord) : (answer s r d).hip = s.hip := rfl
@[simp] theorem answer_part (r : Rsp) (d : List DWord) : (answer s r d).part = s.part := rfl
@[simp] theorem answer_epoch (r : Rsp) (d : List DWord) : (answer s r d).epoch = s.epoch := rfl
@[simp] theorem answer_book (r : Rsp) (d : List DWord) : (answer s r d).book = s.book := rfl
@[simp] theorem answer_xlat (r : Rsp) (d : List DWord) : (answer s r d).xlat = s.xlat := rfl
@[simp] theorem answer_xcnt (r : Rsp) (d : List DWord) : (answer s r d).xcnt = s.xcnt := rfl
@[simp] theorem answer_irq (r : Rsp) (d : List DWord) : (answer s r d).irq = s.irq := rfl
@[simp] theorem answer_qn (r : Rsp) (d : List DWord) : (answer s r d).qn = s.qn := rfl
@[simp] theorem answer_qos (r : Rsp) (d : List DWord) : (answer s r d).qos = s.qos := rfl
@[simp] theorem answer_tl (r : Rsp) (d : List DWord) : (answer s r d).tl = s.tl := rfl
@[simp] theorem answer_mbox (r : Rsp) (d : List DWord) : (answer s r d).mbox = s.mbox := rfl
@[simp] theorem answer_fuse (r : Rsp) (d : List DWord) : (answer s r d).fuse = s.fuse := rfl
@[simp] theorem answer_boot (r : Rsp) (d : List DWord) : (answer s r d).boot = s.boot := rfl
@[simp] theorem answer_sbox (r : Rsp) (d : List DWord) : (answer s r d).sbox = s.sbox := rfl
@[simp] theorem answer_anvil (r : Rsp) (d : List DWord) : (answer s r d).anvil = s.anvil := rfl
@[simp] theorem answer_hash (r : Rsp) (d : List DWord) : (answer s r d).hash = s.hash := rfl
@[simp] theorem answer_aes (r : Rsp) (d : List DWord) : (answer s r d).aes = s.aes := rfl
@[simp] theorem answer_rng (r : Rsp) (d : List DWord) : (answer s r d).rng = s.rng := rfl
@[simp] theorem answer_cvu (r : Rsp) (d : List DWord) : (answer s r d).cvu = s.cvu := rfl
@[simp] theorem answer_hmk (r : Rsp) (d : List DWord) : (answer s r d).hmk = s.hmk := rfl
@[simp] theorem answer_att (r : Rsp) (d : List DWord) : (answer s r d).att = s.att := rfl
@[simp] theorem answer_asy (r : Rsp) (d : List DWord) : (answer s r d).asy = s.asy := rfl
@[simp] theorem answer_sram (r : Rsp) (d : List DWord) : (answer s r d).sram = s.sram := rfl
@[simp] theorem answer_hdrs (r : Rsp) (d : List DWord) : (answer s r d).hdrs = s.hdrs := rfl
@[simp] theorem answer_regs (r : Rsp) (d : List DWord) : (answer s r d).regs = s.regs := rfl
@[simp] theorem answer_latch (r : Rsp) (d : List DWord) : (answer s r d).latch = s.latch := rfl
@[simp] theorem answer_wstage (r : Rsp) (d : List DWord) : (answer s r d).wstage = s.wstage := rfl
@[simp] theorem answer_pending (r : Rsp) (d : List DWord) : (answer s r d).pending = s.pending := rfl

/-! `drew` writes `free`. -/
@[simp] theorem drew_block (n : Nat) : (drew s n).block = s.block := rfl
@[simp] theorem drew_time (n : Nat) : (drew s n).time = s.time := rfl
@[simp] theorem drew_pins (n : Nat) : (drew s n).pins = s.pins := rfl
@[simp] theorem drew_cores (n : Nat) : (drew s n).cores = s.cores := rfl
@[simp] theorem drew_tmp (n : Nat) : (drew s n).tmp = s.tmp := rfl
@[simp] theorem drew_pwr (n : Nat) : (drew s n).pwr = s.pwr := rfl
@[simp] theorem drew_ledger (n : Nat) : (drew s n).ledger = s.ledger := rfl
@[simp] theorem drew_cpb (n : Nat) : (drew s n).cpb = s.cpb := rfl
@[simp] theorem drew_hip (n : Nat) : (drew s n).hip = s.hip := rfl
@[simp] theorem drew_part (n : Nat) : (drew s n).part = s.part := rfl
@[simp] theorem drew_epoch (n : Nat) : (drew s n).epoch = s.epoch := rfl
@[simp] theorem drew_book (n : Nat) : (drew s n).book = s.book := rfl
@[simp] theorem drew_xlat (n : Nat) : (drew s n).xlat = s.xlat := rfl
@[simp] theorem drew_xcnt (n : Nat) : (drew s n).xcnt = s.xcnt := rfl
@[simp] theorem drew_irq (n : Nat) : (drew s n).irq = s.irq := rfl
@[simp] theorem drew_qn (n : Nat) : (drew s n).qn = s.qn := rfl
@[simp] theorem drew_qos (n : Nat) : (drew s n).qos = s.qos := rfl
@[simp] theorem drew_tl (n : Nat) : (drew s n).tl = s.tl := rfl
@[simp] theorem drew_mbox (n : Nat) : (drew s n).mbox = s.mbox := rfl
@[simp] theorem drew_fuse (n : Nat) : (drew s n).fuse = s.fuse := rfl
@[simp] theorem drew_boot (n : Nat) : (drew s n).boot = s.boot := rfl
@[simp] theorem drew_sbox (n : Nat) : (drew s n).sbox = s.sbox := rfl
@[simp] theorem drew_anvil (n : Nat) : (drew s n).anvil = s.anvil := rfl
@[simp] theorem drew_hash (n : Nat) : (drew s n).hash = s.hash := rfl
@[simp] theorem drew_aes (n : Nat) : (drew s n).aes = s.aes := rfl
@[simp] theorem drew_rng (n : Nat) : (drew s n).rng = s.rng := rfl
@[simp] theorem drew_cvu (n : Nat) : (drew s n).cvu = s.cvu := rfl
@[simp] theorem drew_hmk (n : Nat) : (drew s n).hmk = s.hmk := rfl
@[simp] theorem drew_att (n : Nat) : (drew s n).att = s.att := rfl
@[simp] theorem drew_asy (n : Nat) : (drew s n).asy = s.asy := rfl
@[simp] theorem drew_sram (n : Nat) : (drew s n).sram = s.sram := rfl
@[simp] theorem drew_hdrs (n : Nat) : (drew s n).hdrs = s.hdrs := rfl
@[simp] theorem drew_regs (n : Nat) : (drew s n).regs = s.regs := rfl
@[simp] theorem drew_latch (n : Nat) : (drew s n).latch = s.latch := rfl
@[simp] theorem drew_wstage (n : Nat) : (drew s n).wstage = s.wstage := rfl
@[simp] theorem drew_rsp (n : Nat) : (drew s n).rsp = s.rsp := rfl
@[simp] theorem drew_pending (n : Nat) : (drew s n).pending = s.pending := rfl

/-! `sramWrite` writes `sram`. -/
@[simp] theorem sramWrite_block (a : Nat) (bs : List Byte) : (sramWrite s a bs).block = s.block := rfl
@[simp] theorem sramWrite_time (a : Nat) (bs : List Byte) : (sramWrite s a bs).time = s.time := rfl
@[simp] theorem sramWrite_free (a : Nat) (bs : List Byte) : (sramWrite s a bs).free = s.free := rfl
@[simp] theorem sramWrite_pins (a : Nat) (bs : List Byte) : (sramWrite s a bs).pins = s.pins := rfl
@[simp] theorem sramWrite_cores (a : Nat) (bs : List Byte) : (sramWrite s a bs).cores = s.cores := rfl
@[simp] theorem sramWrite_tmp (a : Nat) (bs : List Byte) : (sramWrite s a bs).tmp = s.tmp := rfl
@[simp] theorem sramWrite_pwr (a : Nat) (bs : List Byte) : (sramWrite s a bs).pwr = s.pwr := rfl
@[simp] theorem sramWrite_ledger (a : Nat) (bs : List Byte) : (sramWrite s a bs).ledger = s.ledger := rfl
@[simp] theorem sramWrite_cpb (a : Nat) (bs : List Byte) : (sramWrite s a bs).cpb = s.cpb := rfl
@[simp] theorem sramWrite_hip (a : Nat) (bs : List Byte) : (sramWrite s a bs).hip = s.hip := rfl
@[simp] theorem sramWrite_part (a : Nat) (bs : List Byte) : (sramWrite s a bs).part = s.part := rfl
@[simp] theorem sramWrite_epoch (a : Nat) (bs : List Byte) : (sramWrite s a bs).epoch = s.epoch := rfl
@[simp] theorem sramWrite_book (a : Nat) (bs : List Byte) : (sramWrite s a bs).book = s.book := rfl
@[simp] theorem sramWrite_xlat (a : Nat) (bs : List Byte) : (sramWrite s a bs).xlat = s.xlat := rfl
@[simp] theorem sramWrite_xcnt (a : Nat) (bs : List Byte) : (sramWrite s a bs).xcnt = s.xcnt := rfl
@[simp] theorem sramWrite_irq (a : Nat) (bs : List Byte) : (sramWrite s a bs).irq = s.irq := rfl
@[simp] theorem sramWrite_qn (a : Nat) (bs : List Byte) : (sramWrite s a bs).qn = s.qn := rfl
@[simp] theorem sramWrite_qos (a : Nat) (bs : List Byte) : (sramWrite s a bs).qos = s.qos := rfl
@[simp] theorem sramWrite_tl (a : Nat) (bs : List Byte) : (sramWrite s a bs).tl = s.tl := rfl
@[simp] theorem sramWrite_mbox (a : Nat) (bs : List Byte) : (sramWrite s a bs).mbox = s.mbox := rfl
@[simp] theorem sramWrite_fuse (a : Nat) (bs : List Byte) : (sramWrite s a bs).fuse = s.fuse := rfl
@[simp] theorem sramWrite_boot (a : Nat) (bs : List Byte) : (sramWrite s a bs).boot = s.boot := rfl
@[simp] theorem sramWrite_sbox (a : Nat) (bs : List Byte) : (sramWrite s a bs).sbox = s.sbox := rfl
@[simp] theorem sramWrite_anvil (a : Nat) (bs : List Byte) : (sramWrite s a bs).anvil = s.anvil := rfl
@[simp] theorem sramWrite_hash (a : Nat) (bs : List Byte) : (sramWrite s a bs).hash = s.hash := rfl
@[simp] theorem sramWrite_aes (a : Nat) (bs : List Byte) : (sramWrite s a bs).aes = s.aes := rfl
@[simp] theorem sramWrite_rng (a : Nat) (bs : List Byte) : (sramWrite s a bs).rng = s.rng := rfl
@[simp] theorem sramWrite_cvu (a : Nat) (bs : List Byte) : (sramWrite s a bs).cvu = s.cvu := rfl
@[simp] theorem sramWrite_hmk (a : Nat) (bs : List Byte) : (sramWrite s a bs).hmk = s.hmk := rfl
@[simp] theorem sramWrite_att (a : Nat) (bs : List Byte) : (sramWrite s a bs).att = s.att := rfl
@[simp] theorem sramWrite_asy (a : Nat) (bs : List Byte) : (sramWrite s a bs).asy = s.asy := rfl
@[simp] theorem sramWrite_hdrs (a : Nat) (bs : List Byte) : (sramWrite s a bs).hdrs = s.hdrs := rfl
@[simp] theorem sramWrite_regs (a : Nat) (bs : List Byte) : (sramWrite s a bs).regs = s.regs := rfl
@[simp] theorem sramWrite_latch (a : Nat) (bs : List Byte) : (sramWrite s a bs).latch = s.latch := rfl
@[simp] theorem sramWrite_wstage (a : Nat) (bs : List Byte) : (sramWrite s a bs).wstage = s.wstage := rfl
@[simp] theorem sramWrite_rsp (a : Nat) (bs : List Byte) : (sramWrite s a bs).rsp = s.rsp := rfl
@[simp] theorem sramWrite_pending (a : Nat) (bs : List Byte) : (sramWrite s a bs).pending = s.pending := rfl

/-! `setPshared` writes `part`. -/
@[simp] theorem setPshared_block (p : Nat) (v : PShared) : (setPshared s p v).block = s.block := rfl
@[simp] theorem setPshared_time (p : Nat) (v : PShared) : (setPshared s p v).time = s.time := rfl
@[simp] theorem setPshared_free (p : Nat) (v : PShared) : (setPshared s p v).free = s.free := rfl
@[simp] theorem setPshared_pins (p : Nat) (v : PShared) : (setPshared s p v).pins = s.pins := rfl
@[simp] theorem setPshared_cores (p : Nat) (v : PShared) : (setPshared s p v).cores = s.cores := rfl
@[simp] theorem setPshared_tmp (p : Nat) (v : PShared) : (setPshared s p v).tmp = s.tmp := rfl
@[simp] theorem setPshared_pwr (p : Nat) (v : PShared) : (setPshared s p v).pwr = s.pwr := rfl
@[simp] theorem setPshared_ledger (p : Nat) (v : PShared) : (setPshared s p v).ledger = s.ledger := rfl
@[simp] theorem setPshared_cpb (p : Nat) (v : PShared) : (setPshared s p v).cpb = s.cpb := rfl
@[simp] theorem setPshared_hip (p : Nat) (v : PShared) : (setPshared s p v).hip = s.hip := rfl
@[simp] theorem setPshared_epoch (p : Nat) (v : PShared) : (setPshared s p v).epoch = s.epoch := rfl
@[simp] theorem setPshared_book (p : Nat) (v : PShared) : (setPshared s p v).book = s.book := rfl
@[simp] theorem setPshared_xlat (p : Nat) (v : PShared) : (setPshared s p v).xlat = s.xlat := rfl
@[simp] theorem setPshared_xcnt (p : Nat) (v : PShared) : (setPshared s p v).xcnt = s.xcnt := rfl
@[simp] theorem setPshared_irq (p : Nat) (v : PShared) : (setPshared s p v).irq = s.irq := rfl
@[simp] theorem setPshared_qn (p : Nat) (v : PShared) : (setPshared s p v).qn = s.qn := rfl
@[simp] theorem setPshared_qos (p : Nat) (v : PShared) : (setPshared s p v).qos = s.qos := rfl
@[simp] theorem setPshared_tl (p : Nat) (v : PShared) : (setPshared s p v).tl = s.tl := rfl
@[simp] theorem setPshared_mbox (p : Nat) (v : PShared) : (setPshared s p v).mbox = s.mbox := rfl
@[simp] theorem setPshared_fuse (p : Nat) (v : PShared) : (setPshared s p v).fuse = s.fuse := rfl
@[simp] theorem setPshared_boot (p : Nat) (v : PShared) : (setPshared s p v).boot = s.boot := rfl
@[simp] theorem setPshared_sbox (p : Nat) (v : PShared) : (setPshared s p v).sbox = s.sbox := rfl
@[simp] theorem setPshared_anvil (p : Nat) (v : PShared) : (setPshared s p v).anvil = s.anvil := rfl
@[simp] theorem setPshared_hash (p : Nat) (v : PShared) : (setPshared s p v).hash = s.hash := rfl
@[simp] theorem setPshared_aes (p : Nat) (v : PShared) : (setPshared s p v).aes = s.aes := rfl
@[simp] theorem setPshared_rng (p : Nat) (v : PShared) : (setPshared s p v).rng = s.rng := rfl
@[simp] theorem setPshared_cvu (p : Nat) (v : PShared) : (setPshared s p v).cvu = s.cvu := rfl
@[simp] theorem setPshared_hmk (p : Nat) (v : PShared) : (setPshared s p v).hmk = s.hmk := rfl
@[simp] theorem setPshared_att (p : Nat) (v : PShared) : (setPshared s p v).att = s.att := rfl
@[simp] theorem setPshared_asy (p : Nat) (v : PShared) : (setPshared s p v).asy = s.asy := rfl
@[simp] theorem setPshared_sram (p : Nat) (v : PShared) : (setPshared s p v).sram = s.sram := rfl
@[simp] theorem setPshared_hdrs (p : Nat) (v : PShared) : (setPshared s p v).hdrs = s.hdrs := rfl
@[simp] theorem setPshared_regs (p : Nat) (v : PShared) : (setPshared s p v).regs = s.regs := rfl
@[simp] theorem setPshared_latch (p : Nat) (v : PShared) : (setPshared s p v).latch = s.latch := rfl
@[simp] theorem setPshared_wstage (p : Nat) (v : PShared) : (setPshared s p v).wstage = s.wstage := rfl
@[simp] theorem setPshared_rsp (p : Nat) (v : PShared) : (setPshared s p v).rsp = s.rsp := rfl
@[simp] theorem setPshared_pending (p : Nat) (v : PShared) : (setPshared s p v).pending = s.pending := rfl

/-! `setRshared` writes `part`. -/
@[simp] theorem setRshared_block (i : Nat) (v : RShared) : (setRshared s i v).block = s.block := rfl
@[simp] theorem setRshared_time (i : Nat) (v : RShared) : (setRshared s i v).time = s.time := rfl
@[simp] theorem setRshared_free (i : Nat) (v : RShared) : (setRshared s i v).free = s.free := rfl
@[simp] theorem setRshared_pins (i : Nat) (v : RShared) : (setRshared s i v).pins = s.pins := rfl
@[simp] theorem setRshared_cores (i : Nat) (v : RShared) : (setRshared s i v).cores = s.cores := rfl
@[simp] theorem setRshared_tmp (i : Nat) (v : RShared) : (setRshared s i v).tmp = s.tmp := rfl
@[simp] theorem setRshared_pwr (i : Nat) (v : RShared) : (setRshared s i v).pwr = s.pwr := rfl
@[simp] theorem setRshared_ledger (i : Nat) (v : RShared) : (setRshared s i v).ledger = s.ledger := rfl
@[simp] theorem setRshared_cpb (i : Nat) (v : RShared) : (setRshared s i v).cpb = s.cpb := rfl
@[simp] theorem setRshared_hip (i : Nat) (v : RShared) : (setRshared s i v).hip = s.hip := rfl
@[simp] theorem setRshared_epoch (i : Nat) (v : RShared) : (setRshared s i v).epoch = s.epoch := rfl
@[simp] theorem setRshared_book (i : Nat) (v : RShared) : (setRshared s i v).book = s.book := rfl
@[simp] theorem setRshared_xlat (i : Nat) (v : RShared) : (setRshared s i v).xlat = s.xlat := rfl
@[simp] theorem setRshared_xcnt (i : Nat) (v : RShared) : (setRshared s i v).xcnt = s.xcnt := rfl
@[simp] theorem setRshared_irq (i : Nat) (v : RShared) : (setRshared s i v).irq = s.irq := rfl
@[simp] theorem setRshared_qn (i : Nat) (v : RShared) : (setRshared s i v).qn = s.qn := rfl
@[simp] theorem setRshared_qos (i : Nat) (v : RShared) : (setRshared s i v).qos = s.qos := rfl
@[simp] theorem setRshared_tl (i : Nat) (v : RShared) : (setRshared s i v).tl = s.tl := rfl
@[simp] theorem setRshared_mbox (i : Nat) (v : RShared) : (setRshared s i v).mbox = s.mbox := rfl
@[simp] theorem setRshared_fuse (i : Nat) (v : RShared) : (setRshared s i v).fuse = s.fuse := rfl
@[simp] theorem setRshared_boot (i : Nat) (v : RShared) : (setRshared s i v).boot = s.boot := rfl
@[simp] theorem setRshared_sbox (i : Nat) (v : RShared) : (setRshared s i v).sbox = s.sbox := rfl
@[simp] theorem setRshared_anvil (i : Nat) (v : RShared) : (setRshared s i v).anvil = s.anvil := rfl
@[simp] theorem setRshared_hash (i : Nat) (v : RShared) : (setRshared s i v).hash = s.hash := rfl
@[simp] theorem setRshared_aes (i : Nat) (v : RShared) : (setRshared s i v).aes = s.aes := rfl
@[simp] theorem setRshared_rng (i : Nat) (v : RShared) : (setRshared s i v).rng = s.rng := rfl
@[simp] theorem setRshared_cvu (i : Nat) (v : RShared) : (setRshared s i v).cvu = s.cvu := rfl
@[simp] theorem setRshared_hmk (i : Nat) (v : RShared) : (setRshared s i v).hmk = s.hmk := rfl
@[simp] theorem setRshared_att (i : Nat) (v : RShared) : (setRshared s i v).att = s.att := rfl
@[simp] theorem setRshared_asy (i : Nat) (v : RShared) : (setRshared s i v).asy = s.asy := rfl
@[simp] theorem setRshared_sram (i : Nat) (v : RShared) : (setRshared s i v).sram = s.sram := rfl
@[simp] theorem setRshared_hdrs (i : Nat) (v : RShared) : (setRshared s i v).hdrs = s.hdrs := rfl
@[simp] theorem setRshared_regs (i : Nat) (v : RShared) : (setRshared s i v).regs = s.regs := rfl
@[simp] theorem setRshared_latch (i : Nat) (v : RShared) : (setRshared s i v).latch = s.latch := rfl
@[simp] theorem setRshared_wstage (i : Nat) (v : RShared) : (setRshared s i v).wstage = s.wstage := rfl
@[simp] theorem setRshared_rsp (i : Nat) (v : RShared) : (setRshared s i v).rsp = s.rsp := rfl
@[simp] theorem setRshared_pending (i : Nat) (v : RShared) : (setRshared s i v).pending = s.pending := rfl

/-! `pushJob` writes `part`. -/
@[simp] theorem pushJob_block (j : Job) : (pushJob s j).block = s.block := rfl
@[simp] theorem pushJob_time (j : Job) : (pushJob s j).time = s.time := rfl
@[simp] theorem pushJob_free (j : Job) : (pushJob s j).free = s.free := rfl
@[simp] theorem pushJob_pins (j : Job) : (pushJob s j).pins = s.pins := rfl
@[simp] theorem pushJob_cores (j : Job) : (pushJob s j).cores = s.cores := rfl
@[simp] theorem pushJob_tmp (j : Job) : (pushJob s j).tmp = s.tmp := rfl
@[simp] theorem pushJob_pwr (j : Job) : (pushJob s j).pwr = s.pwr := rfl
@[simp] theorem pushJob_ledger (j : Job) : (pushJob s j).ledger = s.ledger := rfl
@[simp] theorem pushJob_cpb (j : Job) : (pushJob s j).cpb = s.cpb := rfl
@[simp] theorem pushJob_hip (j : Job) : (pushJob s j).hip = s.hip := rfl
@[simp] theorem pushJob_epoch (j : Job) : (pushJob s j).epoch = s.epoch := rfl
@[simp] theorem pushJob_book (j : Job) : (pushJob s j).book = s.book := rfl
@[simp] theorem pushJob_xlat (j : Job) : (pushJob s j).xlat = s.xlat := rfl
@[simp] theorem pushJob_xcnt (j : Job) : (pushJob s j).xcnt = s.xcnt := rfl
@[simp] theorem pushJob_irq (j : Job) : (pushJob s j).irq = s.irq := rfl
@[simp] theorem pushJob_qn (j : Job) : (pushJob s j).qn = s.qn := rfl
@[simp] theorem pushJob_qos (j : Job) : (pushJob s j).qos = s.qos := rfl
@[simp] theorem pushJob_tl (j : Job) : (pushJob s j).tl = s.tl := rfl
@[simp] theorem pushJob_mbox (j : Job) : (pushJob s j).mbox = s.mbox := rfl
@[simp] theorem pushJob_fuse (j : Job) : (pushJob s j).fuse = s.fuse := rfl
@[simp] theorem pushJob_boot (j : Job) : (pushJob s j).boot = s.boot := rfl
@[simp] theorem pushJob_sbox (j : Job) : (pushJob s j).sbox = s.sbox := rfl
@[simp] theorem pushJob_anvil (j : Job) : (pushJob s j).anvil = s.anvil := rfl
@[simp] theorem pushJob_hash (j : Job) : (pushJob s j).hash = s.hash := rfl
@[simp] theorem pushJob_aes (j : Job) : (pushJob s j).aes = s.aes := rfl
@[simp] theorem pushJob_rng (j : Job) : (pushJob s j).rng = s.rng := rfl
@[simp] theorem pushJob_cvu (j : Job) : (pushJob s j).cvu = s.cvu := rfl
@[simp] theorem pushJob_hmk (j : Job) : (pushJob s j).hmk = s.hmk := rfl
@[simp] theorem pushJob_att (j : Job) : (pushJob s j).att = s.att := rfl
@[simp] theorem pushJob_asy (j : Job) : (pushJob s j).asy = s.asy := rfl
@[simp] theorem pushJob_sram (j : Job) : (pushJob s j).sram = s.sram := rfl
@[simp] theorem pushJob_hdrs (j : Job) : (pushJob s j).hdrs = s.hdrs := rfl
@[simp] theorem pushJob_regs (j : Job) : (pushJob s j).regs = s.regs := rfl
@[simp] theorem pushJob_latch (j : Job) : (pushJob s j).latch = s.latch := rfl
@[simp] theorem pushJob_wstage (j : Job) : (pushJob s j).wstage = s.wstage := rfl
@[simp] theorem pushJob_rsp (j : Job) : (pushJob s j).rsp = s.rsp := rfl
@[simp] theorem pushJob_pending (j : Job) : (pushJob s j).pending = s.pending := rfl

/-! `setSlot` writes `sbox`. -/
@[simp] theorem setSlot_block (n : Nat) (v : Slot) : (setSlot s n v).block = s.block := rfl
@[simp] theorem setSlot_time (n : Nat) (v : Slot) : (setSlot s n v).time = s.time := rfl
@[simp] theorem setSlot_free (n : Nat) (v : Slot) : (setSlot s n v).free = s.free := rfl
@[simp] theorem setSlot_pins (n : Nat) (v : Slot) : (setSlot s n v).pins = s.pins := rfl
@[simp] theorem setSlot_cores (n : Nat) (v : Slot) : (setSlot s n v).cores = s.cores := rfl
@[simp] theorem setSlot_tmp (n : Nat) (v : Slot) : (setSlot s n v).tmp = s.tmp := rfl
@[simp] theorem setSlot_pwr (n : Nat) (v : Slot) : (setSlot s n v).pwr = s.pwr := rfl
@[simp] theorem setSlot_ledger (n : Nat) (v : Slot) : (setSlot s n v).ledger = s.ledger := rfl
@[simp] theorem setSlot_cpb (n : Nat) (v : Slot) : (setSlot s n v).cpb = s.cpb := rfl
@[simp] theorem setSlot_hip (n : Nat) (v : Slot) : (setSlot s n v).hip = s.hip := rfl
@[simp] theorem setSlot_part (n : Nat) (v : Slot) : (setSlot s n v).part = s.part := rfl
@[simp] theorem setSlot_epoch (n : Nat) (v : Slot) : (setSlot s n v).epoch = s.epoch := rfl
@[simp] theorem setSlot_book (n : Nat) (v : Slot) : (setSlot s n v).book = s.book := rfl
@[simp] theorem setSlot_xlat (n : Nat) (v : Slot) : (setSlot s n v).xlat = s.xlat := rfl
@[simp] theorem setSlot_xcnt (n : Nat) (v : Slot) : (setSlot s n v).xcnt = s.xcnt := rfl
@[simp] theorem setSlot_irq (n : Nat) (v : Slot) : (setSlot s n v).irq = s.irq := rfl
@[simp] theorem setSlot_qn (n : Nat) (v : Slot) : (setSlot s n v).qn = s.qn := rfl
@[simp] theorem setSlot_qos (n : Nat) (v : Slot) : (setSlot s n v).qos = s.qos := rfl
@[simp] theorem setSlot_tl (n : Nat) (v : Slot) : (setSlot s n v).tl = s.tl := rfl
@[simp] theorem setSlot_mbox (n : Nat) (v : Slot) : (setSlot s n v).mbox = s.mbox := rfl
@[simp] theorem setSlot_fuse (n : Nat) (v : Slot) : (setSlot s n v).fuse = s.fuse := rfl
@[simp] theorem setSlot_boot (n : Nat) (v : Slot) : (setSlot s n v).boot = s.boot := rfl
@[simp] theorem setSlot_anvil (n : Nat) (v : Slot) : (setSlot s n v).anvil = s.anvil := rfl
@[simp] theorem setSlot_hash (n : Nat) (v : Slot) : (setSlot s n v).hash = s.hash := rfl
@[simp] theorem setSlot_aes (n : Nat) (v : Slot) : (setSlot s n v).aes = s.aes := rfl
@[simp] theorem setSlot_rng (n : Nat) (v : Slot) : (setSlot s n v).rng = s.rng := rfl
@[simp] theorem setSlot_cvu (n : Nat) (v : Slot) : (setSlot s n v).cvu = s.cvu := rfl
@[simp] theorem setSlot_hmk (n : Nat) (v : Slot) : (setSlot s n v).hmk = s.hmk := rfl
@[simp] theorem setSlot_att (n : Nat) (v : Slot) : (setSlot s n v).att = s.att := rfl
@[simp] theorem setSlot_asy (n : Nat) (v : Slot) : (setSlot s n v).asy = s.asy := rfl
@[simp] theorem setSlot_sram (n : Nat) (v : Slot) : (setSlot s n v).sram = s.sram := rfl
@[simp] theorem setSlot_hdrs (n : Nat) (v : Slot) : (setSlot s n v).hdrs = s.hdrs := rfl
@[simp] theorem setSlot_regs (n : Nat) (v : Slot) : (setSlot s n v).regs = s.regs := rfl
@[simp] theorem setSlot_latch (n : Nat) (v : Slot) : (setSlot s n v).latch = s.latch := rfl
@[simp] theorem setSlot_wstage (n : Nat) (v : Slot) : (setSlot s n v).wstage = s.wstage := rfl
@[simp] theorem setSlot_rsp (n : Nat) (v : Slot) : (setSlot s n v).rsp = s.rsp := rfl
@[simp] theorem setSlot_pending (n : Nat) (v : Slot) : (setSlot s n v).pending = s.pending := rfl

/-! `erasePid` writes `sbox`. -/
@[simp] theorem erasePid_block (p : Nat) : (erasePid s p).block = s.block := rfl
@[simp] theorem erasePid_time (p : Nat) : (erasePid s p).time = s.time := rfl
@[simp] theorem erasePid_free (p : Nat) : (erasePid s p).free = s.free := rfl
@[simp] theorem erasePid_pins (p : Nat) : (erasePid s p).pins = s.pins := rfl
@[simp] theorem erasePid_cores (p : Nat) : (erasePid s p).cores = s.cores := rfl
@[simp] theorem erasePid_tmp (p : Nat) : (erasePid s p).tmp = s.tmp := rfl
@[simp] theorem erasePid_pwr (p : Nat) : (erasePid s p).pwr = s.pwr := rfl
@[simp] theorem erasePid_ledger (p : Nat) : (erasePid s p).ledger = s.ledger := rfl
@[simp] theorem erasePid_cpb (p : Nat) : (erasePid s p).cpb = s.cpb := rfl
@[simp] theorem erasePid_hip (p : Nat) : (erasePid s p).hip = s.hip := rfl
@[simp] theorem erasePid_part (p : Nat) : (erasePid s p).part = s.part := rfl
@[simp] theorem erasePid_epoch (p : Nat) : (erasePid s p).epoch = s.epoch := rfl
@[simp] theorem erasePid_book (p : Nat) : (erasePid s p).book = s.book := rfl
@[simp] theorem erasePid_xlat (p : Nat) : (erasePid s p).xlat = s.xlat := rfl
@[simp] theorem erasePid_xcnt (p : Nat) : (erasePid s p).xcnt = s.xcnt := rfl
@[simp] theorem erasePid_irq (p : Nat) : (erasePid s p).irq = s.irq := rfl
@[simp] theorem erasePid_qn (p : Nat) : (erasePid s p).qn = s.qn := rfl
@[simp] theorem erasePid_qos (p : Nat) : (erasePid s p).qos = s.qos := rfl
@[simp] theorem erasePid_tl (p : Nat) : (erasePid s p).tl = s.tl := rfl
@[simp] theorem erasePid_mbox (p : Nat) : (erasePid s p).mbox = s.mbox := rfl
@[simp] theorem erasePid_fuse (p : Nat) : (erasePid s p).fuse = s.fuse := rfl
@[simp] theorem erasePid_boot (p : Nat) : (erasePid s p).boot = s.boot := rfl
@[simp] theorem erasePid_anvil (p : Nat) : (erasePid s p).anvil = s.anvil := rfl
@[simp] theorem erasePid_hash (p : Nat) : (erasePid s p).hash = s.hash := rfl
@[simp] theorem erasePid_aes (p : Nat) : (erasePid s p).aes = s.aes := rfl
@[simp] theorem erasePid_rng (p : Nat) : (erasePid s p).rng = s.rng := rfl
@[simp] theorem erasePid_cvu (p : Nat) : (erasePid s p).cvu = s.cvu := rfl
@[simp] theorem erasePid_hmk (p : Nat) : (erasePid s p).hmk = s.hmk := rfl
@[simp] theorem erasePid_att (p : Nat) : (erasePid s p).att = s.att := rfl
@[simp] theorem erasePid_asy (p : Nat) : (erasePid s p).asy = s.asy := rfl
@[simp] theorem erasePid_sram (p : Nat) : (erasePid s p).sram = s.sram := rfl
@[simp] theorem erasePid_hdrs (p : Nat) : (erasePid s p).hdrs = s.hdrs := rfl
@[simp] theorem erasePid_regs (p : Nat) : (erasePid s p).regs = s.regs := rfl
@[simp] theorem erasePid_latch (p : Nat) : (erasePid s p).latch = s.latch := rfl
@[simp] theorem erasePid_wstage (p : Nat) : (erasePid s p).wstage = s.wstage := rfl
@[simp] theorem erasePid_rsp (p : Nat) : (erasePid s p).rsp = s.rsp := rfl
@[simp] theorem erasePid_pending (p : Nat) : (erasePid s p).pending = s.pending := rfl

/-! `setSession` writes `att`. -/
@[simp] theorem setSession_block (c : Nat) (v : Option Session) : (setSession s c v).block = s.block := rfl
@[simp] theorem setSession_time (c : Nat) (v : Option Session) : (setSession s c v).time = s.time := rfl
@[simp] theorem setSession_free (c : Nat) (v : Option Session) : (setSession s c v).free = s.free := rfl
@[simp] theorem setSession_pins (c : Nat) (v : Option Session) : (setSession s c v).pins = s.pins := rfl
@[simp] theorem setSession_cores (c : Nat) (v : Option Session) : (setSession s c v).cores = s.cores := rfl
@[simp] theorem setSession_tmp (c : Nat) (v : Option Session) : (setSession s c v).tmp = s.tmp := rfl
@[simp] theorem setSession_pwr (c : Nat) (v : Option Session) : (setSession s c v).pwr = s.pwr := rfl
@[simp] theorem setSession_ledger (c : Nat) (v : Option Session) : (setSession s c v).ledger = s.ledger := rfl
@[simp] theorem setSession_cpb (c : Nat) (v : Option Session) : (setSession s c v).cpb = s.cpb := rfl
@[simp] theorem setSession_hip (c : Nat) (v : Option Session) : (setSession s c v).hip = s.hip := rfl
@[simp] theorem setSession_part (c : Nat) (v : Option Session) : (setSession s c v).part = s.part := rfl
@[simp] theorem setSession_epoch (c : Nat) (v : Option Session) : (setSession s c v).epoch = s.epoch := rfl
@[simp] theorem setSession_book (c : Nat) (v : Option Session) : (setSession s c v).book = s.book := rfl
@[simp] theorem setSession_xlat (c : Nat) (v : Option Session) : (setSession s c v).xlat = s.xlat := rfl
@[simp] theorem setSession_xcnt (c : Nat) (v : Option Session) : (setSession s c v).xcnt = s.xcnt := rfl
@[simp] theorem setSession_irq (c : Nat) (v : Option Session) : (setSession s c v).irq = s.irq := rfl
@[simp] theorem setSession_qn (c : Nat) (v : Option Session) : (setSession s c v).qn = s.qn := rfl
@[simp] theorem setSession_qos (c : Nat) (v : Option Session) : (setSession s c v).qos = s.qos := rfl
@[simp] theorem setSession_tl (c : Nat) (v : Option Session) : (setSession s c v).tl = s.tl := rfl
@[simp] theorem setSession_mbox (c : Nat) (v : Option Session) : (setSession s c v).mbox = s.mbox := rfl
@[simp] theorem setSession_fuse (c : Nat) (v : Option Session) : (setSession s c v).fuse = s.fuse := rfl
@[simp] theorem setSession_boot (c : Nat) (v : Option Session) : (setSession s c v).boot = s.boot := rfl
@[simp] theorem setSession_sbox (c : Nat) (v : Option Session) : (setSession s c v).sbox = s.sbox := rfl
@[simp] theorem setSession_anvil (c : Nat) (v : Option Session) : (setSession s c v).anvil = s.anvil := rfl
@[simp] theorem setSession_hash (c : Nat) (v : Option Session) : (setSession s c v).hash = s.hash := rfl
@[simp] theorem setSession_aes (c : Nat) (v : Option Session) : (setSession s c v).aes = s.aes := rfl
@[simp] theorem setSession_rng (c : Nat) (v : Option Session) : (setSession s c v).rng = s.rng := rfl
@[simp] theorem setSession_cvu (c : Nat) (v : Option Session) : (setSession s c v).cvu = s.cvu := rfl
@[simp] theorem setSession_hmk (c : Nat) (v : Option Session) : (setSession s c v).hmk = s.hmk := rfl
@[simp] theorem setSession_asy (c : Nat) (v : Option Session) : (setSession s c v).asy = s.asy := rfl
@[simp] theorem setSession_sram (c : Nat) (v : Option Session) : (setSession s c v).sram = s.sram := rfl
@[simp] theorem setSession_hdrs (c : Nat) (v : Option Session) : (setSession s c v).hdrs = s.hdrs := rfl
@[simp] theorem setSession_regs (c : Nat) (v : Option Session) : (setSession s c v).regs = s.regs := rfl
@[simp] theorem setSession_latch (c : Nat) (v : Option Session) : (setSession s c v).latch = s.latch := rfl
@[simp] theorem setSession_wstage (c : Nat) (v : Option Session) : (setSession s c v).wstage = s.wstage := rfl
@[simp] theorem setSession_rsp (c : Nat) (v : Option Session) : (setSession s c v).rsp = s.rsp := rfl
@[simp] theorem setSession_pending (c : Nat) (v : Option Session) : (setSession s c v).pending = s.pending := rfl

/-! `setWeight` writes `att`. -/
@[simp] theorem setWeight_block (p o : Nat) (v : Option WObj) : (setWeight s p o v).block = s.block := rfl
@[simp] theorem setWeight_time (p o : Nat) (v : Option WObj) : (setWeight s p o v).time = s.time := rfl
@[simp] theorem setWeight_free (p o : Nat) (v : Option WObj) : (setWeight s p o v).free = s.free := rfl
@[simp] theorem setWeight_pins (p o : Nat) (v : Option WObj) : (setWeight s p o v).pins = s.pins := rfl
@[simp] theorem setWeight_cores (p o : Nat) (v : Option WObj) : (setWeight s p o v).cores = s.cores := rfl
@[simp] theorem setWeight_tmp (p o : Nat) (v : Option WObj) : (setWeight s p o v).tmp = s.tmp := rfl
@[simp] theorem setWeight_pwr (p o : Nat) (v : Option WObj) : (setWeight s p o v).pwr = s.pwr := rfl
@[simp] theorem setWeight_ledger (p o : Nat) (v : Option WObj) : (setWeight s p o v).ledger = s.ledger := rfl
@[simp] theorem setWeight_cpb (p o : Nat) (v : Option WObj) : (setWeight s p o v).cpb = s.cpb := rfl
@[simp] theorem setWeight_hip (p o : Nat) (v : Option WObj) : (setWeight s p o v).hip = s.hip := rfl
@[simp] theorem setWeight_part (p o : Nat) (v : Option WObj) : (setWeight s p o v).part = s.part := rfl
@[simp] theorem setWeight_epoch (p o : Nat) (v : Option WObj) : (setWeight s p o v).epoch = s.epoch := rfl
@[simp] theorem setWeight_book (p o : Nat) (v : Option WObj) : (setWeight s p o v).book = s.book := rfl
@[simp] theorem setWeight_xlat (p o : Nat) (v : Option WObj) : (setWeight s p o v).xlat = s.xlat := rfl
@[simp] theorem setWeight_xcnt (p o : Nat) (v : Option WObj) : (setWeight s p o v).xcnt = s.xcnt := rfl
@[simp] theorem setWeight_irq (p o : Nat) (v : Option WObj) : (setWeight s p o v).irq = s.irq := rfl
@[simp] theorem setWeight_qn (p o : Nat) (v : Option WObj) : (setWeight s p o v).qn = s.qn := rfl
@[simp] theorem setWeight_qos (p o : Nat) (v : Option WObj) : (setWeight s p o v).qos = s.qos := rfl
@[simp] theorem setWeight_tl (p o : Nat) (v : Option WObj) : (setWeight s p o v).tl = s.tl := rfl
@[simp] theorem setWeight_mbox (p o : Nat) (v : Option WObj) : (setWeight s p o v).mbox = s.mbox := rfl
@[simp] theorem setWeight_fuse (p o : Nat) (v : Option WObj) : (setWeight s p o v).fuse = s.fuse := rfl
@[simp] theorem setWeight_boot (p o : Nat) (v : Option WObj) : (setWeight s p o v).boot = s.boot := rfl
@[simp] theorem setWeight_sbox (p o : Nat) (v : Option WObj) : (setWeight s p o v).sbox = s.sbox := rfl
@[simp] theorem setWeight_anvil (p o : Nat) (v : Option WObj) : (setWeight s p o v).anvil = s.anvil := rfl
@[simp] theorem setWeight_hash (p o : Nat) (v : Option WObj) : (setWeight s p o v).hash = s.hash := rfl
@[simp] theorem setWeight_aes (p o : Nat) (v : Option WObj) : (setWeight s p o v).aes = s.aes := rfl
@[simp] theorem setWeight_rng (p o : Nat) (v : Option WObj) : (setWeight s p o v).rng = s.rng := rfl
@[simp] theorem setWeight_cvu (p o : Nat) (v : Option WObj) : (setWeight s p o v).cvu = s.cvu := rfl
@[simp] theorem setWeight_hmk (p o : Nat) (v : Option WObj) : (setWeight s p o v).hmk = s.hmk := rfl
@[simp] theorem setWeight_asy (p o : Nat) (v : Option WObj) : (setWeight s p o v).asy = s.asy := rfl
@[simp] theorem setWeight_sram (p o : Nat) (v : Option WObj) : (setWeight s p o v).sram = s.sram := rfl
@[simp] theorem setWeight_hdrs (p o : Nat) (v : Option WObj) : (setWeight s p o v).hdrs = s.hdrs := rfl
@[simp] theorem setWeight_regs (p o : Nat) (v : Option WObj) : (setWeight s p o v).regs = s.regs := rfl
@[simp] theorem setWeight_latch (p o : Nat) (v : Option WObj) : (setWeight s p o v).latch = s.latch := rfl
@[simp] theorem setWeight_wstage (p o : Nat) (v : Option WObj) : (setWeight s p o v).wstage = s.wstage := rfl
@[simp] theorem setWeight_rsp (p o : Nat) (v : Option WObj) : (setWeight s p o v).rsp = s.rsp := rfl
@[simp] theorem setWeight_pending (p o : Nat) (v : Option WObj) : (setWeight s p o v).pending = s.pending := rfl

/-! `setTdisp` writes `att`. -/
@[simp] theorem setTdisp_block (f v : Nat) : (setTdisp s f v).block = s.block := rfl
@[simp] theorem setTdisp_time (f v : Nat) : (setTdisp s f v).time = s.time := rfl
@[simp] theorem setTdisp_free (f v : Nat) : (setTdisp s f v).free = s.free := rfl
@[simp] theorem setTdisp_pins (f v : Nat) : (setTdisp s f v).pins = s.pins := rfl
@[simp] theorem setTdisp_cores (f v : Nat) : (setTdisp s f v).cores = s.cores := rfl
@[simp] theorem setTdisp_tmp (f v : Nat) : (setTdisp s f v).tmp = s.tmp := rfl
@[simp] theorem setTdisp_pwr (f v : Nat) : (setTdisp s f v).pwr = s.pwr := rfl
@[simp] theorem setTdisp_ledger (f v : Nat) : (setTdisp s f v).ledger = s.ledger := rfl
@[simp] theorem setTdisp_cpb (f v : Nat) : (setTdisp s f v).cpb = s.cpb := rfl
@[simp] theorem setTdisp_hip (f v : Nat) : (setTdisp s f v).hip = s.hip := rfl
@[simp] theorem setTdisp_part (f v : Nat) : (setTdisp s f v).part = s.part := rfl
@[simp] theorem setTdisp_epoch (f v : Nat) : (setTdisp s f v).epoch = s.epoch := rfl
@[simp] theorem setTdisp_book (f v : Nat) : (setTdisp s f v).book = s.book := rfl
@[simp] theorem setTdisp_xlat (f v : Nat) : (setTdisp s f v).xlat = s.xlat := rfl
@[simp] theorem setTdisp_xcnt (f v : Nat) : (setTdisp s f v).xcnt = s.xcnt := rfl
@[simp] theorem setTdisp_irq (f v : Nat) : (setTdisp s f v).irq = s.irq := rfl
@[simp] theorem setTdisp_qn (f v : Nat) : (setTdisp s f v).qn = s.qn := rfl
@[simp] theorem setTdisp_qos (f v : Nat) : (setTdisp s f v).qos = s.qos := rfl
@[simp] theorem setTdisp_tl (f v : Nat) : (setTdisp s f v).tl = s.tl := rfl
@[simp] theorem setTdisp_mbox (f v : Nat) : (setTdisp s f v).mbox = s.mbox := rfl
@[simp] theorem setTdisp_fuse (f v : Nat) : (setTdisp s f v).fuse = s.fuse := rfl
@[simp] theorem setTdisp_boot (f v : Nat) : (setTdisp s f v).boot = s.boot := rfl
@[simp] theorem setTdisp_sbox (f v : Nat) : (setTdisp s f v).sbox = s.sbox := rfl
@[simp] theorem setTdisp_anvil (f v : Nat) : (setTdisp s f v).anvil = s.anvil := rfl
@[simp] theorem setTdisp_hash (f v : Nat) : (setTdisp s f v).hash = s.hash := rfl
@[simp] theorem setTdisp_aes (f v : Nat) : (setTdisp s f v).aes = s.aes := rfl
@[simp] theorem setTdisp_rng (f v : Nat) : (setTdisp s f v).rng = s.rng := rfl
@[simp] theorem setTdisp_cvu (f v : Nat) : (setTdisp s f v).cvu = s.cvu := rfl
@[simp] theorem setTdisp_hmk (f v : Nat) : (setTdisp s f v).hmk = s.hmk := rfl
@[simp] theorem setTdisp_asy (f v : Nat) : (setTdisp s f v).asy = s.asy := rfl
@[simp] theorem setTdisp_sram (f v : Nat) : (setTdisp s f v).sram = s.sram := rfl
@[simp] theorem setTdisp_hdrs (f v : Nat) : (setTdisp s f v).hdrs = s.hdrs := rfl
@[simp] theorem setTdisp_regs (f v : Nat) : (setTdisp s f v).regs = s.regs := rfl
@[simp] theorem setTdisp_latch (f v : Nat) : (setTdisp s f v).latch = s.latch := rfl
@[simp] theorem setTdisp_wstage (f v : Nat) : (setTdisp s f v).wstage = s.wstage := rfl
@[simp] theorem setTdisp_rsp (f v : Nat) : (setTdisp s f v).rsp = s.rsp := rfl
@[simp] theorem setTdisp_pending (f v : Nat) : (setTdisp s f v).pending = s.pending := rfl

/-! `discardPreps` writes `att`. -/
@[simp] theorem discardPreps_block (p : Nat) : (discardPreps s p).block = s.block := rfl
@[simp] theorem discardPreps_time (p : Nat) : (discardPreps s p).time = s.time := rfl
@[simp] theorem discardPreps_free (p : Nat) : (discardPreps s p).free = s.free := rfl
@[simp] theorem discardPreps_pins (p : Nat) : (discardPreps s p).pins = s.pins := rfl
@[simp] theorem discardPreps_cores (p : Nat) : (discardPreps s p).cores = s.cores := rfl
@[simp] theorem discardPreps_tmp (p : Nat) : (discardPreps s p).tmp = s.tmp := rfl
@[simp] theorem discardPreps_pwr (p : Nat) : (discardPreps s p).pwr = s.pwr := rfl
@[simp] theorem discardPreps_ledger (p : Nat) : (discardPreps s p).ledger = s.ledger := rfl
@[simp] theorem discardPreps_cpb (p : Nat) : (discardPreps s p).cpb = s.cpb := rfl
@[simp] theorem discardPreps_hip (p : Nat) : (discardPreps s p).hip = s.hip := rfl
@[simp] theorem discardPreps_part (p : Nat) : (discardPreps s p).part = s.part := rfl
@[simp] theorem discardPreps_epoch (p : Nat) : (discardPreps s p).epoch = s.epoch := rfl
@[simp] theorem discardPreps_book (p : Nat) : (discardPreps s p).book = s.book := rfl
@[simp] theorem discardPreps_xlat (p : Nat) : (discardPreps s p).xlat = s.xlat := rfl
@[simp] theorem discardPreps_xcnt (p : Nat) : (discardPreps s p).xcnt = s.xcnt := rfl
@[simp] theorem discardPreps_irq (p : Nat) : (discardPreps s p).irq = s.irq := rfl
@[simp] theorem discardPreps_qn (p : Nat) : (discardPreps s p).qn = s.qn := rfl
@[simp] theorem discardPreps_qos (p : Nat) : (discardPreps s p).qos = s.qos := rfl
@[simp] theorem discardPreps_tl (p : Nat) : (discardPreps s p).tl = s.tl := rfl
@[simp] theorem discardPreps_mbox (p : Nat) : (discardPreps s p).mbox = s.mbox := rfl
@[simp] theorem discardPreps_fuse (p : Nat) : (discardPreps s p).fuse = s.fuse := rfl
@[simp] theorem discardPreps_boot (p : Nat) : (discardPreps s p).boot = s.boot := rfl
@[simp] theorem discardPreps_sbox (p : Nat) : (discardPreps s p).sbox = s.sbox := rfl
@[simp] theorem discardPreps_anvil (p : Nat) : (discardPreps s p).anvil = s.anvil := rfl
@[simp] theorem discardPreps_hash (p : Nat) : (discardPreps s p).hash = s.hash := rfl
@[simp] theorem discardPreps_aes (p : Nat) : (discardPreps s p).aes = s.aes := rfl
@[simp] theorem discardPreps_rng (p : Nat) : (discardPreps s p).rng = s.rng := rfl
@[simp] theorem discardPreps_cvu (p : Nat) : (discardPreps s p).cvu = s.cvu := rfl
@[simp] theorem discardPreps_hmk (p : Nat) : (discardPreps s p).hmk = s.hmk := rfl
@[simp] theorem discardPreps_asy (p : Nat) : (discardPreps s p).asy = s.asy := rfl
@[simp] theorem discardPreps_sram (p : Nat) : (discardPreps s p).sram = s.sram := rfl
@[simp] theorem discardPreps_hdrs (p : Nat) : (discardPreps s p).hdrs = s.hdrs := rfl
@[simp] theorem discardPreps_regs (p : Nat) : (discardPreps s p).regs = s.regs := rfl
@[simp] theorem discardPreps_latch (p : Nat) : (discardPreps s p).latch = s.latch := rfl
@[simp] theorem discardPreps_wstage (p : Nat) : (discardPreps s p).wstage = s.wstage := rfl
@[simp] theorem discardPreps_rsp (p : Nat) : (discardPreps s p).rsp = s.rsp := rfl
@[simp] theorem discardPreps_pending (p : Nat) : (discardPreps s p).pending = s.pending := rfl

/-! `setXlat` writes `xlat`. -/
@[simp] theorem setXlat_block (p : Nat) (x : Xlat) : (setXlat s p x).block = s.block := rfl
@[simp] theorem setXlat_time (p : Nat) (x : Xlat) : (setXlat s p x).time = s.time := rfl
@[simp] theorem setXlat_free (p : Nat) (x : Xlat) : (setXlat s p x).free = s.free := rfl
@[simp] theorem setXlat_pins (p : Nat) (x : Xlat) : (setXlat s p x).pins = s.pins := rfl
@[simp] theorem setXlat_cores (p : Nat) (x : Xlat) : (setXlat s p x).cores = s.cores := rfl
@[simp] theorem setXlat_tmp (p : Nat) (x : Xlat) : (setXlat s p x).tmp = s.tmp := rfl
@[simp] theorem setXlat_pwr (p : Nat) (x : Xlat) : (setXlat s p x).pwr = s.pwr := rfl
@[simp] theorem setXlat_ledger (p : Nat) (x : Xlat) : (setXlat s p x).ledger = s.ledger := rfl
@[simp] theorem setXlat_cpb (p : Nat) (x : Xlat) : (setXlat s p x).cpb = s.cpb := rfl
@[simp] theorem setXlat_hip (p : Nat) (x : Xlat) : (setXlat s p x).hip = s.hip := rfl
@[simp] theorem setXlat_part (p : Nat) (x : Xlat) : (setXlat s p x).part = s.part := rfl
@[simp] theorem setXlat_epoch (p : Nat) (x : Xlat) : (setXlat s p x).epoch = s.epoch := rfl
@[simp] theorem setXlat_book (p : Nat) (x : Xlat) : (setXlat s p x).book = s.book := rfl
@[simp] theorem setXlat_xcnt (p : Nat) (x : Xlat) : (setXlat s p x).xcnt = s.xcnt := rfl
@[simp] theorem setXlat_irq (p : Nat) (x : Xlat) : (setXlat s p x).irq = s.irq := rfl
@[simp] theorem setXlat_qn (p : Nat) (x : Xlat) : (setXlat s p x).qn = s.qn := rfl
@[simp] theorem setXlat_qos (p : Nat) (x : Xlat) : (setXlat s p x).qos = s.qos := rfl
@[simp] theorem setXlat_tl (p : Nat) (x : Xlat) : (setXlat s p x).tl = s.tl := rfl
@[simp] theorem setXlat_mbox (p : Nat) (x : Xlat) : (setXlat s p x).mbox = s.mbox := rfl
@[simp] theorem setXlat_fuse (p : Nat) (x : Xlat) : (setXlat s p x).fuse = s.fuse := rfl
@[simp] theorem setXlat_boot (p : Nat) (x : Xlat) : (setXlat s p x).boot = s.boot := rfl
@[simp] theorem setXlat_sbox (p : Nat) (x : Xlat) : (setXlat s p x).sbox = s.sbox := rfl
@[simp] theorem setXlat_anvil (p : Nat) (x : Xlat) : (setXlat s p x).anvil = s.anvil := rfl
@[simp] theorem setXlat_hash (p : Nat) (x : Xlat) : (setXlat s p x).hash = s.hash := rfl
@[simp] theorem setXlat_aes (p : Nat) (x : Xlat) : (setXlat s p x).aes = s.aes := rfl
@[simp] theorem setXlat_rng (p : Nat) (x : Xlat) : (setXlat s p x).rng = s.rng := rfl
@[simp] theorem setXlat_cvu (p : Nat) (x : Xlat) : (setXlat s p x).cvu = s.cvu := rfl
@[simp] theorem setXlat_hmk (p : Nat) (x : Xlat) : (setXlat s p x).hmk = s.hmk := rfl
@[simp] theorem setXlat_att (p : Nat) (x : Xlat) : (setXlat s p x).att = s.att := rfl
@[simp] theorem setXlat_asy (p : Nat) (x : Xlat) : (setXlat s p x).asy = s.asy := rfl
@[simp] theorem setXlat_sram (p : Nat) (x : Xlat) : (setXlat s p x).sram = s.sram := rfl
@[simp] theorem setXlat_hdrs (p : Nat) (x : Xlat) : (setXlat s p x).hdrs = s.hdrs := rfl
@[simp] theorem setXlat_regs (p : Nat) (x : Xlat) : (setXlat s p x).regs = s.regs := rfl
@[simp] theorem setXlat_latch (p : Nat) (x : Xlat) : (setXlat s p x).latch = s.latch := rfl
@[simp] theorem setXlat_wstage (p : Nat) (x : Xlat) : (setXlat s p x).wstage = s.wstage := rfl
@[simp] theorem setXlat_rsp (p : Nat) (x : Xlat) : (setXlat s p x).rsp = s.rsp := rfl
@[simp] theorem setXlat_pending (p : Nat) (x : Xlat) : (setXlat s p x).pending = s.pending := rfl

/-! `setPend` writes `irq`. -/
@[simp] theorem setPend_block (p v : Nat) (x : Option Pend) : (setPend s p v x).block = s.block := rfl
@[simp] theorem setPend_time (p v : Nat) (x : Option Pend) : (setPend s p v x).time = s.time := rfl
@[simp] theorem setPend_free (p v : Nat) (x : Option Pend) : (setPend s p v x).free = s.free := rfl
@[simp] theorem setPend_pins (p v : Nat) (x : Option Pend) : (setPend s p v x).pins = s.pins := rfl
@[simp] theorem setPend_cores (p v : Nat) (x : Option Pend) : (setPend s p v x).cores = s.cores := rfl
@[simp] theorem setPend_tmp (p v : Nat) (x : Option Pend) : (setPend s p v x).tmp = s.tmp := rfl
@[simp] theorem setPend_pwr (p v : Nat) (x : Option Pend) : (setPend s p v x).pwr = s.pwr := rfl
@[simp] theorem setPend_ledger (p v : Nat) (x : Option Pend) : (setPend s p v x).ledger = s.ledger := rfl
@[simp] theorem setPend_cpb (p v : Nat) (x : Option Pend) : (setPend s p v x).cpb = s.cpb := rfl
@[simp] theorem setPend_hip (p v : Nat) (x : Option Pend) : (setPend s p v x).hip = s.hip := rfl
@[simp] theorem setPend_part (p v : Nat) (x : Option Pend) : (setPend s p v x).part = s.part := rfl
@[simp] theorem setPend_epoch (p v : Nat) (x : Option Pend) : (setPend s p v x).epoch = s.epoch := rfl
@[simp] theorem setPend_book (p v : Nat) (x : Option Pend) : (setPend s p v x).book = s.book := rfl
@[simp] theorem setPend_xlat (p v : Nat) (x : Option Pend) : (setPend s p v x).xlat = s.xlat := rfl
@[simp] theorem setPend_xcnt (p v : Nat) (x : Option Pend) : (setPend s p v x).xcnt = s.xcnt := rfl
@[simp] theorem setPend_qn (p v : Nat) (x : Option Pend) : (setPend s p v x).qn = s.qn := rfl
@[simp] theorem setPend_qos (p v : Nat) (x : Option Pend) : (setPend s p v x).qos = s.qos := rfl
@[simp] theorem setPend_tl (p v : Nat) (x : Option Pend) : (setPend s p v x).tl = s.tl := rfl
@[simp] theorem setPend_mbox (p v : Nat) (x : Option Pend) : (setPend s p v x).mbox = s.mbox := rfl
@[simp] theorem setPend_fuse (p v : Nat) (x : Option Pend) : (setPend s p v x).fuse = s.fuse := rfl
@[simp] theorem setPend_boot (p v : Nat) (x : Option Pend) : (setPend s p v x).boot = s.boot := rfl
@[simp] theorem setPend_sbox (p v : Nat) (x : Option Pend) : (setPend s p v x).sbox = s.sbox := rfl
@[simp] theorem setPend_anvil (p v : Nat) (x : Option Pend) : (setPend s p v x).anvil = s.anvil := rfl
@[simp] theorem setPend_hash (p v : Nat) (x : Option Pend) : (setPend s p v x).hash = s.hash := rfl
@[simp] theorem setPend_aes (p v : Nat) (x : Option Pend) : (setPend s p v x).aes = s.aes := rfl
@[simp] theorem setPend_rng (p v : Nat) (x : Option Pend) : (setPend s p v x).rng = s.rng := rfl
@[simp] theorem setPend_cvu (p v : Nat) (x : Option Pend) : (setPend s p v x).cvu = s.cvu := rfl
@[simp] theorem setPend_hmk (p v : Nat) (x : Option Pend) : (setPend s p v x).hmk = s.hmk := rfl
@[simp] theorem setPend_att (p v : Nat) (x : Option Pend) : (setPend s p v x).att = s.att := rfl
@[simp] theorem setPend_asy (p v : Nat) (x : Option Pend) : (setPend s p v x).asy = s.asy := rfl
@[simp] theorem setPend_sram (p v : Nat) (x : Option Pend) : (setPend s p v x).sram = s.sram := rfl
@[simp] theorem setPend_hdrs (p v : Nat) (x : Option Pend) : (setPend s p v x).hdrs = s.hdrs := rfl
@[simp] theorem setPend_regs (p v : Nat) (x : Option Pend) : (setPend s p v x).regs = s.regs := rfl
@[simp] theorem setPend_latch (p v : Nat) (x : Option Pend) : (setPend s p v x).latch = s.latch := rfl
@[simp] theorem setPend_wstage (p v : Nat) (x : Option Pend) : (setPend s p v x).wstage = s.wstage := rfl
@[simp] theorem setPend_rsp (p v : Nat) (x : Option Pend) : (setPend s p v x).rsp = s.rsp := rfl
@[simp] theorem setPend_pending (p v : Nat) (x : Option Pend) : (setPend s p v x).pending = s.pending := rfl

/-! `setBucket` writes `qos`. -/
@[simp] theorem setBucket_block (p : Nat) (b : Bucket) : (setBucket s p b).block = s.block := rfl
@[simp] theorem setBucket_time (p : Nat) (b : Bucket) : (setBucket s p b).time = s.time := rfl
@[simp] theorem setBucket_free (p : Nat) (b : Bucket) : (setBucket s p b).free = s.free := rfl
@[simp] theorem setBucket_pins (p : Nat) (b : Bucket) : (setBucket s p b).pins = s.pins := rfl
@[simp] theorem setBucket_cores (p : Nat) (b : Bucket) : (setBucket s p b).cores = s.cores := rfl
@[simp] theorem setBucket_tmp (p : Nat) (b : Bucket) : (setBucket s p b).tmp = s.tmp := rfl
@[simp] theorem setBucket_pwr (p : Nat) (b : Bucket) : (setBucket s p b).pwr = s.pwr := rfl
@[simp] theorem setBucket_ledger (p : Nat) (b : Bucket) : (setBucket s p b).ledger = s.ledger := rfl
@[simp] theorem setBucket_cpb (p : Nat) (b : Bucket) : (setBucket s p b).cpb = s.cpb := rfl
@[simp] theorem setBucket_hip (p : Nat) (b : Bucket) : (setBucket s p b).hip = s.hip := rfl
@[simp] theorem setBucket_part (p : Nat) (b : Bucket) : (setBucket s p b).part = s.part := rfl
@[simp] theorem setBucket_epoch (p : Nat) (b : Bucket) : (setBucket s p b).epoch = s.epoch := rfl
@[simp] theorem setBucket_book (p : Nat) (b : Bucket) : (setBucket s p b).book = s.book := rfl
@[simp] theorem setBucket_xlat (p : Nat) (b : Bucket) : (setBucket s p b).xlat = s.xlat := rfl
@[simp] theorem setBucket_xcnt (p : Nat) (b : Bucket) : (setBucket s p b).xcnt = s.xcnt := rfl
@[simp] theorem setBucket_irq (p : Nat) (b : Bucket) : (setBucket s p b).irq = s.irq := rfl
@[simp] theorem setBucket_qn (p : Nat) (b : Bucket) : (setBucket s p b).qn = s.qn := rfl
@[simp] theorem setBucket_tl (p : Nat) (b : Bucket) : (setBucket s p b).tl = s.tl := rfl
@[simp] theorem setBucket_mbox (p : Nat) (b : Bucket) : (setBucket s p b).mbox = s.mbox := rfl
@[simp] theorem setBucket_fuse (p : Nat) (b : Bucket) : (setBucket s p b).fuse = s.fuse := rfl
@[simp] theorem setBucket_boot (p : Nat) (b : Bucket) : (setBucket s p b).boot = s.boot := rfl
@[simp] theorem setBucket_sbox (p : Nat) (b : Bucket) : (setBucket s p b).sbox = s.sbox := rfl
@[simp] theorem setBucket_anvil (p : Nat) (b : Bucket) : (setBucket s p b).anvil = s.anvil := rfl
@[simp] theorem setBucket_hash (p : Nat) (b : Bucket) : (setBucket s p b).hash = s.hash := rfl
@[simp] theorem setBucket_aes (p : Nat) (b : Bucket) : (setBucket s p b).aes = s.aes := rfl
@[simp] theorem setBucket_rng (p : Nat) (b : Bucket) : (setBucket s p b).rng = s.rng := rfl
@[simp] theorem setBucket_cvu (p : Nat) (b : Bucket) : (setBucket s p b).cvu = s.cvu := rfl
@[simp] theorem setBucket_hmk (p : Nat) (b : Bucket) : (setBucket s p b).hmk = s.hmk := rfl
@[simp] theorem setBucket_att (p : Nat) (b : Bucket) : (setBucket s p b).att = s.att := rfl
@[simp] theorem setBucket_asy (p : Nat) (b : Bucket) : (setBucket s p b).asy = s.asy := rfl
@[simp] theorem setBucket_sram (p : Nat) (b : Bucket) : (setBucket s p b).sram = s.sram := rfl
@[simp] theorem setBucket_hdrs (p : Nat) (b : Bucket) : (setBucket s p b).hdrs = s.hdrs := rfl
@[simp] theorem setBucket_regs (p : Nat) (b : Bucket) : (setBucket s p b).regs = s.regs := rfl
@[simp] theorem setBucket_latch (p : Nat) (b : Bucket) : (setBucket s p b).latch = s.latch := rfl
@[simp] theorem setBucket_wstage (p : Nat) (b : Bucket) : (setBucket s p b).wstage = s.wstage := rfl
@[simp] theorem setBucket_rsp (p : Nat) (b : Bucket) : (setBucket s p b).rsp = s.rsp := rfl
@[simp] theorem setBucket_pending (p : Nat) (b : Bucket) : (setBucket s p b).pending = s.pending := rfl

/-! `setValue` writes `tl`. -/
@[simp] theorem setValue_block (t : Nat) (v : DWord) : (setValue s t v).block = s.block := rfl
@[simp] theorem setValue_time (t : Nat) (v : DWord) : (setValue s t v).time = s.time := rfl
@[simp] theorem setValue_free (t : Nat) (v : DWord) : (setValue s t v).free = s.free := rfl
@[simp] theorem setValue_pins (t : Nat) (v : DWord) : (setValue s t v).pins = s.pins := rfl
@[simp] theorem setValue_cores (t : Nat) (v : DWord) : (setValue s t v).cores = s.cores := rfl
@[simp] theorem setValue_tmp (t : Nat) (v : DWord) : (setValue s t v).tmp = s.tmp := rfl
@[simp] theorem setValue_pwr (t : Nat) (v : DWord) : (setValue s t v).pwr = s.pwr := rfl
@[simp] theorem setValue_ledger (t : Nat) (v : DWord) : (setValue s t v).ledger = s.ledger := rfl
@[simp] theorem setValue_cpb (t : Nat) (v : DWord) : (setValue s t v).cpb = s.cpb := rfl
@[simp] theorem setValue_hip (t : Nat) (v : DWord) : (setValue s t v).hip = s.hip := rfl
@[simp] theorem setValue_part (t : Nat) (v : DWord) : (setValue s t v).part = s.part := rfl
@[simp] theorem setValue_epoch (t : Nat) (v : DWord) : (setValue s t v).epoch = s.epoch := rfl
@[simp] theorem setValue_book (t : Nat) (v : DWord) : (setValue s t v).book = s.book := rfl
@[simp] theorem setValue_xlat (t : Nat) (v : DWord) : (setValue s t v).xlat = s.xlat := rfl
@[simp] theorem setValue_xcnt (t : Nat) (v : DWord) : (setValue s t v).xcnt = s.xcnt := rfl
@[simp] theorem setValue_irq (t : Nat) (v : DWord) : (setValue s t v).irq = s.irq := rfl
@[simp] theorem setValue_qn (t : Nat) (v : DWord) : (setValue s t v).qn = s.qn := rfl
@[simp] theorem setValue_qos (t : Nat) (v : DWord) : (setValue s t v).qos = s.qos := rfl
@[simp] theorem setValue_mbox (t : Nat) (v : DWord) : (setValue s t v).mbox = s.mbox := rfl
@[simp] theorem setValue_fuse (t : Nat) (v : DWord) : (setValue s t v).fuse = s.fuse := rfl
@[simp] theorem setValue_boot (t : Nat) (v : DWord) : (setValue s t v).boot = s.boot := rfl
@[simp] theorem setValue_sbox (t : Nat) (v : DWord) : (setValue s t v).sbox = s.sbox := rfl
@[simp] theorem setValue_anvil (t : Nat) (v : DWord) : (setValue s t v).anvil = s.anvil := rfl
@[simp] theorem setValue_hash (t : Nat) (v : DWord) : (setValue s t v).hash = s.hash := rfl
@[simp] theorem setValue_aes (t : Nat) (v : DWord) : (setValue s t v).aes = s.aes := rfl
@[simp] theorem setValue_rng (t : Nat) (v : DWord) : (setValue s t v).rng = s.rng := rfl
@[simp] theorem setValue_cvu (t : Nat) (v : DWord) : (setValue s t v).cvu = s.cvu := rfl
@[simp] theorem setValue_hmk (t : Nat) (v : DWord) : (setValue s t v).hmk = s.hmk := rfl
@[simp] theorem setValue_att (t : Nat) (v : DWord) : (setValue s t v).att = s.att := rfl
@[simp] theorem setValue_asy (t : Nat) (v : DWord) : (setValue s t v).asy = s.asy := rfl
@[simp] theorem setValue_sram (t : Nat) (v : DWord) : (setValue s t v).sram = s.sram := rfl
@[simp] theorem setValue_hdrs (t : Nat) (v : DWord) : (setValue s t v).hdrs = s.hdrs := rfl
@[simp] theorem setValue_regs (t : Nat) (v : DWord) : (setValue s t v).regs = s.regs := rfl
@[simp] theorem setValue_latch (t : Nat) (v : DWord) : (setValue s t v).latch = s.latch := rfl
@[simp] theorem setValue_wstage (t : Nat) (v : DWord) : (setValue s t v).wstage = s.wstage := rfl
@[simp] theorem setValue_rsp (t : Nat) (v : DWord) : (setValue s t v).rsp = s.rsp := rfl
@[simp] theorem setValue_pending (t : Nat) (v : DWord) : (setValue s t v).pending = s.pending := rfl

/-! `setAcl` writes `tl`. -/
@[simp] theorem setAcl_block (t : Nat) (a : BitVec 7) : (setAcl s t a).block = s.block := rfl
@[simp] theorem setAcl_time (t : Nat) (a : BitVec 7) : (setAcl s t a).time = s.time := rfl
@[simp] theorem setAcl_free (t : Nat) (a : BitVec 7) : (setAcl s t a).free = s.free := rfl
@[simp] theorem setAcl_pins (t : Nat) (a : BitVec 7) : (setAcl s t a).pins = s.pins := rfl
@[simp] theorem setAcl_cores (t : Nat) (a : BitVec 7) : (setAcl s t a).cores = s.cores := rfl
@[simp] theorem setAcl_tmp (t : Nat) (a : BitVec 7) : (setAcl s t a).tmp = s.tmp := rfl
@[simp] theorem setAcl_pwr (t : Nat) (a : BitVec 7) : (setAcl s t a).pwr = s.pwr := rfl
@[simp] theorem setAcl_ledger (t : Nat) (a : BitVec 7) : (setAcl s t a).ledger = s.ledger := rfl
@[simp] theorem setAcl_cpb (t : Nat) (a : BitVec 7) : (setAcl s t a).cpb = s.cpb := rfl
@[simp] theorem setAcl_hip (t : Nat) (a : BitVec 7) : (setAcl s t a).hip = s.hip := rfl
@[simp] theorem setAcl_part (t : Nat) (a : BitVec 7) : (setAcl s t a).part = s.part := rfl
@[simp] theorem setAcl_epoch (t : Nat) (a : BitVec 7) : (setAcl s t a).epoch = s.epoch := rfl
@[simp] theorem setAcl_book (t : Nat) (a : BitVec 7) : (setAcl s t a).book = s.book := rfl
@[simp] theorem setAcl_xlat (t : Nat) (a : BitVec 7) : (setAcl s t a).xlat = s.xlat := rfl
@[simp] theorem setAcl_xcnt (t : Nat) (a : BitVec 7) : (setAcl s t a).xcnt = s.xcnt := rfl
@[simp] theorem setAcl_irq (t : Nat) (a : BitVec 7) : (setAcl s t a).irq = s.irq := rfl
@[simp] theorem setAcl_qn (t : Nat) (a : BitVec 7) : (setAcl s t a).qn = s.qn := rfl
@[simp] theorem setAcl_qos (t : Nat) (a : BitVec 7) : (setAcl s t a).qos = s.qos := rfl
@[simp] theorem setAcl_mbox (t : Nat) (a : BitVec 7) : (setAcl s t a).mbox = s.mbox := rfl
@[simp] theorem setAcl_fuse (t : Nat) (a : BitVec 7) : (setAcl s t a).fuse = s.fuse := rfl
@[simp] theorem setAcl_boot (t : Nat) (a : BitVec 7) : (setAcl s t a).boot = s.boot := rfl
@[simp] theorem setAcl_sbox (t : Nat) (a : BitVec 7) : (setAcl s t a).sbox = s.sbox := rfl
@[simp] theorem setAcl_anvil (t : Nat) (a : BitVec 7) : (setAcl s t a).anvil = s.anvil := rfl
@[simp] theorem setAcl_hash (t : Nat) (a : BitVec 7) : (setAcl s t a).hash = s.hash := rfl
@[simp] theorem setAcl_aes (t : Nat) (a : BitVec 7) : (setAcl s t a).aes = s.aes := rfl
@[simp] theorem setAcl_rng (t : Nat) (a : BitVec 7) : (setAcl s t a).rng = s.rng := rfl
@[simp] theorem setAcl_cvu (t : Nat) (a : BitVec 7) : (setAcl s t a).cvu = s.cvu := rfl
@[simp] theorem setAcl_hmk (t : Nat) (a : BitVec 7) : (setAcl s t a).hmk = s.hmk := rfl
@[simp] theorem setAcl_att (t : Nat) (a : BitVec 7) : (setAcl s t a).att = s.att := rfl
@[simp] theorem setAcl_asy (t : Nat) (a : BitVec 7) : (setAcl s t a).asy = s.asy := rfl
@[simp] theorem setAcl_sram (t : Nat) (a : BitVec 7) : (setAcl s t a).sram = s.sram := rfl
@[simp] theorem setAcl_hdrs (t : Nat) (a : BitVec 7) : (setAcl s t a).hdrs = s.hdrs := rfl
@[simp] theorem setAcl_regs (t : Nat) (a : BitVec 7) : (setAcl s t a).regs = s.regs := rfl
@[simp] theorem setAcl_latch (t : Nat) (a : BitVec 7) : (setAcl s t a).latch = s.latch := rfl
@[simp] theorem setAcl_wstage (t : Nat) (a : BitVec 7) : (setAcl s t a).wstage = s.wstage := rfl
@[simp] theorem setAcl_rsp (t : Nat) (a : BitVec 7) : (setAcl s t a).rsp = s.rsp := rfl
@[simp] theorem setAcl_pending (t : Nat) (a : BitVec 7) : (setAcl s t a).pending = s.pending := rfl

/-! `setEntry` writes `tl`. -/
@[simp] theorem setEntry_block (t e : Nat) (w : WaitE) : (setEntry s t e w).block = s.block := rfl
@[simp] theorem setEntry_time (t e : Nat) (w : WaitE) : (setEntry s t e w).time = s.time := rfl
@[simp] theorem setEntry_free (t e : Nat) (w : WaitE) : (setEntry s t e w).free = s.free := rfl
@[simp] theorem setEntry_pins (t e : Nat) (w : WaitE) : (setEntry s t e w).pins = s.pins := rfl
@[simp] theorem setEntry_cores (t e : Nat) (w : WaitE) : (setEntry s t e w).cores = s.cores := rfl
@[simp] theorem setEntry_tmp (t e : Nat) (w : WaitE) : (setEntry s t e w).tmp = s.tmp := rfl
@[simp] theorem setEntry_pwr (t e : Nat) (w : WaitE) : (setEntry s t e w).pwr = s.pwr := rfl
@[simp] theorem setEntry_ledger (t e : Nat) (w : WaitE) : (setEntry s t e w).ledger = s.ledger := rfl
@[simp] theorem setEntry_cpb (t e : Nat) (w : WaitE) : (setEntry s t e w).cpb = s.cpb := rfl
@[simp] theorem setEntry_hip (t e : Nat) (w : WaitE) : (setEntry s t e w).hip = s.hip := rfl
@[simp] theorem setEntry_part (t e : Nat) (w : WaitE) : (setEntry s t e w).part = s.part := rfl
@[simp] theorem setEntry_epoch (t e : Nat) (w : WaitE) : (setEntry s t e w).epoch = s.epoch := rfl
@[simp] theorem setEntry_book (t e : Nat) (w : WaitE) : (setEntry s t e w).book = s.book := rfl
@[simp] theorem setEntry_xlat (t e : Nat) (w : WaitE) : (setEntry s t e w).xlat = s.xlat := rfl
@[simp] theorem setEntry_xcnt (t e : Nat) (w : WaitE) : (setEntry s t e w).xcnt = s.xcnt := rfl
@[simp] theorem setEntry_irq (t e : Nat) (w : WaitE) : (setEntry s t e w).irq = s.irq := rfl
@[simp] theorem setEntry_qn (t e : Nat) (w : WaitE) : (setEntry s t e w).qn = s.qn := rfl
@[simp] theorem setEntry_qos (t e : Nat) (w : WaitE) : (setEntry s t e w).qos = s.qos := rfl
@[simp] theorem setEntry_mbox (t e : Nat) (w : WaitE) : (setEntry s t e w).mbox = s.mbox := rfl
@[simp] theorem setEntry_fuse (t e : Nat) (w : WaitE) : (setEntry s t e w).fuse = s.fuse := rfl
@[simp] theorem setEntry_boot (t e : Nat) (w : WaitE) : (setEntry s t e w).boot = s.boot := rfl
@[simp] theorem setEntry_sbox (t e : Nat) (w : WaitE) : (setEntry s t e w).sbox = s.sbox := rfl
@[simp] theorem setEntry_anvil (t e : Nat) (w : WaitE) : (setEntry s t e w).anvil = s.anvil := rfl
@[simp] theorem setEntry_hash (t e : Nat) (w : WaitE) : (setEntry s t e w).hash = s.hash := rfl
@[simp] theorem setEntry_aes (t e : Nat) (w : WaitE) : (setEntry s t e w).aes = s.aes := rfl
@[simp] theorem setEntry_rng (t e : Nat) (w : WaitE) : (setEntry s t e w).rng = s.rng := rfl
@[simp] theorem setEntry_cvu (t e : Nat) (w : WaitE) : (setEntry s t e w).cvu = s.cvu := rfl
@[simp] theorem setEntry_hmk (t e : Nat) (w : WaitE) : (setEntry s t e w).hmk = s.hmk := rfl
@[simp] theorem setEntry_att (t e : Nat) (w : WaitE) : (setEntry s t e w).att = s.att := rfl
@[simp] theorem setEntry_asy (t e : Nat) (w : WaitE) : (setEntry s t e w).asy = s.asy := rfl
@[simp] theorem setEntry_sram (t e : Nat) (w : WaitE) : (setEntry s t e w).sram = s.sram := rfl
@[simp] theorem setEntry_hdrs (t e : Nat) (w : WaitE) : (setEntry s t e w).hdrs = s.hdrs := rfl
@[simp] theorem setEntry_regs (t e : Nat) (w : WaitE) : (setEntry s t e w).regs = s.regs := rfl
@[simp] theorem setEntry_latch (t e : Nat) (w : WaitE) : (setEntry s t e w).latch = s.latch := rfl
@[simp] theorem setEntry_wstage (t e : Nat) (w : WaitE) : (setEntry s t e w).wstage = s.wstage := rfl
@[simp] theorem setEntry_rsp (t e : Nat) (w : WaitE) : (setEntry s t e w).rsp = s.rsp := rfl
@[simp] theorem setEntry_pending (t e : Nat) (w : WaitE) : (setEntry s t e w).pending = s.pending := rfl

/-! `setDoorbell` writes `tl`. -/
@[simp] theorem setDoorbell_block (p n : Nat) (w : Word) : (setDoorbell s p n w).block = s.block := rfl
@[simp] theorem setDoorbell_time (p n : Nat) (w : Word) : (setDoorbell s p n w).time = s.time := rfl
@[simp] theorem setDoorbell_free (p n : Nat) (w : Word) : (setDoorbell s p n w).free = s.free := rfl
@[simp] theorem setDoorbell_pins (p n : Nat) (w : Word) : (setDoorbell s p n w).pins = s.pins := rfl
@[simp] theorem setDoorbell_cores (p n : Nat) (w : Word) : (setDoorbell s p n w).cores = s.cores := rfl
@[simp] theorem setDoorbell_tmp (p n : Nat) (w : Word) : (setDoorbell s p n w).tmp = s.tmp := rfl
@[simp] theorem setDoorbell_pwr (p n : Nat) (w : Word) : (setDoorbell s p n w).pwr = s.pwr := rfl
@[simp] theorem setDoorbell_ledger (p n : Nat) (w : Word) : (setDoorbell s p n w).ledger = s.ledger := rfl
@[simp] theorem setDoorbell_cpb (p n : Nat) (w : Word) : (setDoorbell s p n w).cpb = s.cpb := rfl
@[simp] theorem setDoorbell_hip (p n : Nat) (w : Word) : (setDoorbell s p n w).hip = s.hip := rfl
@[simp] theorem setDoorbell_part (p n : Nat) (w : Word) : (setDoorbell s p n w).part = s.part := rfl
@[simp] theorem setDoorbell_epoch (p n : Nat) (w : Word) : (setDoorbell s p n w).epoch = s.epoch := rfl
@[simp] theorem setDoorbell_book (p n : Nat) (w : Word) : (setDoorbell s p n w).book = s.book := rfl
@[simp] theorem setDoorbell_xlat (p n : Nat) (w : Word) : (setDoorbell s p n w).xlat = s.xlat := rfl
@[simp] theorem setDoorbell_xcnt (p n : Nat) (w : Word) : (setDoorbell s p n w).xcnt = s.xcnt := rfl
@[simp] theorem setDoorbell_irq (p n : Nat) (w : Word) : (setDoorbell s p n w).irq = s.irq := rfl
@[simp] theorem setDoorbell_qn (p n : Nat) (w : Word) : (setDoorbell s p n w).qn = s.qn := rfl
@[simp] theorem setDoorbell_qos (p n : Nat) (w : Word) : (setDoorbell s p n w).qos = s.qos := rfl
@[simp] theorem setDoorbell_mbox (p n : Nat) (w : Word) : (setDoorbell s p n w).mbox = s.mbox := rfl
@[simp] theorem setDoorbell_fuse (p n : Nat) (w : Word) : (setDoorbell s p n w).fuse = s.fuse := rfl
@[simp] theorem setDoorbell_boot (p n : Nat) (w : Word) : (setDoorbell s p n w).boot = s.boot := rfl
@[simp] theorem setDoorbell_sbox (p n : Nat) (w : Word) : (setDoorbell s p n w).sbox = s.sbox := rfl
@[simp] theorem setDoorbell_anvil (p n : Nat) (w : Word) : (setDoorbell s p n w).anvil = s.anvil := rfl
@[simp] theorem setDoorbell_hash (p n : Nat) (w : Word) : (setDoorbell s p n w).hash = s.hash := rfl
@[simp] theorem setDoorbell_aes (p n : Nat) (w : Word) : (setDoorbell s p n w).aes = s.aes := rfl
@[simp] theorem setDoorbell_rng (p n : Nat) (w : Word) : (setDoorbell s p n w).rng = s.rng := rfl
@[simp] theorem setDoorbell_cvu (p n : Nat) (w : Word) : (setDoorbell s p n w).cvu = s.cvu := rfl
@[simp] theorem setDoorbell_hmk (p n : Nat) (w : Word) : (setDoorbell s p n w).hmk = s.hmk := rfl
@[simp] theorem setDoorbell_att (p n : Nat) (w : Word) : (setDoorbell s p n w).att = s.att := rfl
@[simp] theorem setDoorbell_asy (p n : Nat) (w : Word) : (setDoorbell s p n w).asy = s.asy := rfl
@[simp] theorem setDoorbell_sram (p n : Nat) (w : Word) : (setDoorbell s p n w).sram = s.sram := rfl
@[simp] theorem setDoorbell_hdrs (p n : Nat) (w : Word) : (setDoorbell s p n w).hdrs = s.hdrs := rfl
@[simp] theorem setDoorbell_regs (p n : Nat) (w : Word) : (setDoorbell s p n w).regs = s.regs := rfl
@[simp] theorem setDoorbell_latch (p n : Nat) (w : Word) : (setDoorbell s p n w).latch = s.latch := rfl
@[simp] theorem setDoorbell_wstage (p n : Nat) (w : Word) : (setDoorbell s p n w).wstage = s.wstage := rfl
@[simp] theorem setDoorbell_rsp (p n : Nat) (w : Word) : (setDoorbell s p n w).rsp = s.rsp := rfl
@[simp] theorem setDoorbell_pending (p n : Nat) (w : Word) : (setDoorbell s p n w).pending = s.pending := rfl

/-! `setChannel` writes `mbox`. -/
@[simp] theorem setChannel_block (c : Nat) (v : Channel) : (setChannel s c v).block = s.block := rfl
@[simp] theorem setChannel_time (c : Nat) (v : Channel) : (setChannel s c v).time = s.time := rfl
@[simp] theorem setChannel_free (c : Nat) (v : Channel) : (setChannel s c v).free = s.free := rfl
@[simp] theorem setChannel_pins (c : Nat) (v : Channel) : (setChannel s c v).pins = s.pins := rfl
@[simp] theorem setChannel_cores (c : Nat) (v : Channel) : (setChannel s c v).cores = s.cores := rfl
@[simp] theorem setChannel_tmp (c : Nat) (v : Channel) : (setChannel s c v).tmp = s.tmp := rfl
@[simp] theorem setChannel_pwr (c : Nat) (v : Channel) : (setChannel s c v).pwr = s.pwr := rfl
@[simp] theorem setChannel_ledger (c : Nat) (v : Channel) : (setChannel s c v).ledger = s.ledger := rfl
@[simp] theorem setChannel_cpb (c : Nat) (v : Channel) : (setChannel s c v).cpb = s.cpb := rfl
@[simp] theorem setChannel_hip (c : Nat) (v : Channel) : (setChannel s c v).hip = s.hip := rfl
@[simp] theorem setChannel_part (c : Nat) (v : Channel) : (setChannel s c v).part = s.part := rfl
@[simp] theorem setChannel_epoch (c : Nat) (v : Channel) : (setChannel s c v).epoch = s.epoch := rfl
@[simp] theorem setChannel_book (c : Nat) (v : Channel) : (setChannel s c v).book = s.book := rfl
@[simp] theorem setChannel_xlat (c : Nat) (v : Channel) : (setChannel s c v).xlat = s.xlat := rfl
@[simp] theorem setChannel_xcnt (c : Nat) (v : Channel) : (setChannel s c v).xcnt = s.xcnt := rfl
@[simp] theorem setChannel_irq (c : Nat) (v : Channel) : (setChannel s c v).irq = s.irq := rfl
@[simp] theorem setChannel_qn (c : Nat) (v : Channel) : (setChannel s c v).qn = s.qn := rfl
@[simp] theorem setChannel_qos (c : Nat) (v : Channel) : (setChannel s c v).qos = s.qos := rfl
@[simp] theorem setChannel_tl (c : Nat) (v : Channel) : (setChannel s c v).tl = s.tl := rfl
@[simp] theorem setChannel_fuse (c : Nat) (v : Channel) : (setChannel s c v).fuse = s.fuse := rfl
@[simp] theorem setChannel_boot (c : Nat) (v : Channel) : (setChannel s c v).boot = s.boot := rfl
@[simp] theorem setChannel_sbox (c : Nat) (v : Channel) : (setChannel s c v).sbox = s.sbox := rfl
@[simp] theorem setChannel_anvil (c : Nat) (v : Channel) : (setChannel s c v).anvil = s.anvil := rfl
@[simp] theorem setChannel_hash (c : Nat) (v : Channel) : (setChannel s c v).hash = s.hash := rfl
@[simp] theorem setChannel_aes (c : Nat) (v : Channel) : (setChannel s c v).aes = s.aes := rfl
@[simp] theorem setChannel_rng (c : Nat) (v : Channel) : (setChannel s c v).rng = s.rng := rfl
@[simp] theorem setChannel_cvu (c : Nat) (v : Channel) : (setChannel s c v).cvu = s.cvu := rfl
@[simp] theorem setChannel_hmk (c : Nat) (v : Channel) : (setChannel s c v).hmk = s.hmk := rfl
@[simp] theorem setChannel_att (c : Nat) (v : Channel) : (setChannel s c v).att = s.att := rfl
@[simp] theorem setChannel_asy (c : Nat) (v : Channel) : (setChannel s c v).asy = s.asy := rfl
@[simp] theorem setChannel_sram (c : Nat) (v : Channel) : (setChannel s c v).sram = s.sram := rfl
@[simp] theorem setChannel_hdrs (c : Nat) (v : Channel) : (setChannel s c v).hdrs = s.hdrs := rfl
@[simp] theorem setChannel_regs (c : Nat) (v : Channel) : (setChannel s c v).regs = s.regs := rfl
@[simp] theorem setChannel_latch (c : Nat) (v : Channel) : (setChannel s c v).latch = s.latch := rfl
@[simp] theorem setChannel_wstage (c : Nat) (v : Channel) : (setChannel s c v).wstage = s.wstage := rfl
@[simp] theorem setChannel_rsp (c : Nat) (v : Channel) : (setChannel s c v).rsp = s.rsp := rfl
@[simp] theorem setChannel_pending (c : Nat) (v : Channel) : (setChannel s c v).pending = s.pending := rfl

/-! `setAgent` writes `cpb`. -/
@[simp] theorem setAgent_block (a : Nat) (v : Agent) : (setAgent s a v).block = s.block := rfl
@[simp] theorem setAgent_time (a : Nat) (v : Agent) : (setAgent s a v).time = s.time := rfl
@[simp] theorem setAgent_free (a : Nat) (v : Agent) : (setAgent s a v).free = s.free := rfl
@[simp] theorem setAgent_pins (a : Nat) (v : Agent) : (setAgent s a v).pins = s.pins := rfl
@[simp] theorem setAgent_cores (a : Nat) (v : Agent) : (setAgent s a v).cores = s.cores := rfl
@[simp] theorem setAgent_tmp (a : Nat) (v : Agent) : (setAgent s a v).tmp = s.tmp := rfl
@[simp] theorem setAgent_pwr (a : Nat) (v : Agent) : (setAgent s a v).pwr = s.pwr := rfl
@[simp] theorem setAgent_ledger (a : Nat) (v : Agent) : (setAgent s a v).ledger = s.ledger := rfl
@[simp] theorem setAgent_hip (a : Nat) (v : Agent) : (setAgent s a v).hip = s.hip := rfl
@[simp] theorem setAgent_part (a : Nat) (v : Agent) : (setAgent s a v).part = s.part := rfl
@[simp] theorem setAgent_epoch (a : Nat) (v : Agent) : (setAgent s a v).epoch = s.epoch := rfl
@[simp] theorem setAgent_book (a : Nat) (v : Agent) : (setAgent s a v).book = s.book := rfl
@[simp] theorem setAgent_xlat (a : Nat) (v : Agent) : (setAgent s a v).xlat = s.xlat := rfl
@[simp] theorem setAgent_xcnt (a : Nat) (v : Agent) : (setAgent s a v).xcnt = s.xcnt := rfl
@[simp] theorem setAgent_irq (a : Nat) (v : Agent) : (setAgent s a v).irq = s.irq := rfl
@[simp] theorem setAgent_qn (a : Nat) (v : Agent) : (setAgent s a v).qn = s.qn := rfl
@[simp] theorem setAgent_qos (a : Nat) (v : Agent) : (setAgent s a v).qos = s.qos := rfl
@[simp] theorem setAgent_tl (a : Nat) (v : Agent) : (setAgent s a v).tl = s.tl := rfl
@[simp] theorem setAgent_mbox (a : Nat) (v : Agent) : (setAgent s a v).mbox = s.mbox := rfl
@[simp] theorem setAgent_fuse (a : Nat) (v : Agent) : (setAgent s a v).fuse = s.fuse := rfl
@[simp] theorem setAgent_boot (a : Nat) (v : Agent) : (setAgent s a v).boot = s.boot := rfl
@[simp] theorem setAgent_sbox (a : Nat) (v : Agent) : (setAgent s a v).sbox = s.sbox := rfl
@[simp] theorem setAgent_anvil (a : Nat) (v : Agent) : (setAgent s a v).anvil = s.anvil := rfl
@[simp] theorem setAgent_hash (a : Nat) (v : Agent) : (setAgent s a v).hash = s.hash := rfl
@[simp] theorem setAgent_aes (a : Nat) (v : Agent) : (setAgent s a v).aes = s.aes := rfl
@[simp] theorem setAgent_rng (a : Nat) (v : Agent) : (setAgent s a v).rng = s.rng := rfl
@[simp] theorem setAgent_cvu (a : Nat) (v : Agent) : (setAgent s a v).cvu = s.cvu := rfl
@[simp] theorem setAgent_hmk (a : Nat) (v : Agent) : (setAgent s a v).hmk = s.hmk := rfl
@[simp] theorem setAgent_att (a : Nat) (v : Agent) : (setAgent s a v).att = s.att := rfl
@[simp] theorem setAgent_asy (a : Nat) (v : Agent) : (setAgent s a v).asy = s.asy := rfl
@[simp] theorem setAgent_sram (a : Nat) (v : Agent) : (setAgent s a v).sram = s.sram := rfl
@[simp] theorem setAgent_hdrs (a : Nat) (v : Agent) : (setAgent s a v).hdrs = s.hdrs := rfl
@[simp] theorem setAgent_regs (a : Nat) (v : Agent) : (setAgent s a v).regs = s.regs := rfl
@[simp] theorem setAgent_latch (a : Nat) (v : Agent) : (setAgent s a v).latch = s.latch := rfl
@[simp] theorem setAgent_wstage (a : Nat) (v : Agent) : (setAgent s a v).wstage = s.wstage := rfl
@[simp] theorem setAgent_rsp (a : Nat) (v : Agent) : (setAgent s a v).rsp = s.rsp := rfl
@[simp] theorem setAgent_pending (a : Nat) (v : Agent) : (setAgent s a v).pending = s.pending := rfl

/-! `setHmkPlace` writes `hmk`. -/
@[simp] theorem setHmkPlace_block (k : Nat) (p : HmkPlace) : (setHmkPlace s k p).block = s.block := rfl
@[simp] theorem setHmkPlace_time (k : Nat) (p : HmkPlace) : (setHmkPlace s k p).time = s.time := rfl
@[simp] theorem setHmkPlace_free (k : Nat) (p : HmkPlace) : (setHmkPlace s k p).free = s.free := rfl
@[simp] theorem setHmkPlace_pins (k : Nat) (p : HmkPlace) : (setHmkPlace s k p).pins = s.pins := rfl
@[simp] theorem setHmkPlace_cores (k : Nat) (p : HmkPlace) : (setHmkPlace s k p).cores = s.cores := rfl
@[simp] theorem setHmkPlace_tmp (k : Nat) (p : HmkPlace) : (setHmkPlace s k p).tmp = s.tmp := rfl
@[simp] theorem setHmkPlace_pwr (k : Nat) (p : HmkPlace) : (setHmkPlace s k p).pwr = s.pwr := rfl
@[simp] theorem setHmkPlace_ledger (k : Nat) (p : HmkPlace) : (setHmkPlace s k p).ledger = s.ledger := rfl
@[simp] theorem setHmkPlace_cpb (k : Nat) (p : HmkPlace) : (setHmkPlace s k p).cpb = s.cpb := rfl
@[simp] theorem setHmkPlace_hip (k : Nat) (p : HmkPlace) : (setHmkPlace s k p).hip = s.hip := rfl
@[simp] theorem setHmkPlace_part (k : Nat) (p : HmkPlace) : (setHmkPlace s k p).part = s.part := rfl
@[simp] theorem setHmkPlace_epoch (k : Nat) (p : HmkPlace) : (setHmkPlace s k p).epoch = s.epoch := rfl
@[simp] theorem setHmkPlace_book (k : Nat) (p : HmkPlace) : (setHmkPlace s k p).book = s.book := rfl
@[simp] theorem setHmkPlace_xlat (k : Nat) (p : HmkPlace) : (setHmkPlace s k p).xlat = s.xlat := rfl
@[simp] theorem setHmkPlace_xcnt (k : Nat) (p : HmkPlace) : (setHmkPlace s k p).xcnt = s.xcnt := rfl
@[simp] theorem setHmkPlace_irq (k : Nat) (p : HmkPlace) : (setHmkPlace s k p).irq = s.irq := rfl
@[simp] theorem setHmkPlace_qn (k : Nat) (p : HmkPlace) : (setHmkPlace s k p).qn = s.qn := rfl
@[simp] theorem setHmkPlace_qos (k : Nat) (p : HmkPlace) : (setHmkPlace s k p).qos = s.qos := rfl
@[simp] theorem setHmkPlace_tl (k : Nat) (p : HmkPlace) : (setHmkPlace s k p).tl = s.tl := rfl
@[simp] theorem setHmkPlace_mbox (k : Nat) (p : HmkPlace) : (setHmkPlace s k p).mbox = s.mbox := rfl
@[simp] theorem setHmkPlace_fuse (k : Nat) (p : HmkPlace) : (setHmkPlace s k p).fuse = s.fuse := rfl
@[simp] theorem setHmkPlace_boot (k : Nat) (p : HmkPlace) : (setHmkPlace s k p).boot = s.boot := rfl
@[simp] theorem setHmkPlace_sbox (k : Nat) (p : HmkPlace) : (setHmkPlace s k p).sbox = s.sbox := rfl
@[simp] theorem setHmkPlace_anvil (k : Nat) (p : HmkPlace) : (setHmkPlace s k p).anvil = s.anvil := rfl
@[simp] theorem setHmkPlace_hash (k : Nat) (p : HmkPlace) : (setHmkPlace s k p).hash = s.hash := rfl
@[simp] theorem setHmkPlace_aes (k : Nat) (p : HmkPlace) : (setHmkPlace s k p).aes = s.aes := rfl
@[simp] theorem setHmkPlace_rng (k : Nat) (p : HmkPlace) : (setHmkPlace s k p).rng = s.rng := rfl
@[simp] theorem setHmkPlace_cvu (k : Nat) (p : HmkPlace) : (setHmkPlace s k p).cvu = s.cvu := rfl
@[simp] theorem setHmkPlace_att (k : Nat) (p : HmkPlace) : (setHmkPlace s k p).att = s.att := rfl
@[simp] theorem setHmkPlace_asy (k : Nat) (p : HmkPlace) : (setHmkPlace s k p).asy = s.asy := rfl
@[simp] theorem setHmkPlace_sram (k : Nat) (p : HmkPlace) : (setHmkPlace s k p).sram = s.sram := rfl
@[simp] theorem setHmkPlace_hdrs (k : Nat) (p : HmkPlace) : (setHmkPlace s k p).hdrs = s.hdrs := rfl
@[simp] theorem setHmkPlace_regs (k : Nat) (p : HmkPlace) : (setHmkPlace s k p).regs = s.regs := rfl
@[simp] theorem setHmkPlace_latch (k : Nat) (p : HmkPlace) : (setHmkPlace s k p).latch = s.latch := rfl
@[simp] theorem setHmkPlace_wstage (k : Nat) (p : HmkPlace) : (setHmkPlace s k p).wstage = s.wstage := rfl
@[simp] theorem setHmkPlace_rsp (k : Nat) (p : HmkPlace) : (setHmkPlace s k p).rsp = s.rsp := rfl
@[simp] theorem setHmkPlace_pending (k : Nat) (p : HmkPlace) : (setHmkPlace s k p).pending = s.pending := rfl

/-! `setCvu` writes `cvu`. -/
@[simp] theorem setCvu_block (u : Nat) (c : Cvu) : (setCvu s u c).block = s.block := rfl
@[simp] theorem setCvu_time (u : Nat) (c : Cvu) : (setCvu s u c).time = s.time := rfl
@[simp] theorem setCvu_free (u : Nat) (c : Cvu) : (setCvu s u c).free = s.free := rfl
@[simp] theorem setCvu_pins (u : Nat) (c : Cvu) : (setCvu s u c).pins = s.pins := rfl
@[simp] theorem setCvu_cores (u : Nat) (c : Cvu) : (setCvu s u c).cores = s.cores := rfl
@[simp] theorem setCvu_tmp (u : Nat) (c : Cvu) : (setCvu s u c).tmp = s.tmp := rfl
@[simp] theorem setCvu_pwr (u : Nat) (c : Cvu) : (setCvu s u c).pwr = s.pwr := rfl
@[simp] theorem setCvu_ledger (u : Nat) (c : Cvu) : (setCvu s u c).ledger = s.ledger := rfl
@[simp] theorem setCvu_cpb (u : Nat) (c : Cvu) : (setCvu s u c).cpb = s.cpb := rfl
@[simp] theorem setCvu_hip (u : Nat) (c : Cvu) : (setCvu s u c).hip = s.hip := rfl
@[simp] theorem setCvu_part (u : Nat) (c : Cvu) : (setCvu s u c).part = s.part := rfl
@[simp] theorem setCvu_epoch (u : Nat) (c : Cvu) : (setCvu s u c).epoch = s.epoch := rfl
@[simp] theorem setCvu_book (u : Nat) (c : Cvu) : (setCvu s u c).book = s.book := rfl
@[simp] theorem setCvu_xlat (u : Nat) (c : Cvu) : (setCvu s u c).xlat = s.xlat := rfl
@[simp] theorem setCvu_xcnt (u : Nat) (c : Cvu) : (setCvu s u c).xcnt = s.xcnt := rfl
@[simp] theorem setCvu_irq (u : Nat) (c : Cvu) : (setCvu s u c).irq = s.irq := rfl
@[simp] theorem setCvu_qn (u : Nat) (c : Cvu) : (setCvu s u c).qn = s.qn := rfl
@[simp] theorem setCvu_qos (u : Nat) (c : Cvu) : (setCvu s u c).qos = s.qos := rfl
@[simp] theorem setCvu_tl (u : Nat) (c : Cvu) : (setCvu s u c).tl = s.tl := rfl
@[simp] theorem setCvu_mbox (u : Nat) (c : Cvu) : (setCvu s u c).mbox = s.mbox := rfl
@[simp] theorem setCvu_fuse (u : Nat) (c : Cvu) : (setCvu s u c).fuse = s.fuse := rfl
@[simp] theorem setCvu_boot (u : Nat) (c : Cvu) : (setCvu s u c).boot = s.boot := rfl
@[simp] theorem setCvu_sbox (u : Nat) (c : Cvu) : (setCvu s u c).sbox = s.sbox := rfl
@[simp] theorem setCvu_anvil (u : Nat) (c : Cvu) : (setCvu s u c).anvil = s.anvil := rfl
@[simp] theorem setCvu_hash (u : Nat) (c : Cvu) : (setCvu s u c).hash = s.hash := rfl
@[simp] theorem setCvu_aes (u : Nat) (c : Cvu) : (setCvu s u c).aes = s.aes := rfl
@[simp] theorem setCvu_rng (u : Nat) (c : Cvu) : (setCvu s u c).rng = s.rng := rfl
@[simp] theorem setCvu_hmk (u : Nat) (c : Cvu) : (setCvu s u c).hmk = s.hmk := rfl
@[simp] theorem setCvu_att (u : Nat) (c : Cvu) : (setCvu s u c).att = s.att := rfl
@[simp] theorem setCvu_asy (u : Nat) (c : Cvu) : (setCvu s u c).asy = s.asy := rfl
@[simp] theorem setCvu_sram (u : Nat) (c : Cvu) : (setCvu s u c).sram = s.sram := rfl
@[simp] theorem setCvu_hdrs (u : Nat) (c : Cvu) : (setCvu s u c).hdrs = s.hdrs := rfl
@[simp] theorem setCvu_regs (u : Nat) (c : Cvu) : (setCvu s u c).regs = s.regs := rfl
@[simp] theorem setCvu_latch (u : Nat) (c : Cvu) : (setCvu s u c).latch = s.latch := rfl
@[simp] theorem setCvu_wstage (u : Nat) (c : Cvu) : (setCvu s u c).wstage = s.wstage := rfl
@[simp] theorem setCvu_rsp (u : Nat) (c : Cvu) : (setCvu s u c).rsp = s.rsp := rfl
@[simp] theorem setCvu_pending (u : Nat) (c : Cvu) : (setCvu s u c).pending = s.pending := rfl

/-! `setLane` writes `hash`. -/
@[simp] theorem setLane_block (n : Nat) (l : Lane) : (setLane s n l).block = s.block := rfl
@[simp] theorem setLane_time (n : Nat) (l : Lane) : (setLane s n l).time = s.time := rfl
@[simp] theorem setLane_free (n : Nat) (l : Lane) : (setLane s n l).free = s.free := rfl
@[simp] theorem setLane_pins (n : Nat) (l : Lane) : (setLane s n l).pins = s.pins := rfl
@[simp] theorem setLane_cores (n : Nat) (l : Lane) : (setLane s n l).cores = s.cores := rfl
@[simp] theorem setLane_tmp (n : Nat) (l : Lane) : (setLane s n l).tmp = s.tmp := rfl
@[simp] theorem setLane_pwr (n : Nat) (l : Lane) : (setLane s n l).pwr = s.pwr := rfl
@[simp] theorem setLane_ledger (n : Nat) (l : Lane) : (setLane s n l).ledger = s.ledger := rfl
@[simp] theorem setLane_cpb (n : Nat) (l : Lane) : (setLane s n l).cpb = s.cpb := rfl
@[simp] theorem setLane_hip (n : Nat) (l : Lane) : (setLane s n l).hip = s.hip := rfl
@[simp] theorem setLane_part (n : Nat) (l : Lane) : (setLane s n l).part = s.part := rfl
@[simp] theorem setLane_epoch (n : Nat) (l : Lane) : (setLane s n l).epoch = s.epoch := rfl
@[simp] theorem setLane_book (n : Nat) (l : Lane) : (setLane s n l).book = s.book := rfl
@[simp] theorem setLane_xlat (n : Nat) (l : Lane) : (setLane s n l).xlat = s.xlat := rfl
@[simp] theorem setLane_xcnt (n : Nat) (l : Lane) : (setLane s n l).xcnt = s.xcnt := rfl
@[simp] theorem setLane_irq (n : Nat) (l : Lane) : (setLane s n l).irq = s.irq := rfl
@[simp] theorem setLane_qn (n : Nat) (l : Lane) : (setLane s n l).qn = s.qn := rfl
@[simp] theorem setLane_qos (n : Nat) (l : Lane) : (setLane s n l).qos = s.qos := rfl
@[simp] theorem setLane_tl (n : Nat) (l : Lane) : (setLane s n l).tl = s.tl := rfl
@[simp] theorem setLane_mbox (n : Nat) (l : Lane) : (setLane s n l).mbox = s.mbox := rfl
@[simp] theorem setLane_fuse (n : Nat) (l : Lane) : (setLane s n l).fuse = s.fuse := rfl
@[simp] theorem setLane_boot (n : Nat) (l : Lane) : (setLane s n l).boot = s.boot := rfl
@[simp] theorem setLane_sbox (n : Nat) (l : Lane) : (setLane s n l).sbox = s.sbox := rfl
@[simp] theorem setLane_anvil (n : Nat) (l : Lane) : (setLane s n l).anvil = s.anvil := rfl
@[simp] theorem setLane_aes (n : Nat) (l : Lane) : (setLane s n l).aes = s.aes := rfl
@[simp] theorem setLane_rng (n : Nat) (l : Lane) : (setLane s n l).rng = s.rng := rfl
@[simp] theorem setLane_cvu (n : Nat) (l : Lane) : (setLane s n l).cvu = s.cvu := rfl
@[simp] theorem setLane_hmk (n : Nat) (l : Lane) : (setLane s n l).hmk = s.hmk := rfl
@[simp] theorem setLane_att (n : Nat) (l : Lane) : (setLane s n l).att = s.att := rfl
@[simp] theorem setLane_asy (n : Nat) (l : Lane) : (setLane s n l).asy = s.asy := rfl
@[simp] theorem setLane_sram (n : Nat) (l : Lane) : (setLane s n l).sram = s.sram := rfl
@[simp] theorem setLane_hdrs (n : Nat) (l : Lane) : (setLane s n l).hdrs = s.hdrs := rfl
@[simp] theorem setLane_regs (n : Nat) (l : Lane) : (setLane s n l).regs = s.regs := rfl
@[simp] theorem setLane_latch (n : Nat) (l : Lane) : (setLane s n l).latch = s.latch := rfl
@[simp] theorem setLane_wstage (n : Nat) (l : Lane) : (setLane s n l).wstage = s.wstage := rfl
@[simp] theorem setLane_rsp (n : Nat) (l : Lane) : (setLane s n l).rsp = s.rsp := rfl
@[simp] theorem setLane_pending (n : Nat) (l : Lane) : (setLane s n l).pending = s.pending := rfl

/-! `setSiteInfo` writes `boot`. -/
@[simp] theorem setSiteInfo_block (k : Nat) (v : SiteInfo) : (setSiteInfo s k v).block = s.block := rfl
@[simp] theorem setSiteInfo_time (k : Nat) (v : SiteInfo) : (setSiteInfo s k v).time = s.time := rfl
@[simp] theorem setSiteInfo_free (k : Nat) (v : SiteInfo) : (setSiteInfo s k v).free = s.free := rfl
@[simp] theorem setSiteInfo_pins (k : Nat) (v : SiteInfo) : (setSiteInfo s k v).pins = s.pins := rfl
@[simp] theorem setSiteInfo_cores (k : Nat) (v : SiteInfo) : (setSiteInfo s k v).cores = s.cores := rfl
@[simp] theorem setSiteInfo_tmp (k : Nat) (v : SiteInfo) : (setSiteInfo s k v).tmp = s.tmp := rfl
@[simp] theorem setSiteInfo_pwr (k : Nat) (v : SiteInfo) : (setSiteInfo s k v).pwr = s.pwr := rfl
@[simp] theorem setSiteInfo_ledger (k : Nat) (v : SiteInfo) : (setSiteInfo s k v).ledger = s.ledger := rfl
@[simp] theorem setSiteInfo_cpb (k : Nat) (v : SiteInfo) : (setSiteInfo s k v).cpb = s.cpb := rfl
@[simp] theorem setSiteInfo_hip (k : Nat) (v : SiteInfo) : (setSiteInfo s k v).hip = s.hip := rfl
@[simp] theorem setSiteInfo_part (k : Nat) (v : SiteInfo) : (setSiteInfo s k v).part = s.part := rfl
@[simp] theorem setSiteInfo_epoch (k : Nat) (v : SiteInfo) : (setSiteInfo s k v).epoch = s.epoch := rfl
@[simp] theorem setSiteInfo_book (k : Nat) (v : SiteInfo) : (setSiteInfo s k v).book = s.book := rfl
@[simp] theorem setSiteInfo_xlat (k : Nat) (v : SiteInfo) : (setSiteInfo s k v).xlat = s.xlat := rfl
@[simp] theorem setSiteInfo_xcnt (k : Nat) (v : SiteInfo) : (setSiteInfo s k v).xcnt = s.xcnt := rfl
@[simp] theorem setSiteInfo_irq (k : Nat) (v : SiteInfo) : (setSiteInfo s k v).irq = s.irq := rfl
@[simp] theorem setSiteInfo_qn (k : Nat) (v : SiteInfo) : (setSiteInfo s k v).qn = s.qn := rfl
@[simp] theorem setSiteInfo_qos (k : Nat) (v : SiteInfo) : (setSiteInfo s k v).qos = s.qos := rfl
@[simp] theorem setSiteInfo_tl (k : Nat) (v : SiteInfo) : (setSiteInfo s k v).tl = s.tl := rfl
@[simp] theorem setSiteInfo_mbox (k : Nat) (v : SiteInfo) : (setSiteInfo s k v).mbox = s.mbox := rfl
@[simp] theorem setSiteInfo_fuse (k : Nat) (v : SiteInfo) : (setSiteInfo s k v).fuse = s.fuse := rfl
@[simp] theorem setSiteInfo_sbox (k : Nat) (v : SiteInfo) : (setSiteInfo s k v).sbox = s.sbox := rfl
@[simp] theorem setSiteInfo_anvil (k : Nat) (v : SiteInfo) : (setSiteInfo s k v).anvil = s.anvil := rfl
@[simp] theorem setSiteInfo_hash (k : Nat) (v : SiteInfo) : (setSiteInfo s k v).hash = s.hash := rfl
@[simp] theorem setSiteInfo_aes (k : Nat) (v : SiteInfo) : (setSiteInfo s k v).aes = s.aes := rfl
@[simp] theorem setSiteInfo_rng (k : Nat) (v : SiteInfo) : (setSiteInfo s k v).rng = s.rng := rfl
@[simp] theorem setSiteInfo_cvu (k : Nat) (v : SiteInfo) : (setSiteInfo s k v).cvu = s.cvu := rfl
@[simp] theorem setSiteInfo_hmk (k : Nat) (v : SiteInfo) : (setSiteInfo s k v).hmk = s.hmk := rfl
@[simp] theorem setSiteInfo_att (k : Nat) (v : SiteInfo) : (setSiteInfo s k v).att = s.att := rfl
@[simp] theorem setSiteInfo_asy (k : Nat) (v : SiteInfo) : (setSiteInfo s k v).asy = s.asy := rfl
@[simp] theorem setSiteInfo_sram (k : Nat) (v : SiteInfo) : (setSiteInfo s k v).sram = s.sram := rfl
@[simp] theorem setSiteInfo_hdrs (k : Nat) (v : SiteInfo) : (setSiteInfo s k v).hdrs = s.hdrs := rfl
@[simp] theorem setSiteInfo_regs (k : Nat) (v : SiteInfo) : (setSiteInfo s k v).regs = s.regs := rfl
@[simp] theorem setSiteInfo_latch (k : Nat) (v : SiteInfo) : (setSiteInfo s k v).latch = s.latch := rfl
@[simp] theorem setSiteInfo_wstage (k : Nat) (v : SiteInfo) : (setSiteInfo s k v).wstage = s.wstage := rfl
@[simp] theorem setSiteInfo_rsp (k : Nat) (v : SiteInfo) : (setSiteInfo s k v).rsp = s.rsp := rfl
@[simp] theorem setSiteInfo_pending (k : Nat) (v : SiteInfo) : (setSiteInfo s k v).pending = s.pending := rfl

/-! `setPlace` writes `asy`. -/
@[simp] theorem setPlace_block (p k : Nat) (v : APlace) : (setPlace s p k v).block = s.block := rfl
@[simp] theorem setPlace_time (p k : Nat) (v : APlace) : (setPlace s p k v).time = s.time := rfl
@[simp] theorem setPlace_free (p k : Nat) (v : APlace) : (setPlace s p k v).free = s.free := rfl
@[simp] theorem setPlace_pins (p k : Nat) (v : APlace) : (setPlace s p k v).pins = s.pins := rfl
@[simp] theorem setPlace_cores (p k : Nat) (v : APlace) : (setPlace s p k v).cores = s.cores := rfl
@[simp] theorem setPlace_tmp (p k : Nat) (v : APlace) : (setPlace s p k v).tmp = s.tmp := rfl
@[simp] theorem setPlace_pwr (p k : Nat) (v : APlace) : (setPlace s p k v).pwr = s.pwr := rfl
@[simp] theorem setPlace_ledger (p k : Nat) (v : APlace) : (setPlace s p k v).ledger = s.ledger := rfl
@[simp] theorem setPlace_cpb (p k : Nat) (v : APlace) : (setPlace s p k v).cpb = s.cpb := rfl
@[simp] theorem setPlace_hip (p k : Nat) (v : APlace) : (setPlace s p k v).hip = s.hip := rfl
@[simp] theorem setPlace_part (p k : Nat) (v : APlace) : (setPlace s p k v).part = s.part := rfl
@[simp] theorem setPlace_epoch (p k : Nat) (v : APlace) : (setPlace s p k v).epoch = s.epoch := rfl
@[simp] theorem setPlace_book (p k : Nat) (v : APlace) : (setPlace s p k v).book = s.book := rfl
@[simp] theorem setPlace_xlat (p k : Nat) (v : APlace) : (setPlace s p k v).xlat = s.xlat := rfl
@[simp] theorem setPlace_xcnt (p k : Nat) (v : APlace) : (setPlace s p k v).xcnt = s.xcnt := rfl
@[simp] theorem setPlace_irq (p k : Nat) (v : APlace) : (setPlace s p k v).irq = s.irq := rfl
@[simp] theorem setPlace_qn (p k : Nat) (v : APlace) : (setPlace s p k v).qn = s.qn := rfl
@[simp] theorem setPlace_qos (p k : Nat) (v : APlace) : (setPlace s p k v).qos = s.qos := rfl
@[simp] theorem setPlace_tl (p k : Nat) (v : APlace) : (setPlace s p k v).tl = s.tl := rfl
@[simp] theorem setPlace_mbox (p k : Nat) (v : APlace) : (setPlace s p k v).mbox = s.mbox := rfl
@[simp] theorem setPlace_fuse (p k : Nat) (v : APlace) : (setPlace s p k v).fuse = s.fuse := rfl
@[simp] theorem setPlace_boot (p k : Nat) (v : APlace) : (setPlace s p k v).boot = s.boot := rfl
@[simp] theorem setPlace_sbox (p k : Nat) (v : APlace) : (setPlace s p k v).sbox = s.sbox := rfl
@[simp] theorem setPlace_anvil (p k : Nat) (v : APlace) : (setPlace s p k v).anvil = s.anvil := rfl
@[simp] theorem setPlace_hash (p k : Nat) (v : APlace) : (setPlace s p k v).hash = s.hash := rfl
@[simp] theorem setPlace_aes (p k : Nat) (v : APlace) : (setPlace s p k v).aes = s.aes := rfl
@[simp] theorem setPlace_rng (p k : Nat) (v : APlace) : (setPlace s p k v).rng = s.rng := rfl
@[simp] theorem setPlace_cvu (p k : Nat) (v : APlace) : (setPlace s p k v).cvu = s.cvu := rfl
@[simp] theorem setPlace_hmk (p k : Nat) (v : APlace) : (setPlace s p k v).hmk = s.hmk := rfl
@[simp] theorem setPlace_att (p k : Nat) (v : APlace) : (setPlace s p k v).att = s.att := rfl
@[simp] theorem setPlace_sram (p k : Nat) (v : APlace) : (setPlace s p k v).sram = s.sram := rfl
@[simp] theorem setPlace_hdrs (p k : Nat) (v : APlace) : (setPlace s p k v).hdrs = s.hdrs := rfl
@[simp] theorem setPlace_regs (p k : Nat) (v : APlace) : (setPlace s p k v).regs = s.regs := rfl
@[simp] theorem setPlace_latch (p k : Nat) (v : APlace) : (setPlace s p k v).latch = s.latch := rfl
@[simp] theorem setPlace_wstage (p k : Nat) (v : APlace) : (setPlace s p k v).wstage = s.wstage := rfl
@[simp] theorem setPlace_rsp (p k : Nat) (v : APlace) : (setPlace s p k v).rsp = s.rsp := rfl
@[simp] theorem setPlace_pending (p k : Nat) (v : APlace) : (setPlace s p k v).pending = s.pending := rfl

/-! `setApart` writes `asy`. -/
@[simp] theorem setApart_block (p : Nat) (v : APart) : (setApart s p v).block = s.block := rfl
@[simp] theorem setApart_time (p : Nat) (v : APart) : (setApart s p v).time = s.time := rfl
@[simp] theorem setApart_free (p : Nat) (v : APart) : (setApart s p v).free = s.free := rfl
@[simp] theorem setApart_pins (p : Nat) (v : APart) : (setApart s p v).pins = s.pins := rfl
@[simp] theorem setApart_cores (p : Nat) (v : APart) : (setApart s p v).cores = s.cores := rfl
@[simp] theorem setApart_tmp (p : Nat) (v : APart) : (setApart s p v).tmp = s.tmp := rfl
@[simp] theorem setApart_pwr (p : Nat) (v : APart) : (setApart s p v).pwr = s.pwr := rfl
@[simp] theorem setApart_ledger (p : Nat) (v : APart) : (setApart s p v).ledger = s.ledger := rfl
@[simp] theorem setApart_cpb (p : Nat) (v : APart) : (setApart s p v).cpb = s.cpb := rfl
@[simp] theorem setApart_hip (p : Nat) (v : APart) : (setApart s p v).hip = s.hip := rfl
@[simp] theorem setApart_part (p : Nat) (v : APart) : (setApart s p v).part = s.part := rfl
@[simp] theorem setApart_epoch (p : Nat) (v : APart) : (setApart s p v).epoch = s.epoch := rfl
@[simp] theorem setApart_book (p : Nat) (v : APart) : (setApart s p v).book = s.book := rfl
@[simp] theorem setApart_xlat (p : Nat) (v : APart) : (setApart s p v).xlat = s.xlat := rfl
@[simp] theorem setApart_xcnt (p : Nat) (v : APart) : (setApart s p v).xcnt = s.xcnt := rfl
@[simp] theorem setApart_irq (p : Nat) (v : APart) : (setApart s p v).irq = s.irq := rfl
@[simp] theorem setApart_qn (p : Nat) (v : APart) : (setApart s p v).qn = s.qn := rfl
@[simp] theorem setApart_qos (p : Nat) (v : APart) : (setApart s p v).qos = s.qos := rfl
@[simp] theorem setApart_tl (p : Nat) (v : APart) : (setApart s p v).tl = s.tl := rfl
@[simp] theorem setApart_mbox (p : Nat) (v : APart) : (setApart s p v).mbox = s.mbox := rfl
@[simp] theorem setApart_fuse (p : Nat) (v : APart) : (setApart s p v).fuse = s.fuse := rfl
@[simp] theorem setApart_boot (p : Nat) (v : APart) : (setApart s p v).boot = s.boot := rfl
@[simp] theorem setApart_sbox (p : Nat) (v : APart) : (setApart s p v).sbox = s.sbox := rfl
@[simp] theorem setApart_anvil (p : Nat) (v : APart) : (setApart s p v).anvil = s.anvil := rfl
@[simp] theorem setApart_hash (p : Nat) (v : APart) : (setApart s p v).hash = s.hash := rfl
@[simp] theorem setApart_aes (p : Nat) (v : APart) : (setApart s p v).aes = s.aes := rfl
@[simp] theorem setApart_rng (p : Nat) (v : APart) : (setApart s p v).rng = s.rng := rfl
@[simp] theorem setApart_cvu (p : Nat) (v : APart) : (setApart s p v).cvu = s.cvu := rfl
@[simp] theorem setApart_hmk (p : Nat) (v : APart) : (setApart s p v).hmk = s.hmk := rfl
@[simp] theorem setApart_att (p : Nat) (v : APart) : (setApart s p v).att = s.att := rfl
@[simp] theorem setApart_sram (p : Nat) (v : APart) : (setApart s p v).sram = s.sram := rfl
@[simp] theorem setApart_hdrs (p : Nat) (v : APart) : (setApart s p v).hdrs = s.hdrs := rfl
@[simp] theorem setApart_regs (p : Nat) (v : APart) : (setApart s p v).regs = s.regs := rfl
@[simp] theorem setApart_latch (p : Nat) (v : APart) : (setApart s p v).latch = s.latch := rfl
@[simp] theorem setApart_wstage (p : Nat) (v : APart) : (setApart s p v).wstage = s.wstage := rfl
@[simp] theorem setApart_rsp (p : Nat) (v : APart) : (setApart s p v).rsp = s.rsp := rfl
@[simp] theorem setApart_pending (p : Nat) (v : APart) : (setApart s p v).pending = s.pending := rfl

/-! `setTap` writes `asy`. -/
@[simp] theorem setTap_block (n : Nat) (t : Tap) : (setTap s n t).block = s.block := rfl
@[simp] theorem setTap_time (n : Nat) (t : Tap) : (setTap s n t).time = s.time := rfl
@[simp] theorem setTap_free (n : Nat) (t : Tap) : (setTap s n t).free = s.free := rfl
@[simp] theorem setTap_pins (n : Nat) (t : Tap) : (setTap s n t).pins = s.pins := rfl
@[simp] theorem setTap_cores (n : Nat) (t : Tap) : (setTap s n t).cores = s.cores := rfl
@[simp] theorem setTap_tmp (n : Nat) (t : Tap) : (setTap s n t).tmp = s.tmp := rfl
@[simp] theorem setTap_pwr (n : Nat) (t : Tap) : (setTap s n t).pwr = s.pwr := rfl
@[simp] theorem setTap_ledger (n : Nat) (t : Tap) : (setTap s n t).ledger = s.ledger := rfl
@[simp] theorem setTap_cpb (n : Nat) (t : Tap) : (setTap s n t).cpb = s.cpb := rfl
@[simp] theorem setTap_hip (n : Nat) (t : Tap) : (setTap s n t).hip = s.hip := rfl
@[simp] theorem setTap_part (n : Nat) (t : Tap) : (setTap s n t).part = s.part := rfl
@[simp] theorem setTap_epoch (n : Nat) (t : Tap) : (setTap s n t).epoch = s.epoch := rfl
@[simp] theorem setTap_book (n : Nat) (t : Tap) : (setTap s n t).book = s.book := rfl
@[simp] theorem setTap_xlat (n : Nat) (t : Tap) : (setTap s n t).xlat = s.xlat := rfl
@[simp] theorem setTap_xcnt (n : Nat) (t : Tap) : (setTap s n t).xcnt = s.xcnt := rfl
@[simp] theorem setTap_irq (n : Nat) (t : Tap) : (setTap s n t).irq = s.irq := rfl
@[simp] theorem setTap_qn (n : Nat) (t : Tap) : (setTap s n t).qn = s.qn := rfl
@[simp] theorem setTap_qos (n : Nat) (t : Tap) : (setTap s n t).qos = s.qos := rfl
@[simp] theorem setTap_tl (n : Nat) (t : Tap) : (setTap s n t).tl = s.tl := rfl
@[simp] theorem setTap_mbox (n : Nat) (t : Tap) : (setTap s n t).mbox = s.mbox := rfl
@[simp] theorem setTap_fuse (n : Nat) (t : Tap) : (setTap s n t).fuse = s.fuse := rfl
@[simp] theorem setTap_boot (n : Nat) (t : Tap) : (setTap s n t).boot = s.boot := rfl
@[simp] theorem setTap_sbox (n : Nat) (t : Tap) : (setTap s n t).sbox = s.sbox := rfl
@[simp] theorem setTap_anvil (n : Nat) (t : Tap) : (setTap s n t).anvil = s.anvil := rfl
@[simp] theorem setTap_hash (n : Nat) (t : Tap) : (setTap s n t).hash = s.hash := rfl
@[simp] theorem setTap_aes (n : Nat) (t : Tap) : (setTap s n t).aes = s.aes := rfl
@[simp] theorem setTap_rng (n : Nat) (t : Tap) : (setTap s n t).rng = s.rng := rfl
@[simp] theorem setTap_cvu (n : Nat) (t : Tap) : (setTap s n t).cvu = s.cvu := rfl
@[simp] theorem setTap_hmk (n : Nat) (t : Tap) : (setTap s n t).hmk = s.hmk := rfl
@[simp] theorem setTap_att (n : Nat) (t : Tap) : (setTap s n t).att = s.att := rfl
@[simp] theorem setTap_sram (n : Nat) (t : Tap) : (setTap s n t).sram = s.sram := rfl
@[simp] theorem setTap_hdrs (n : Nat) (t : Tap) : (setTap s n t).hdrs = s.hdrs := rfl
@[simp] theorem setTap_regs (n : Nat) (t : Tap) : (setTap s n t).regs = s.regs := rfl
@[simp] theorem setTap_latch (n : Nat) (t : Tap) : (setTap s n t).latch = s.latch := rfl
@[simp] theorem setTap_wstage (n : Nat) (t : Tap) : (setTap s n t).wstage = s.wstage := rfl
@[simp] theorem setTap_rsp (n : Nat) (t : Tap) : (setTap s n t).rsp = s.rsp := rfl
@[simp] theorem setTap_pending (n : Nat) (t : Tap) : (setTap s n t).pending = s.pending := rfl

/-! Reading back. -/
@[simp] theorem hdr_setHdr (k : Nat) (v : Hdr) : hdr (setHdr s k v) k = v := smGet_smSet_same _ _ _
theorem hdr_setHdr_other {k j : Nat} (v : Hdr) (h : j ≠ k) : hdr (setHdr s k v) j = hdr s j := smGet_smSet_other_default _ _ h
@[simp] theorem reg_setReg (k : Nat) (v : Word) : reg (setReg s k v) k = v := smGet_smSet_same _ _ _
theorem reg_setReg_other {k j : Nat} (v : Word) (h : j ≠ k) : reg (setReg s k v) j = reg s j := smGet_smSet_other_default _ _ h
@[simp] theorem pshared_setPshared (k : Nat) (v : PShared) : pshared (setPshared s k v) k = v := smGet_smSet_same _ _ _
theorem pshared_setPshared_other {k j : Nat} (v : PShared) (h : j ≠ k) : pshared (setPshared s k v) j = pshared s j := smGet_smSet_other _ _ h
@[simp] theorem rshared_setRshared (k : Nat) (v : RShared) : rshared (setRshared s k v) k = v := smGet_smSet_same _ _ _
theorem rshared_setRshared_other {k j : Nat} (v : RShared) (h : j ≠ k) : rshared (setRshared s k v) j = rshared s j := smGet_smSet_other _ _ h
@[simp] theorem slotOf_setSlot (k : Nat) (v : Slot) : slotOf (setSlot s k v) k = v := smGet_smSet_same _ _ _
theorem slotOf_setSlot_other {k j : Nat} (v : Slot) (h : j ≠ k) : slotOf (setSlot s k v) j = slotOf s j := smGet_smSet_other _ _ h
@[simp] theorem session_setSession (k : Nat) (v : Option Session) : session (setSession s k v) k = v := smGet_smSet_same _ _ _
theorem session_setSession_other {k j : Nat} (v : Option Session) (h : j ≠ k) : session (setSession s k v) j = session s j := smGet_smSet_other _ _ h
@[simp] theorem tdisp_setTdisp (k : Nat) (v : Nat) : tdisp (setTdisp s k v) k = v := smGet_smSet_same _ _ _
theorem tdisp_setTdisp_other {k j : Nat} (v : Nat) (h : j ≠ k) : tdisp (setTdisp s k v) j = tdisp s j := smGet_smSet_other _ _ h
@[simp] theorem xlat_setXlat (k : Nat) (v : Xlat) : xlat (setXlat s k v) k = v := smGet_smSet_same _ _ _
theorem xlat_setXlat_other {k j : Nat} (v : Xlat) (h : j ≠ k) : xlat (setXlat s k v) j = xlat s j := smGet_smSet_other _ _ h
@[simp] theorem bucket_setBucket (k : Nat) (v : Bucket) : bucket (setBucket s k v) k = v := smGet_smSet_same _ _ _
theorem bucket_setBucket_other {k j : Nat} (v : Bucket) (h : j ≠ k) : bucket (setBucket s k v) j = bucket s j := smGet_smSet_other _ _ h
@[simp] theorem tallyValue_setValue (k : Nat) (v : DWord) : tallyValue (setValue s k v) k = v := smGet_smSet_same _ _ _
theorem tallyValue_setValue_other {k j : Nat} (v : DWord) (h : j ≠ k) : tallyValue (setValue s k v) j = tallyValue s j := smGet_smSet_other _ _ h
@[simp] theorem tallyAcl_setAcl (k : Nat) (v : BitVec 7) : tallyAcl (setAcl s k v) k = v := smGet_smSet_same _ _ _
theorem tallyAcl_setAcl_other {k j : Nat} (v : BitVec 7) (h : j ≠ k) : tallyAcl (setAcl s k v) j = tallyAcl s j := smGet_smSet_other _ _ h
@[simp] theorem channel_setChannel (k : Nat) (v : Channel) : channel (setChannel s k v) k = v := smGet_smSet_same _ _ _
theorem channel_setChannel_other {k j : Nat} (v : Channel) (h : j ≠ k) : channel (setChannel s k v) j = channel s j := smGet_smSet_other _ _ h
@[simp] theorem agent_setAgent (k : Nat) (v : Agent) : agent (setAgent s k v) k = v := smGet_smSet_same _ _ _
theorem agent_setAgent_other {k j : Nat} (v : Agent) (h : j ≠ k) : agent (setAgent s k v) j = agent s j := smGet_smSet_other _ _ h
@[simp] theorem hmkPlace_setHmkPlace (k : Nat) (v : HmkPlace) : hmkPlace (setHmkPlace s k v) k = v := smGet_smSet_same _ _ _
theorem hmkPlace_setHmkPlace_other {k j : Nat} (v : HmkPlace) (h : j ≠ k) : hmkPlace (setHmkPlace s k v) j = hmkPlace s j := smGet_smSet_other _ _ h
@[simp] theorem cvu_setCvu (k : Nat) (v : Cvu) : cvu (setCvu s k v) k = v := smGet_smSet_same _ _ _
theorem cvu_setCvu_other {k j : Nat} (v : Cvu) (h : j ≠ k) : cvu (setCvu s k v) j = cvu s j := smGet_smSet_other _ _ h
@[simp] theorem lane_setLane (k : Nat) (v : Lane) : lane (setLane s k v) k = v := smGet_smSet_same _ _ _
theorem lane_setLane_other {k j : Nat} (v : Lane) (h : j ≠ k) : lane (setLane s k v) j = lane s j := smGet_smSet_other _ _ h
@[simp] theorem siteInfo_setSiteInfo (k : Nat) (v : SiteInfo) : siteInfo (setSiteInfo s k v) k = v := smGet_smSet_same _ _ _
theorem siteInfo_setSiteInfo_other {k j : Nat} (v : SiteInfo) (h : j ≠ k) : siteInfo (setSiteInfo s k v) j = siteInfo s j := smGet_smSet_other _ _ h
@[simp] theorem apart_setApart (k : Nat) (v : APart) : apart (setApart s k v) k = v := smGet_smSet_same _ _ _
theorem apart_setApart_other {k j : Nat} (v : APart) (h : j ≠ k) : apart (setApart s k v) j = apart s j := smGet_smSet_other _ _ h

end Sys2Proof.Machine
end

