-- ==== Sys2Proof/Laws/Frame.lean ====
section
/-! SUPPORT. What the shared operations can touch: page events, posts, Ledger records, answers, mailbox replies, SPDM replies, and the sequencers
when they have nothing to do. -/
namespace Sys2Proof.Machine

/-! ## Events touch the page headers, the interrupt logic, HIP and the Master admission -/

/-- The state without what an event touches; HIP may draw the unit whose request goes out. -/
def sansEvents (s : State) : State := { s with hdrs := [], irq := Irq.reset, hip := Hip.reset, qos := Qos.reset, free := 0 }
@[simp] theorem sansEvents_setHdr (s : State) (p : Nat) (h : Hdr) : sansEvents (setHdr s p h) = sansEvents s := rfl
@[simp] theorem sansEvents_setPend (s : State) (p v : Nat) (x : Option Pend) : sansEvents (setPend s p v x) = sansEvents s := rfl
@[simp] theorem sansEvents_setBucket (s : State) (p : Nat) (b : Bucket) : sansEvents (setBucket s p b) = sansEvents s := rfl
@[simp] theorem sansEvents_fwEvent (s : State) (p b : Nat) : sansEvents (fwEvent s p b) = sansEvents s := rfl
@[simp] theorem sansEvents_demote (s : State) (p : Nat) : sansEvents (demote s p) = sansEvents s := rfl
@[simp] theorem sansEvents_masterEnd (s : State) (p : Nat) : sansEvents (masterEnd s p) = sansEvents s := rfl
@[simp] theorem sansEvents_grantMaster (s : State) (p : Nat) : sansEvents (grantMaster s p).2 = sansEvents s := by
  unfold grantMaster; simp only []; split <;> rfl
@[simp] theorem sansEvents_hipIssue (s : State) (u : HipUse) (a l : Nat) (w : Bool) (d : List Byte) :
    sansEvents (hipIssue s u a l w d) = sansEvents s := by
  unfold hipIssue; simp only []; split <;> rfl
@[simp] theorem sansEvents_hipPump (s : State) : sansEvents (hipPump s) = sansEvents s := by
  unfold hipPump; simp only []; repeat' (first | rfl | split)
@[simp] theorem sansEvents_issuePost (s : State) (p v : Nat) (x : Pend) : sansEvents (issuePost s p v x) = sansEvents s := by
  simp [issuePost]
@[simp] theorem sansEvents_postEvent (s : State) (p v c : Nat) (e : Bool) : sansEvents (postEvent s p v c e) = sansEvents s := by
  unfold postEvent; split
  · rfl
  · split
    · rfl
    · split
      · split <;> simp
      · simp
@[simp] theorem sansEvents_notifyPost (s : State) (p v c : Nat) (e m : Bool) : sansEvents (notifyPost s p v c e m) = sansEvents s := by
  unfold notifyPost; split
  · rfl
  · simp only []; split <;> simp
@[simp] theorem sansEvents_winEvent (s : State) (p k b : Nat) : sansEvents (winEvent s p k b) = sansEvents s := by
  unfold winEvent; simp only []; split
  · rfl
  · split
    · split <;> simp
    · simp
@[simp] theorem sansEvents_operEvent (s : State) (k b c : Nat) : sansEvents (operEvent s k b c) = sansEvents s := by
  unfold operEvent; simp only []; split <;> simp
@[simp] theorem sansEvents_topEvent (s : State) (b : Nat) : sansEvents (topEvent s b) = sansEvents s := by
  unfold topEvent; simp only []; split <;> simp
@[simp] theorem sansEvents_chanEvent (s : State) (c b : Nat) : sansEvents (chanEvent s c b) = sansEvents s := by
  unfold chanEvent; split <;> simp
@[simp] theorem sansEvents_rxEvent (s : State) (c : Nat) (m : Bool) : sansEvents (rxEvent s c m) = sansEvents s := by
  unfold rxEvent; split
  · simp
  · split
    · simp only []; split <;> simp
    · simp
@[simp] theorem sansEvents_accErr (s : State) (l : Loc) (p : Nat) (r : Rsp) (o : Nat) : sansEvents (accErr s l p r o) = sansEvents s := by
  unfold accErr; split
  · rfl
  · simp only []; split <;> simp

/-- The block state after an event is the one before. -/
theorem block_of_sansEvents {s t : State} (h : sansEvents t = sansEvents s) : t.block = s.block := by
  have := congrArg State.block h
  exact this

/-! ## Records touch the Ledger as well -/

/-- The state without what a record touches. -/
def sansRecords (s : State) : State := { sansEvents s with ledger := Ledger.reset }
theorem sansRecords_of_sansEvents {s t : State} (h : sansEvents t = sansEvents s) : sansRecords t = sansRecords s := by
  unfold sansRecords; rw [h]
@[simp] theorem sansRecords_ledgerPut (s : State) (r : LRec) : sansRecords (ledgerPut s r) = sansRecords s := rfl
theorem sansEvents_foldl_winEvent (ps : List Nat) (s : State) :
    sansEvents (ps.foldl (fun t p => if pstate t p = .free then t else winEvent t p 6 1) s) = sansEvents s := by
  induction ps generalizing s with
  | nil => rfl
  | cons p ps ih => rw [List.foldl_cons, ih]; split <;> simp
@[simp] theorem sansEvents_ledgerNew (s : State) (p c : Nat) : sansEvents (ledgerNew s p c) = sansEvents s := by
  unfold ledgerNew; simp only []; split
  · rw [sansEvents_foldl_winEvent]; simp
  · split <;> simp
@[simp] theorem sansRecords_record (s : State) (e p v c a b d : Nat) : sansRecords (record s e p v c a b d) = sansRecords s := by
  unfold record; split
  · rfl
  · exact (sansRecords_of_sansEvents (sansEvents_ledgerNew ..)).trans rfl
/-- A stopped Ledger takes no record (R493). -/
theorem record_stopped (s : State) (e p v c a b d : Nat) (h : s.ledger.mode = .stopped) :
    record s e p v c a b d = { s with ledger := { s.ledger with discarded := satAdd 65535 s.ledger.discarded 1 } } := by
  unfold record; rw [h]

/-! ## Answers touch `rsp`, or wait for their grid point -/

/-- The answer of an access is given at once, or held for a sealed partition (R347). -/
theorem respond_cases (s : State) (src : Src) (r : Rsp) (d : List DWord) :
    (sealed s (srcPid src) = false ∧ respond s src r d = answer s r d (srcId src)) ∨
    (sealed s (srcPid src) = true ∧ respond s src r d =
      { s with qos := { s.qos with held := s.qos.held ++ [{ pid := srcPid src, eff := .hcp r d (srcId src), master := false }] } }) := by
  unfold respond; split <;> simp_all
/-- A refused access touches its answer, the page events, and the Ledger. -/
theorem refuse_frame (s : State) (src : Src) (l : Loc) (a : Nat) (r : Rsp) (n : Nat) :
    { sansRecords (refuse s src l a r n) with rsp := none } = { sansRecords s with rsp := none } := by
  have h : { sansRecords (respond s src r (List.replicate n 0)) with rsp := none } = { sansRecords s with rsp := none } := by
    unfold respond; split <;> rfl
  have acc : ∀ (t : State) p, sansRecords (accErr t l p r l.off) = sansRecords t := fun t p => sansRecords_of_sansEvents (by simp)
  unfold refuse; cases r <;> cases src <;> cases l <;> simp only [] <;> first | exact h | (simp only [sansRecords_record]; exact h) | (rw [acc]; exact h)

/-! ## Replies touch the mailboxes and their events -/

/-- The state without what a mailbox message touches. -/
def sansReplies (s : State) : State := { sansEvents s with mbox := Mbox.reset }
theorem sansReplies_of_sansEvents {s t : State} (h : sansEvents t = sansEvents s) : sansReplies t = sansReplies s := by
  unfold sansReplies; rw [h]
@[simp] theorem sansReplies_setChannel (s : State) (c : Nat) (v : Channel) : sansReplies (setChannel s c v) = sansReplies s := rfl
@[simp] theorem sansReplies_rxHead (s : State) (c : Nat) : sansReplies (rxHead s c) = sansReplies s := by
  unfold rxHead; simp only []; split
  · rfl
  · split
    · rw [sansReplies_of_sansEvents (sansEvents_masterEnd ..), sansReplies_of_sansEvents (sansEvents_rxEvent ..)]; simp
    · rw [sansReplies_of_sansEvents (sansEvents_rxEvent ..)]; simp
@[simp] theorem sansReplies_rxPut (s : State) (c : Nat) (f : RxFrame) : sansReplies (rxPut s c f) = sansReplies s := by
  unfold rxPut; simp only []; split <;> simp
@[simp] theorem sansReplies_rxPump (n : Nat) (s : State) (c : Nat) : sansReplies (rxPump n s c) = sansReplies s := by
  induction n generalizing s with
  | zero => rfl
  | succ n ih =>
    unfold rxPump; simp only []; split
    · rfl
    · split
      · rw [ih]; simp
      · rfl
@[simp] theorem sansReplies_queueFrames (s : State) (c : Nat) (fs : List RxFrame) : sansReplies (queueFrames s c fs) = sansReplies s := by
  unfold queueFrames; simp
@[simp] theorem sansReplies_queueMessage (s : State) (c code cls tag : Nat) (b : List Word) (a : Bool) :
    sansReplies (queueMessage s c code cls tag b a) = sansReplies s := by
  unfold queueMessage; simp only []; split
  · rfl
  · simp
@[simp] theorem sansReplies_reply (s : State) (c tag code : Nat) (b : List Word) : sansReplies (reply s c tag code b) = sansReplies s := by
  unfold reply; split <;> simp
@[simp] theorem sansReplies_replyCode (s : State) (c tag code r : Nat) : sansReplies (replyCode s c tag code r) = sansReplies s := by
  simp [replyCode]
@[simp] theorem sansReplies_replyError (s : State) (c tag st code : Nat) : sansReplies (replyError s c tag st code) = sansReplies s := by
  unfold replyError; split <;> simp
@[simp] theorem sansReplies_inboxDrop (s : State) (c tag code : Nat) : sansReplies (inboxDrop s c tag code) = sansReplies s := rfl
/-- A reply leaves sessions, keys and identities alone. -/
@[simp] theorem reply_att (s : State) (c tag code : Nat) (b : List Word) : (reply s c tag code b).att = s.att := by
  have := congrArg State.att (sansReplies_reply s c tag code b)
  exact this

/-- An SPDM reply notes its answer and may keep the rest of a large one (R239, R240): it touches no session, key, stream or TDISP state. -/
theorem spdmReply_att (s : State) (c tag : Nat) (r : SpdmRsp) :
    ∃ ch, (spdmReply s c tag r).att = { s.att with answers := ((c, tag, r) :: s.att.answers).take 16, chunks := ch } := by
  unfold spdmReply; simp only []; split <;> simp [noteAnswer, drew]

/-! ## The sequencers -/

/-- Where no sequencer has anything to do, settling changes nothing. -/
theorem settle_quiet (s : State) (h : quiet s = true) (hb : s.block ≠ .sleep) : settle s = s := by
  unfold settle; split
  · simp [settleLive, h]
  · simp [settleLive, h]
  · simp [settleLive, h]
  · exact absurd ‹_› hb
  · rfl

end Sys2Proof.Machine
end

