-- ==== Sys2Proof/Laws/Prog.lean ====
section
/-! SUPPORT. Assay programs: what every instruction row does once its run stands at it, and how the registers of a context read after
they are written. -/
namespace Sys2Proof.Machine

/-- Everything that the row of an instruction can do at an instruction of its opcode, when the meters allow it. -/
theorem progRow_at {s : State} {pid : Byte} {k : BitVec 2} {op : Nat} {o : AOp} {c : Ctx} {p : Prog} (h : atIns s pid k op o c p)
    (m : PMode) (f : AOp → Ctx → PIns → Nat → PRes) :
    progRow pid k op m f s = .next (
      if !m.vec && !c.guard (insNow c p) 0 then goesOn s pid k o (metered c op)
      else if m.draw then
        match drbgGrant s false with
        | none => opAbort s pid.toNat k.toNat { o with ctx := some (metered c op) } 7
        | some s1 => progApply (drew s1 m.nfree) pid.toNat k.toNat o (metered c op) (f o (metered c op) (insNow c p) s1.free)
      else progApply (drew s m.nfree) pid.toNat k.toNat o (metered c op) (f o (metered c op) (insNow c p) s.free)) := by
  obtain ⟨h1, h2, h3, h4, h5, h6, h7, h8, h9⟩ := h
  have e1 : ¬ (c.fuel < c.used + insCost op) := by omega
  have e2 : ¬ ((decide (c.handler ≠ 3) && decide (handlerFuel p < c.hUsed + insCost op)) = true) := by
    rcases h9 with h9 | h9
    · simp [h9]
    · have : ¬ (handlerFuel p < c.hUsed + insCost op) := by omega
      simp [this]
  have e3 : ¬ ((decide (c.handler = 0) || decide (objWords p.obj ≤ c.pc) || decide ((objIns p.obj c.pc).op ≠ op)) = true) := by
    have : ¬ (objWords p.obj ≤ c.pc) := by omega
    unfold insNow at h7
    simp [h5, this, h7]
  unfold progRow progStep
  simp only [h1, if_true, h2, h3, h4]
  exact congrArg _ ((if_neg e3).trans ((if_neg e1).trans ((if_neg e2).trans rfl)))

/-- A row whose opcode changes the context alone. -/
theorem progRow_ctx {s : State} {pid : Byte} {k : BitVec 2} {op : Nat} {o : AOp} {c : Ctx} {p : Prog} (h : atIns s pid k op o c p)
    (m : PMode) (f : Ctx → PIns → Ctx) (hd : m.draw = false) (hn : m.nfree = 0)
    (hg : m.vec = true ∨ c.guard (insNow c p) 0 = true) :
    progRow pid k op m (onCtx f) s = .next (goesOn s pid k o (f (metered c op) (insNow c p))) := by
  rw [progRow_at h]
  have : (!m.vec && !c.guard (insNow c p) 0) = false := by rcases hg with e | e <;> simp [e]
  simp only [this, hd, hn, Bool.false_eq_true, if_false]
  rfl

theorem sGet_sSet (c : Ctx) (r q : Nat) (w : DWord) :
    (c.sSet r w).sGet q = if q = r then (if r = 0 then 0 else w) else c.sGet q := by
  unfold Ctx.sSet Ctx.sGet
  by_cases hr : r = 0
  · subst hr; by_cases hq : q = 0 <;> simp [hq]
  · by_cases hq : q = r
    · subst hq; simp [hr]
    · simp only [hr, if_false, hq]
      by_cases h0 : q = 0
      · simp [h0]
      · simp [h0, smGet_smSet_other _ _ hq]

theorem pGet_pSet (c : Ctx) (r q : Nat) (w : DWord) :
    (c.pSet r w).pGet q = if q = r then (if r = 0 then BitVec.allOnes 64 else w) else c.pGet q := by
  unfold Ctx.pSet Ctx.pGet
  by_cases hr : r = 0
  · subst hr; by_cases hq : q = 0 <;> simp [hq]
  · by_cases hq : q = r
    · subst hq; simp [hr]
    · simp only [hr, if_false, hq]
      by_cases h0 : q = 0
      · simp [h0]
      · simp [h0, smGet_smSet_other _ _ hq]

theorem sSet_others (c : Ctx) (r : Nat) (w : DWord) : c.sSet r w = { c with s := (c.sSet r w).s } := by
  unfold Ctx.sSet; split <;> rfl
theorem pSet_others (c : Ctx) (r : Nat) (w : DWord) : c.pSet r w = { c with p := (c.pSet r w).p } := by
  unfold Ctx.pSet; split <;> rfl

/-- Lanes written one after the other: each written lane takes its value, every other one keeps its own. -/
theorem vWrite_fold (i : PIns) (g : Nat → Bool) (f : Nat → Word) (l : List Nat) (hl : l.Nodup) (d : Ctx)
    (hb : ∀ x ∈ l, x < 64) (r q : Nat) (hq : q < 64) :
    (l.foldl (fun d l => if g l then d.vSet i.rd l (f l) else d) d).vGet r q =
      if r = i.rd ∧ q ∈ l ∧ g q = true then f q else d.vGet r q := by
  induction l generalizing d with
  | nil => simp
  | cons x l ih =>
    have hx : x < 64 := hb x (by simp)
    simp only [List.nodup_cons] at hl
    rw [List.foldl_cons, ih hl.2 _ (fun y hy => hb y (by simp [hy]))]
    by_cases h1 : r = i.rd ∧ q ∈ l ∧ g q = true
    · simp [h1]
    · rw [if_neg h1]
      by_cases hqx : q = x
      · subst hqx
        by_cases hg : g q = true
        · by_cases hr : r = i.rd
          · subst hr; simp [hg, Ctx.vSet, Ctx.vGet]
          · simp only [hg, if_true, hr, false_and, if_false]
            simp only [Ctx.vSet, Ctx.vGet]
            rw [smGet_smSet_other _ _ (by omega)]
        · simp [hg]
      · have : (if r = i.rd ∧ q ∈ x :: l ∧ g q = true then f q else d.vGet r q) = d.vGet r q := by
          rw [if_neg]
          intro ⟨a, b, c⟩
          simp [hqx] at b
          exact h1 ⟨a, b, c⟩
        rw [this]
        split
        · simp only [Ctx.vSet, Ctx.vGet]; rw [smGet_smSet_other _ _ (by omega)]
        · rfl

/-- A lane of a written vector (R450). -/
theorem vGet_vWrite (c : Ctx) (i : PIns) (f : Nat → Word) (r l : Nat) (hl : l < 64) :
    (c.vWrite i f).vGet r l = if r = i.rd ∧ c.guard i l = true then f l else c.vGet r l := by
  unfold Ctx.vWrite
  rw [vWrite_fold i (c.guard i) f lanes (by simp [lanes, List.nodup_range]) c (by simp [lanes]) r l hl]
  simp [lanes, hl]

theorem vWrite_others (c : Ctx) (i : PIns) (f : Nat → Word) : c.vWrite i f = { c with v := (c.vWrite i f).v } := by
  unfold Ctx.vWrite
  suffices ∀ (g : Nat → Bool) (l : List Nat) (d : Ctx), d = { c with v := d.v } →
      l.foldl (fun d l => if g l then d.vSet i.rd l (f l) else d) d =
        { c with v := (l.foldl (fun d l => if g l then d.vSet i.rd l (f l) else d) d).v } from this (c.guard i) lanes c rfl
  intro g l
  induction l with
  | nil => intro d hd; exact hd
  | cons x l ih =>
    intro d hd
    rw [List.foldl_cons]
    apply ih
    split
    · rw [hd]; rfl
    · exact hd

end Sys2Proof.Machine
end

