-- ==== Sys2Proof/Laws/Units.lean ====
section
/-! SUPPORT. What the shared operations of the entropy pool, the DRBG, the derivation lanes and the table copies can do. -/
namespace Sys2Proof.Machine

/-! ## The entropy pool and the DRBG touch `rng` and the count of free values -/

/-- The state without what the entropy source and the DRBG touch. -/
def sansRng (s : State) : State := { s with rng := Rng.reset, free := 0 }
@[simp] theorem sansRng_poolFill (s : State) (n : Nat) : sansRng (poolFill s n) = sansRng s := rfl
@[simp] theorem sansRng_poolRefill (s : State) : sansRng (poolRefill s) = sansRng s := by
  unfold poolRefill; split <;> rfl
@[simp] theorem sansRng_takeBlocks (s : State) (n : Nat) : sansRng (takeBlocks s n) = sansRng s :=
  sansRng_poolRefill s
@[simp] theorem sansRng_reseed (s : State) : sansRng (reseed s) = sansRng s := sansRng_takeBlocks s 3

@[simp] theorem poolFill_length (s : State) (n : Nat) : (poolFill s n).rng.pool.length = s.rng.pool.length + n := by
  simp [poolFill, drew]
/-- A pool that holds no more than its 256 blocks holds no more after it has refilled (R214). -/
theorem poolRefill_length (s : State) (h : s.rng.pool.length ≤ poolSize) : (poolRefill s).rng.pool.length ≤ poolSize := by
  unfold poolRefill; split
  · exact h
  · have room : ∀ k, k ≤ poolSize - s.rng.pool.length → (poolFill s k).rng.pool.length ≤ poolSize := by
      intro k hk; rw [poolFill_length]; omega
    exact room _ (Nat.min_le_left ..)

/-- Everything that a grant can be: without a reseed the count of generate requests goes up; with one it starts again at 1, and
nothing but the source's own state changes. -/
theorem drbgGrant_cases {s t : State} {pr : Bool} (h : drbgGrant s pr = some t) :
    s.rng.dead = false ∧ sansRng t = sansRng s ∧
    ((reseedDue s pr = false ∧ t = { s with rng := { s.rng with genCount := s.rng.genCount + 1 } }) ∨
     (reseedDue s pr = true ∧ s.rng.es ≠ 2 ∧ t.rng.genCount = 1 ∧ t.rng.lastSeed = (takeBlocks s 3).time)) := by
  unfold drbgGrant at h
  split at h
  · cases h
  · rename_i hd
    refine ⟨by simpa using hd, ?_⟩
    split at h
    · split at h
      · cases h
      · cases h; exact ⟨sansRng_reseed s, .inr ⟨‹_›, ‹_›, rfl, rfl⟩⟩
    · rename_i hr; cases h; exact ⟨rfl, .inl ⟨by simpa using hr, rfl⟩⟩
/-- A DRBG whose state the Shutter erased grants nothing (R181). -/
theorem drbgGrant_dead (s : State) (pr : Bool) (h : s.rng.dead = true) : drbgGrant s pr = none := by simp [drbgGrant, h]
/-- With the source ended, a request that needs a reseed fails (R216, R217). -/
theorem drbgGrant_failed (s : State) (pr : Bool) (h : s.rng.es = 2) (hr : reseedDue s pr = true) : drbgGrant s pr = none := by
  simp [drbgGrant, h, hr]
@[simp] theorem drbgBytes_length (base n : Nat) : (drbgBytes base n).length = n := by simp [drbgBytes]

/-! ## Derivation lanes touch the lanes and the Strongbox's ports (R209) -/

@[simp] theorem sboxPort_setSboxPort (s : State) (w : Who) (p : SboxPort) : sboxPort (setSboxPort s w p) w = p := by
  simp [sboxPort, setSboxPort]
theorem deriveLane_cases (s : State) : (deriveLane s).2 = s ∨ (deriveLane s).2 = drew s := by
  unfold deriveLane; simp only []; split
  · exact .inl rfl
  · exact .inr rfl
/-- A derivation that has taken a lane leaves it in its shadow context and is noted at its port. -/
theorem takeLane_lane (s : State) (w : Who) :
    (lane (takeLane s w) (deriveLane s).1).shadow = true ∧ (sboxPort (takeLane s w) w).lane = some (deriveLane s).1 := by
  unfold takeLane; simp only []
  constructor
  · exact congrArg Lane.shadow (lane_setLane (deriveLane s).2 (deriveLane s).1 _)
  · simp
/-- The end of a derivation gives its lane the open message back. -/
theorem freeLane_lane (s : State) (w : Who) (n : Nat) (h : (sboxPort s w).lane = some n) :
    lane (freeLane s w) n = { lane s n with shadow := false } := by
  unfold freeLane; rw [h]; exact lane_setLane s n _
/-- A port without a lane has nothing to give back. -/
theorem freeLane_none (s : State) (w : Who) (h : (sboxPort s w).lane = none) : freeLane s w = s := by
  unfold freeLane; rw [h]

/-! ## Table copies (R53, R55, R56) -/

/-- The key of a table word names one word: the index has 20 bits and the selector 4. -/
theorem tblKey_inj {a b c d i j : Nat} (hc : c < 16) (hd : d < 16) (hi : i < 2 ^ 20) (hj : j < 2 ^ 20)
    (h : tblKey a c i = tblKey b d j) : a = b ∧ c = d ∧ i = j := by
  unfold tblKey at h; omega
@[simp] theorem shadowWord_setShadow (s : State) (a sel i : Nat) (w : Word) :
    shadowWord (setShadow s a sel i w) a sel i = w := by simp [shadowWord, setShadow]
@[simp] theorem liveWord_setShadow (s : State) (a b sel tel i j : Nat) (w : Word) :
    liveWord (setShadow s a sel i w) b tel j = liveWord s b tel j := rfl
/-- An acknowledged frame touches the copies of tables alone, and only TBL_WRITE, PREPARE and FENCE do. -/
theorem tableAck_frame (s : State) (f : Frame) :
    ∃ sh lv tb, tableAck s f = { s with part := { s.part with shadow := sh, live := lv, tabled := tb } } := by
  unfold tableAck; simp only []; split
  · exact ⟨_, _, _, rfl⟩
  · split <;> exact ⟨_, _, _, rfl⟩
  · exact ⟨_, _, _, rfl⟩
  · exact ⟨_, _, _, rfl⟩

/-! ## How a request arrives (R37, R40) -/

/-- Everything that the arrival of a request can be. -/
theorem arrive_cases (s : State) (src : Src) (k : State → State) (beats : Nat) :
    arrive s src k beats = s ∨ (s.block = .sleep ∧ arrive s src k beats = respond s src .edown (List.replicate beats 0)) ∨
    arrive s src k beats = k s := by
  unfold arrive; split
  · split
    · exact .inl rfl
    · split
      · exact .inr (.inl ⟨‹_›, rfl⟩)
      · exact .inr (.inr rfl)
  · exact .inr (.inr rfl)
/-- A request that is taken outside SLEEP goes on to what it asks for. -/
theorem arrive_taken (s : State) (src : Src) (k : State → State) (beats : Nat) (h : hcpTakes s = true) (hb : s.block ≠ .sleep) :
    arrive s src k beats = k s := by
  unfold arrive; split <;> simp [h, hb]

end Sys2Proof.Machine
end

