-- ==== Sys2Proof/Tests/Slice0.lean ====
section
/-! SUPPORT. Tests: ill-formed terms that WellFormed refuses, one step of commands on small states, and a witness for the hypotheses of every
statement. What a test expects is read from the spec's rules and tables. -/
set_option Elab.async false
namespace Sys2Proof.Tests
open Sys2Proof Sys2Proof.Machine

/-! ## Small states -/

/-- The state that an outcome goes on to. -/
def nx (o : Host.Outcome State Fault Refusal) : State := match o with | .next t => t | _ => State.reset
/-- The outcome is a next state. -/
def ran (o : Host.Outcome State Fault Refusal) : Bool := match o with | .next _ => true | _ => false
/-- KX3 in RUN with its service cores released, nothing placed. -/
def run : State :=
  { State.reset with
    block := .run, cores := { Cores.reset with released := 0xE }, boot := { Boot.reset with pos := .done, journalOk := true },
    rng := { State.reset.rng with es := 0 } }
/-- KX3 in BOOT before the service cores run. -/
def booting : State := { State.reset with block := .boot, boot := { Boot.reset with pos := .jtag, journalOk := true } }
/-- `run` with partition 2 in a state. Its entry has Tallies 100 to 115, 8 vectors and site 1; it is in the active bank. -/
def part2 (st : PState) : State :=
  { run with part := { run.part with
      pshared := [(2, { pshareReset with state := st })]
      active := { run.part.active with pw := [(32, 0x80000000), (33, 1000), (34, 409616), (35, 0x05000008), (36, 2)] } } }
/-- HCP tags of partition 2 and of the operator, in generation 0. -/
def tag2 : BitVec 24 := 0x020000
def tag1 : BitVec 24 := 0x010000

/-! ## Assay programs (Table 16-3) -/

/-- An object of one instruction and an END, local memory of 512 bytes, HANDLER_FUEL 20, INIT at 0, BLOCK at 1, CLOSE at 1. -/
def obj (w : Nat) : List Byte :=
  List.replicate 8 0 ++ [2, 0, 0, 0, 1, 0, 1, 0, 0, 2, 0, 0, 20, 0, 0, 0] ++ List.replicate 40 0 ++ leBytes 8 w ++ [0, 0, 0, 0, 0, 0, 0, 1]
/-- The word of an instruction: opcode, rd 3, ra 1, rb 2, and its low 38 bits. -/
def word (op : Nat) (low : Nat := 0) : Nat := op * 2 ^ 56 + 3 * 2 ^ 50 + 1 * 2 ^ 44 + 2 * 2 ^ 38 + low
def prg (w : Nat) : Prog := { pid := 2, handle := 1, obj := obj w, digest := [] }
/-- A context in BLOCK: S1 = -3, S2 = 5, P1 = bit 0 alone, V1 and V2 with lane 0 at -2 and 7, the tile entry T1[0] at 9. -/
def ctx (fuel : Nat := 100) : Ctx :=
  { v := [(64, 0xFFFFFFFE), (128, 7)], s := [(1, 0xFFFFFFFFFFFFFFFD), (2, 5)], p := [(1, 1), (2, 0)], t := [(256, 9)], floor := [], flags := 0,
    stack := [], lm := [(8, 0x2A)], lmSize := 512, handler := 2, initDone := true, pc := 0,
    cur := some { tensor := 1, block := 0, port := 0, half := 2, data := [5, 0, 0, 0] }, presented := 0, fuel := fuel, used := 0, hUsed := 0,
    verdict := none, words := [], cause := 0 }
def aop (c : Ctx) : AOp :=
  { opno := 0, trig := 0, tally := none, kind := 0x80, desc := [], bandsE := 0, gen := 0, cost := 0, opened := 0, closedAt := 0, stage := 0,
    autoC := false, byAuto := false, byAct := false, sampled := true, untapped := false, tapFault := false, noDraw := false, wbase := 0,
    blocks := [], gaps := [], fed := [], handle := 1, cls := 1, queue := [], ctx := some c }
/-- A run of partition 2 in place 0 that stands at an instruction. -/
def running (w : Nat) (c : Ctx := ctx) : State :=
  { run with asy := { run.asy with
      progs := [prg w], places := [(8, { op := some (aop c), verdict := 0, valid := false, bandsE := 0, opno := 0 })] } }
/-- The context that the step leaves. -/
def after (i : Instr) (w : Nat) (c : Ctx := ctx) : Ctx :=
  match (opAt (nx (exec i (running w c))) 2 0).bind (fun o => o.ctx) with | some d => d | none => ctx 0

/-- The run has ended: its place is free and shows ABORTED. -/
def ended (i : Instr) (w : Nat) (c : Ctx := ctx) : Bool :=
  let v := place (nx (exec i (running w c))) 2 0
  v.op.isNone && v.valid && decide (v.verdict = 7)

/-- The hypotheses of the statements about instructions hold of a run at every opcode. -/
theorem atIns_every_opcode : ∀ x ∈ (singleOps ++ laneOps).map (fun x => x.2),
    atIns (running (word x)) 2 0 x (aop ctx) ctx (prg (word x)) := by unfold atIns; decide +kernel
theorem guard_holds_and_fails : ctx.guard (insOf (word 0x10)) 0 = true ∧ ctx.guard (insOf (word 0x10 (2 * 2 ^ 35))) 0 = false := by decide
theorem atIns_guard_fails : ∀ x ∈ singleOps.map (fun x => x.2),
    atIns (running (word x (2 * 2 ^ 35))) 2 0 x (aop ctx) ctx (prg (word x (2 * 2 ^ 35))) ∧
      ctx.guard (insNow ctx (prg (word x (2 * 2 ^ 35)))) 0 = false := by unfold atIns; decide +kernel
/-- Fuel: one unit short of the run's, and one short of the handler's. -/
theorem fuel_short : ∀ x ∈ (singleOps ++ laneOps).map (fun x => x.2),
    (ctx (insCost x - 1)).fuel < ctx.used + insCost x ∧ handlerFuel (prg (word x)) < 20 + insCost x ∧ 20 + insCost x ≤ ctx.fuel := by
  decide +kernel
theorem test_fuel_ends_run : ended (.sadd 2 0) (word 0x10) (ctx 0) = true := by decide +kernel
theorem test_handler_fuel_ends_run : ended (.sadd 2 0) (word 0x10) { ctx with used := 20, hUsed := 20 } = true := by decide +kernel
theorem test_guard_skips : after (.sadd 2 0) (word 0x10 (2 * 2 ^ 35)) = { ctx with used := 1, hUsed := 1, pc := 1 } := by decide +kernel

theorem test_sadd : (after (.sadd 2 0) (word 0x10)).sGet 3 = 2 := by decide +kernel
theorem test_ssub : (after (.ssub 2 0) (word 0x11)).sGet 3 = -8 := by decide +kernel
theorem test_smul : (after (.smul 2 0) (word 0x12)).sGet 3 = -15 := by decide +kernel
theorem test_sand : (after (.sand 2 0) (word 0x13)).sGet 3 = 5 := by decide +kernel
theorem test_sor : (after (.sor 2 0) (word 0x14)).sGet 3 = -3 := by decide +kernel
theorem test_sxor : (after (.sxor 2 0) (word 0x15)).sGet 3 = -8 := by decide +kernel
theorem test_sshl : (after (.sshl 2 0) (word 0x16)).sGet 3 = -96 := by decide +kernel
theorem test_sshr : (after (.sshr 2 0) (word 0x17)).sGet 3 = 0x07FFFFFFFFFFFFFF := by decide +kernel
theorem test_ssra : (after (.ssra 2 0) (word 0x18)).sGet 3 = -1 := by decide +kernel
theorem test_smin : (after (.smin 2 0) (word 0x19)).sGet 3 = -3 := by decide +kernel
theorem test_smax : (after (.smax 2 0) (word 0x1A)).sGet 3 = 5 := by decide +kernel
theorem test_smov : (after (.smov 2 0) (word 0x1B)).sGet 3 = 5 := by decide +kernel
theorem test_scmpeq : (after (.scmpeq 2 0) (word 0x1C)).pGet 3 = 0 := by decide +kernel
theorem test_scmplt : (after (.scmplt 2 0) (word 0x1D)).pGet 3 = BitVec.allOnes 64 := by decide +kernel
theorem test_scmpltu : (after (.scmpltu 2 0) (word 0x1E)).pGet 3 = 0 := by decide +kernel
theorem test_shi : (after (.shi 2 0) (word 0x1F 9)).sGet 3 = 0x900000000 := by decide +kernel
theorem test_s0_discards : (after (.smov 2 0) (0x1B * 2 ^ 56 + 2 * 2 ^ 38)).sGet 0 = 0 := by decide +kernel
theorem test_pand : (after (.pand 2 0) (word 0x48)).pGet 3 = 0 := by decide +kernel
theorem test_por : (after (.por 2 0) (word 0x49)).pGet 3 = 1 := by decide +kernel
theorem test_pnot : (after (.pnot 2 0) (word 0x4A)).pGet 3 = 0xFFFFFFFFFFFFFFFE := by decide +kernel
theorem test_p0_discards : (after (.pnot 2 0) (0x4A * 2 ^ 56 + 1 * 2 ^ 44)).pGet 0 = BitVec.allOnes 64 := by decide +kernel
theorem test_nop : after (.nop 2 0) (word 0x00) = { ctx with used := 1, hUsed := 1, pc := 1 } := by decide +kernel
theorem test_br : (after (.br 2 0) (word 0x02 1)).pc = 1 := by decide +kernel
theorem test_call : (after (.call 2 0) (word 0x03 1)).stack = [1] := by decide +kernel
theorem test_call_full : ended (.call 2 0) (word 0x03 1) { ctx with stack := [1, 1, 1, 1, 1, 1, 1, 1] } = true := by decide +kernel
theorem test_ret : (after (.ret 2 0) (word 0x04) { ctx with stack := [7] }).pc = 7 := by decide +kernel
theorem test_ret_empty : ended (.ret 2 0) (word 0x04) = true := by decide +kernel
theorem test_loop : (after (.loop 2 0) (word 0x05)).pc = 0 ∧ (after (.loop 2 0) (word 0x05) { ctx with s := [(1, 1)] }).pc = 1 := by decide +kernel
theorem test_loop_s0 : (after (.loop 2 0) (0x05 * 2 ^ 56)).pc = 1 := by decide +kernel
theorem test_sflag : (after (.sflag 2 0) (word 0x09) { ctx with flags := 12 }).sGet 3 = 12 := by decide +kernel
theorem test_fclr : (after (.fclr 2 0) (word 0x0A) { ctx with flags := 12 }).flags = 0 := by decide +kernel
theorem test_verdict : (after (.verdict 2 0) (word 0x06 1) { ctx with handler := 3 }).verdict = some 1 := by decide +kernel
theorem test_verdict_outside_close : ended (.verdict 2 0) (word 0x06 1) = true := by decide +kernel
theorem test_emit : smGet none (after (.emit 2 0) (word 0x07 2) { ctx with handler := 3, s := [(3, 5)] }).words 2 = some 5 := by decide +kernel
theorem test_binfo : (after (.binfo 2 0) (word 0x08 2)).sGet 3 = 2 ∧ (after (.binfo 2 0) (word 0x08 0)).sGet 3 = 1 := by decide +kernel
theorem test_end_of_block : after (.endH 2 0) (word 0x01) =
    { ctx with used := 1, hUsed := 1, pc := 1, handler := 0, cur := none, presented := 1 } := by decide +kernel
theorem test_end_without_verdict : ended (.endH 2 0) (word 0x01) { ctx with handler := 3 } = true := by decide +kernel
theorem test_handler_invoke_init : after (.handlerInvoke 2 0) (word 0x00) { ctx with handler := 0, initDone := false, hUsed := 9 } =
    { ctx with handler := 1, initDone := false, pc := 0, hUsed := 0 } := by decide +kernel
theorem test_slice_yield : nx (exec (.sliceYield 2 0) run) = run := by decide +kernel

theorem test_vadd : (after (.vadd 2 0) (word 0x30)).vGet 3 0 = 5 ∧ (after (.vadd 2 0) (word 0x30)).vGet 3 1 = 0 := by decide +kernel
theorem test_vsub : (after (.vsub 2 0) (word 0x31)).vGet 3 0 = -9 := by decide +kernel
theorem test_vmul : (after (.vmul 2 0) (word 0x32)).vGet 3 0 = -14 := by decide +kernel
theorem test_vmin : (after (.vmin 2 0) (word 0x34)).vGet 3 0 = -2 := by decide +kernel
theorem test_vmax : (after (.vmax 2 0) (word 0x35)).vGet 3 0 = 7 := by decide +kernel
theorem test_vabs : (after (.vabs 2 0) (word 0x36)).vGet 3 0 = 2 := by decide +kernel
theorem test_vneg : (after (.vneg 2 0) (word 0x37)).vGet 3 0 = 2 := by decide +kernel
theorem test_vand : (after (.vand 2 0) (word 0x38)).vGet 3 0 = 6 := by decide +kernel
theorem test_vor : (after (.vor 2 0) (word 0x39)).vGet 3 0 = -1 := by decide +kernel
theorem test_vxor : (after (.vxor 2 0) (word 0x3A)).vGet 3 0 = -7 := by decide +kernel
theorem test_vshl : (after (.vshl 2 0) (word 0x3B)).vGet 3 0 = -256 := by decide +kernel
theorem test_vsra : (after (.vsra 2 0) (word 0x3C)).vGet 3 0 = -1 := by decide +kernel
theorem test_vmov_guarded : (after (.vmov 2 0) (word 0x3E (1 * 2 ^ 35))).vGet 3 0 = 7 ∧
    (after (.vmov 2 0) (word 0x3E (2 * 2 ^ 35))).vGet 3 0 = 0 := by decide +kernel
theorem test_vidx : (after (.vidx 2 0) (word 0x3F 10)).vGet 3 63 = 73 := by decide +kernel
theorem test_vrsum : (after (.vrsum 2 0) (word 0x47)).sGet 3 = -2 := by decide +kernel
theorem test_vcmpeq : (after (.vcmpeq 2 0) (word 0x40)).pGet 3 = 0xFFFFFFFFFFFFFFFE := by decide +kernel
theorem test_vcmplt : (after (.vcmplt 2 0) (word 0x41)).pGet 3 = 1 := by decide +kernel
theorem test_vcmple : (after (.vcmple 2 0) (word 0x42)).pGet 3 = BitVec.allOnes 64 := by decide +kernel
/-- 1.5 * 2 + 1 = 4; P1 guards lane 0 alone. -/
def fctx : Ctx := { ctx with v := [(64, 0x3FC00000), (128, 0x40000000), (192, 0x3F800000)] }
theorem test_vfma : (after (.vfma 2 0) (word 0x33 (2 ^ 35 + 2 ^ 32)) fctx).vGet 3 0 = 0x40800000 := by decide +kernel
theorem test_vadd_float : (after (.vadd 2 0) (word 0x30 (2 ^ 35 + 2 ^ 32)) fctx).vGet 3 0 = 0x40600000 := by decide +kernel
theorem test_vcvt : (after (.vcvt 2 0) (word 0x3D (2 ^ 35 + 2 ^ 32))).vGet 3 0 = 0xC0000000 ∧ (after (.vcvt 2 0) (word 0x3D (2 ^ 35)) fctx).vGet 3 0 = 1 := by
  decide +kernel
theorem test_vexp2_of_infinity : (after (.vexp2 2 0) (word 0x43 (2 ^ 35 + 2 ^ 32)) { fctx with v := [(64, 0x7F800000)] }).vGet 3 0 = 0x7F800000 := by decide +kernel
theorem test_vrcp_of_zero : (after (.vrcp 2 0) (word 0x44 (2 ^ 35 + 2 ^ 32)) { fctx with v := [] }).vGet 3 0 = 0x7F800000 := by decide +kernel
theorem test_vscl : (after (.vscl 2 0) (word 0x46 (2 ^ 35)) { fctx with v := [(64, 0x3FC00000), (128, 128)] }).vGet 3 0 = 0x40400000 := by decide +kernel
theorem test_sld : (after (.sld 2 0) (word 0x20 8) { ctx with s := [] }).sGet 3 = 0x2A := by decide +kernel
theorem test_sld_outside : ended (.sld 2 0) (word 0x20 8) = true := by decide +kernel
theorem test_sst : (after (.sst 2 0) (word 0x21 16) { ctx with s := [(3, 0x1234)] }).lmByte 17 = 0x12 := by decide +kernel
theorem test_vld : (after (.vld 2 0) (word 0x22) { ctx with s := [] }).vGet 3 2 = 0x2A := by decide +kernel
theorem test_vst : (after (.vst 2 0) (word 0x23 256) { ctx with s := [], v := [(192 + 63, 0xABCD)] }).lmByte (256 + 253) = 0xAB := by decide +kernel
theorem test_vldb : (after (.vldb 2 0) (word 0x24) { ctx with s := [], lm := [(8, 0xFE)] }).vGet 3 8 = -2 := by decide +kernel
theorem test_bld : (after (.bld 2 0) (word 0x25)).vGet 3 0 = 5 := by decide +kernel

theorem test_tzero : (after (.tzero 2 0) (word 0x50) { ctx with t := [(768, 4)] }).t = [] := by decide +kernel
theorem test_tfloor : (after (.tfloor 2 0) (word 0x51 0xFFFFFFF0)).floorOf 3 = -16 := by decide +kernel
theorem test_tmma : (after (.tmma 2 0) (word 0x52)).tGet 3 0 = -14 := by decide +kernel
theorem test_tacc : (after (.tacc 2 0) (word 0x53 5)).tGet 3 5 = -2 := by decide +kernel
theorem test_tred : (after (.tred 2 0) (0x54 * 2 ^ 56 + 1 * 2 ^ 50) { ctx with t := [(256, 9), (300, 4)] }).t = [(256, 13)] := by decide +kernel
theorem test_tget : (after (.tget 2 0) (word 0x55 (1 * 256))).sGet 3 = 4 := by decide +kernel
theorem test_tget_saturates : (after (.tget 2 0) (word 0x55) { ctx with t := [(256, 2 ^ 70)] }).sGet 3 = 0x7FFFFFFFFFFFFFFF := by decide +kernel
theorem test_tsgn : (after (.tsgn 2 0) (word 0x56) { ctx with t := [(256, -4)] }).sGet 3 = -1 := by decide +kernel
theorem test_tmov : (after (.tmov 2 0) (word 0x57)).tGet 3 0 = 9 := by decide +kernel
theorem test_tsub : (after (.tsub 2 0) (word 0x58)).tGet 3 0 = -9 := by decide +kernel
theorem test_tsub_floors : (after (.tsub 2 0) (word 0x58) { ctx with floor := [(1, 4)] }).flags = 1 := by decide +kernel
theorem test_tmac : (after (.tmac 2 0) (word 0x59 200)).tGet 3 200 = -14 := by decide +kernel
theorem test_tile_wraps : (after (.tmma 2 0) (word 0x52) { ctx with t := [(768, -(2 ^ 191))] }).flags = 16 := by decide +kernel
theorem draws_granted_and_not : (drbgGrant { run with rng := { run.rng with es := 0 } } false).isSome = true ∧
    drbgGrant { run with rng := { run.rng with dead := true } } false = none := by decide +kernel

/-! ## Witnesses for the statements' hypotheses: Assay programs -/

theorem witness_types_and_targets :
    (insOf (word 0x30)).ty = 0 ∧ (insOf (word 0x30 (2 ^ 32))).ty = 1 ∧ (insOf (word 0x40)).rd ≠ 0 ∧
    (∀ op ∈ [0x30, 0x33, 0x36, 0x3D, 0x40, 0x43, 0x53],
      atIns (running (word op (2 ^ 32))) 2 0 op (aop ctx) ctx (prg (word op (2 ^ 32)))) := by unfold atIns; decide +kernel
theorem witness_controlOps : ctx.stack.length < 8 ∧ ({ ctx with stack := [7] } : Ctx).stack = 7 :: [] ∧ (insOf (word 5)).ra ≠ 0 ∧
    (insOf (5 * 2 ^ 56)).ra = 0 ∧ atIns (running (5 * 2 ^ 56)) 2 0 5 (aop ctx) ctx (prg (5 * 2 ^ 56)) ∧
    8 ≤ ({ ctx with stack := [1, 1, 1, 1, 1, 1, 1, 1] } : Ctx).stack.length := by unfold atIns; decide +kernel
/-- A place before INIT, before BLOCK with a block waiting, before CLOSE, and with nothing to do. -/
def idleCtx (d : Bool) : Ctx := { ctx with handler := 0, initDone := d, cur := none }
def fed : Fed := { tensor := 1, block := 0, port := 0, half := 2, data := [] }
theorem witness_handlerInvoke : serving (running 0 (idleCtx false)) = true ∧
    opAt (running 0 (idleCtx false)) 2 0 = some (aop (idleCtx false)) ∧ progOf (running 0 (idleCtx false)) 2 1 = some (prg 0) ∧
    (aop (idleCtx false)).sampled = true ∧ objEntry (prg 0).obj 0 ≠ 0xFFFF ∧ objEntry (prg 0).obj 1 ≠ 0xFFFF ∧
    ({ aop (idleCtx true) with queue := [fed] } : AOp).queue = fed :: [] ∧ ({ aop (idleCtx true) with stage := 2 } : AOp).stage = 2 ∧
    (aop (idleCtx true)).queue = [] ∧ (aop (idleCtx true)).stage < 2 := by decide +kernel
/-- CLOSE, for VERDICT, EMIT and END. -/
def closing : Ctx := { ctx with handler := 3 }
theorem witness_handlerOps : closing.verdict = none ∧ (insOf (word 6 1)).imm ∈ [0, 1, 2, 3, 5] ∧ (insOf (word 6 4)).imm ∉ [0, 1, 2, 3, 5] ∧
    (∀ op ∈ [6, 7, 1], atIns (running (word op 1) closing) 2 0 op (aop closing) closing (prg (word op 1))) ∧
    ctx.handler = 2 ∧ ctx.cur.isSome = true ∧ ({ ctx with handler := 1 } : Ctx).handler = 1 ∧
    atIns (running (word 1) { ctx with handler := 1 }) 2 0 1 (aop { ctx with handler := 1 }) { ctx with handler := 1 } (prg (word 1)) := by
  unfold atIns; decide +kernel
/-- Local memory of 512 bytes: the last place that fits each size, and the first that does not. -/
theorem witness_localMemory : ∀ x ∈ [(0x20, 504, 8, 8), (0x21, 504, 8, 8), (0x22, 256, 256, 4), (0x23, 256, 256, 4), (0x24, 448, 64, 1)],
    x.2.1 % x.2.2.2 = 0 ∧ x.2.1 + x.2.2.1 ≤ ctx.lmSize ∧ ¬ (x.2.1 + x.2.2.2 + x.2.2.1 ≤ ctx.lmSize) ∧
    (let c : Ctx := { ctx with s := [(1, BitVec.ofNat 64 x.2.1)] }
     atIns (running (word x.1) c) 2 0 x.1 (aop c) c (prg (word x.1)) ∧ (c.sGet 1 + BitVec.ofInt 64 (insOf (word x.1)).simm).toNat = x.2.1) := by
  unfold atIns; decide +kernel
theorem witness_tile_ops : ctx.floorOf 3 = ctx.floorOf 1 ∧ ({ ctx with floor := [(1, 4)] } : Ctx).floorOf 3 ≠ ({ ctx with floor := [(1, 4)] } : Ctx).floorOf 1 ∧
    (∀ x ∈ ([(2 ^ 63 - 1, true, false), (2 ^ 63, false, false), (-(2 ^ 63), true, false), (-(2 ^ 63) - 1, false, true)] : List (Int × Bool × Bool)),
      let c : Ctx := { ctx with t := [(256, x.1)] }
      atIns (running (word 0x55) c) 2 0 0x55 (aop c) c (prg (word 0x55)) ∧
      let n : Int := (c.tGet 1 0) / (2 ^ ((insOf (word 0x55)).imm / 256 % 256) : Nat)
      decide (-(2 ^ 63) ≤ n ∧ n < 2 ^ 63) = x.2.1 ∧ decide (n < -(2 ^ 63)) = x.2.2) := by unfold atIns; decide +kernel
theorem witness_vscl_lanes : (w32 (2 ^ 32 - 1873)).toInt = -1873 ∧ (w32 254).toInt = 254 ∧ (w32 255).toInt = 255 := by decide +kernel

/-! ## Witnesses: Tallies, mailboxes, requests -/

/-- A request of the WSP waits on a channel. -/
def withReq (s : State) (c tag code cls : Nat) (body : List Word) : State :=
  setChannel s c { channel s c with version := some (1, 0), outst := [{ tag := tag, code := code, cls := cls, master := false }],
                                    inbox := [(tag, code, cls, body)] }
def armed (s : State) (t e thr st : Nat) : State := setEntry s t e { thr := BitVec.ofNat 64 thr, action := 0, arg := 0, state := st, seq := 3 }
def valued (s : State) (t v : Nat) : State := { s with tl := { s.tl with value := smSet 0 s.tl.value t (BitVec.ofNat 64 v) } }
def p2 : State := part2 .running
theorem witness_tallySlotOps : ∀ x ∈ [(8, 0), (12, 1), (0, 2)],
    slotPasses p2 (.hcp tag2 0) 5 x.1 x.2 105 ∧ slotPasses p2 (.hcp tag2 0) 15 x.1 x.2 115 ∧ slotPasses p2 (.fab .sc1) 16383 x.1 x.2 16383 := by
  unfold slotPasses passes; decide +kernel
theorem slot_beyond_count : tallyOfSlot p2 2 16 = none := by decide +kernel
/-- TL_SEL names entry 1 of Tally 105. -/
def tlSel (src : Src) : State := setReg (setReg p2 ((tlRegs src).base + 0x40) (if (tlRegs src).fw then 0x10069 else 0x10005)) ((tlRegs src).base + 0x44) 0
theorem witness_tallyCommands : ∀ src ∈ [Src.hcp tag2 0, .fab .sc2], tlTally (tlSel src) src = some 105 ∧ tlEntry (tlSel src) src = 1 ∧
    entryOk (tlSel src) src 105 = true ∧ badWait (tlSel src) (tallyOwner (tlSel src) 105) (reg (tlSel src) ((tlRegs src).base + 0x44)) = false ∧
    (waitEntry (tlSel src) 105 1).state ≠ 1 ∧ (waitEntry (armed (tlSel src) 105 1 9 1) 105 1).state = 1 ∧
    (tallyAcl (tlSel src) 105).getLsbD 4 = false ∧ (tallyAcl (setAcl (tlSel src) 105 0x3F) 105).getLsbD 4 = true := by decide +kernel
theorem witness_tallyPages : pagePasses (tlSel (.hcp tag2 0)) (.hcp tag2 0) 2 0x54 ∧ pagePasses (tlSel (.fab .sc2)) (.fab .sc2) 0xF 0x54 := by
  unfold pagePasses passes; decide +kernel
theorem witness_tallyClear : ∀ x ∈ [(0, 1, 0), (100, 16, 2), (16383, 1, 65)],
    let s := setReg (setReg p2 (whoKey .sc1 0xF060) (w32 (x.1 + x.2.1 * 65536))) (whoKey .sc1 0xF064) (w32 x.2.2)
    fld (reg s (whoKey .sc1 0xF060)) 13 0 = x.1 ∧ fld (reg s (whoKey .sc1 0xF060)) 27 16 = x.2.1 ∧ fld (reg s (whoKey .sc1 0xF064)) 7 0 = x.2.2 ∧
    fabOk s .sc1 = true ∧ x.1 + x.2.1 ≤ 16384 ∧ (x.2.2 = 0 ∨ tenant x.2.2 = true) := by decide +kernel
theorem test_signal_fires : (waitEntry (nx (exec (.tallySignal (.hcp tag2 0) 5) (armed p2 105 0 1 1))) 105 0).state = 2 ∧
    (waitEntry (nx (exec (.tallySignal (.hcp tag2 0) 5) (armed p2 105 0 2 1))) 105 0).state = 1 := by decide +kernel
theorem test_add_saturates : tallyValue (nx (exec (.tallyAdd (.hcp tag2 0) 5 3) (valued p2 105 (2 ^ 64 - 2)))) 105 = 0xFFFFFFFFFFFFFFFF := by decide +kernel
theorem test_set : tallyValue (nx (exec (.tallySet (.hcp tag2 0) 5 77) p2)) 105 = 77 := by decide +kernel
theorem test_wait_at_once : (waitEntry (nx (exec (.tlWait (.fab .sc2)) (tlSel (.fab .sc2)))) 105 1).state = 2 := by decide +kernel
theorem test_cancel : (waitEntry (nx (exec (.tlCancel (.fab .sc2)) (armed (tlSel (.fab .sc2)) 105 1 9 1))) 105 1).state = 3 := by decide +kernel
theorem test_tl_read : reg (nx (exec (.tlRead (.fab .sc2)) (armed (tlSel (.fab .sc2)) 105 1 9 1))) ((tlRegs (.fab .sc2)).base + 0x48) = 9 := by decide +kernel
theorem test_set_acl_locked : tallyAcl (nx (exec (.tlSetAcl (.hcp tag2 0)) (setAcl (tlSel (.hcp tag2 0)) 105 0x3F))) 105 = 0x3F := by decide +kernel
theorem test_tl_clear : tallyValue (nx (exec (.tlClear .sc1) (setReg (valued p2 100 5) (whoKey .sc1 0xF060) 0x10064))) 100 = 0 := by decide +kernel

/-- A channel with a queue. -/
def chan (s : State) (c : Nat) (f : Channel → Channel) : State := setChannel s c (f (channel s c))
def head5 (n : Nat) : Word := mkHeader 3 1 0 n 5
theorem witness_mailboxes : ∀ x ∈ [(Chan.priv 2, tag2), (.oper 3, tag1)],
    let c := x.1.num
    passes p2 (.hcp x.2 0) (chanLoc c 0x100) true ∧ passes p2 (.hcp x.2 0) (chanLoc c 0x200) false ∧ passes p2 (.hcp x.2 0) (chanLoc c 0x48) false ∧
    strobedWords [(BitVec.ofNat 64 ((head5 1).toNat + 7 * 2 ^ 32), 0xFF)] = some [head5 1, 7] ∧
    wholeFrames (txLen p2 c) (queueSize c) 3 [head5 1, 7] = true ∧ (channel p2 c).tx.length + 2 ≤ queueSize c ∧
    (let full := chan p2 c (fun v => { v with tx := List.replicate (queueSize c - 1) 0 })
     queueSize c < (channel full c).tx.length + 2 ∧ passes full (.hcp x.2 0) (chanLoc c 0x100) true) ∧
    headFrame (rxLen c) (channel p2 c).rx = [] ∧
    (let one := chan p2 c (fun v => { v with rx := [head5 1, 7] })
     headFrame (rxLen c) (channel one c).rx = [head5 1, 7] ∧ (channel one c).replies = []) ∧
    (let two := chan p2 c (fun v => { v with rx := [head5 1, 7, head5 0] })
     (channel two c).rx = headFrame (rxLen c) (channel two c).rx ++ head5 0 :: [] ∧ (headFrame (rxLen c) (channel two c).rx).length = 2) ∧
    (channel (chan p2 c (fun v => { v with notes := [4, 5] })) c).notes = 4 :: [5] ∧ (channel p2 c).notes = [] := by
  unfold passes; decide +kernel
theorem witness_channelReset : ∀ n ∈ [(0 : BitVec 2), 3], passes p2 (.hcp tag1 0) (.oper (n.toNat + 1) 8) true := by unfold passes; decide +kernel
/-- MBF_SEL of SC2. -/
def mbf (n : Nat) (s : State := p2) : State := setReg s (whoKey .sc2 0x10040) (w32 n)
theorem witness_mbf : ∀ n ∈ [0, 63, 64, 67], fabOk (mbf n) .sc2 = true ∧ mbfSel (mbf n) .sc2 < 68 ∧ (channel (mbf n) n).replies = [] ∧
    operChan n = decide (64 ≤ n) ∧ (channel (mbf n) n).tx = [] ∧ resetReq (mbf n) n = false ∧
    wholeFrames (rxLen n) (queueSize n) 3 [head5 1, 7] = true ∧ (channel (mbf n) n).rx.length + 2 ≤ queueSize n ∧
    (channel (mbf n (chan p2 n (fun v => { v with tx := [head5 1, 7] }))) n).tx = head5 1 :: [7] ∧
    queueSize n < (channel (mbf n (chan p2 n (fun v => { v with rx := List.replicate (queueSize n - 1) 0 }))) n).rx.length + 2 := by decide +kernel
theorem test_tx_write : (channel (nx (exec (.mbTxWrite (.hcp tag2 0) (.priv 2) [(BitVec.ofNat 64 ((head5 1).toNat + 7 * 2 ^ 32), 0xFF)]) p2)) 0).tx = [head5 1, 7] := by
  decide +kernel
theorem test_rx_read_whole_frame : (channel (nx (exec (.mbRxRead (.hcp tag2 0) (.priv 2) 0) (chan p2 0 (fun v => { v with rx := [head5 1, 7, head5 0] })))) 0).rx =
    [head5 0] ∧ (channel (nx (exec (.mbRxRead (.hcp tag2 0) (.priv 2) 1) (chan p2 0 (fun v => { v with rx := [head5 1, 7, head5 0] })))) 0).rx.length = 3 := by
  decide +kernel
theorem test_note_read : (nx (exec (.mbNoteRead (.hcp tag2 0) (.priv 2)) (chan p2 0 (fun v => { v with notes := [4, 5] })))).rsp =
    some { code := .ok, data := [0x400000000] } := by decide +kernel
theorem test_mbf_take : (mbPort (nx (exec (.mbfTake .sc2) (mbf 0 (chan p2 0 (fun v => { v with tx := [head5 1, 7] }))))) .sc2).frame = [head5 1, 7] := by
  decide +kernel
theorem test_mbf_rx : (channel (nx (exec (.mbfRxAppend .sc2 [head5 1, 7]) (mbf 0))) 0).rx = [head5 1, 7] := by decide +kernel
theorem test_mbf_version : (channel (nx (exec (.mbfVersionWrite .sc2 0x10203) (mbf 0))) 0).version = some (2, 3) := by decide +kernel

/-- Tag 5 is outstanding. -/
def waiting5 (c : Nat) : State := withReq p2 c 5 3 1 []
theorem witness_channelRequests : ∀ c ∈ [0, 64, 67],
    (channel (waiting5 c) c).outst.find? (fun o => decide (o.tag = 5)) = some { tag := 5, code := 3, cls := 1, master := false } ∧
    sealed (waiting5 c) (chanPid c) = false ∧ (channel (waiting5 c) c).replies = [] ∧ resetReq (waiting5 c) c = false ∧
    (channel (waiting5 c) c).rx.length + 2 < queueSize c ∧
    queueSize c ≤ (channel (chan (waiting5 c) c (fun v => { v with rx := List.replicate (queueSize c - 2) 0 })) c).rx.length + 2 ∧
    (channel (waiting5 c) c).outst.any (fun o => decide (o.tag = 6)) = false ∧ (channel (waiting5 c) c).outst.any (fun o => decide (o.tag = 5)) = true ∧
    (channel (waiting5 c) c).outst.length < outstMax c ∧ (channel (waiting5 c) c).version ≠ none ∧ (channel p2 c).version = none ∧
    outstMax c ≤ (channel (chan p2 c (fun v => { v with outst := List.replicate 16 { tag := 9, code := 3, cls := 1, master := false } })) c).outst.length ∧
    wspTable.find? (fun r => r.1 = 3) = some (3, 3) ∧ chanPermits 3 c = true ∧ wspTable.find? (fun r => r.1 = 0x999) = none := by decide +kernel
theorem witness_channelRule : wspTable.find? (fun r => r.1 = 0x0102) = some (0x0102, 2) ∧ chanPermits 2 0 = false := by decide
/-- Partition 2 sealed (word 0 of its entry). -/
def sealed2 : State := { p2 with part := { p2.part with active := { p2.part.active with pw := smSet 0 p2.part.active.pw 32 0xC0000000 } } }
theorem witness_sealedReply : sealed sealed2 2 = true ∧
    (channel (withReq sealed2 0 5 3 1 []) 0).outst.find? (fun o => decide (o.tag = 5)) = some { tag := 5, code := 3, cls := 1, master := false } := by decide +kernel

/-! ## Witnesses: Hallmark places, partitions, epochs, the buses -/

def place0 (v : HmkPlace) (s : State := p2) : State := setHmkPlace s 0 v
def inWindow (s : State) : State := { s with epoch := { s.epoch with window := true } }
theorem witness_hallmarkPlaces : fabOk p2 .sc1 = true ∧ p2.epoch.window = false ∧ (inWindow p2).epoch.window = true ∧
    (hmkPlace p2 0).held = false ∧ (hmkPlace (place0 (hmkSnapshot p2 2)) 0).held = true ∧ hmkPidOk p2 2 = true ∧ hmkPidOk p2 1 = true ∧
    hmkPidOk p2 0 = false ∧ hmkPidOk p2 66 = false ∧ p2.hmk.sel = 0 ∧ p2.att.preps.all (fun p => decide (p.place ≠ 0)) = true ∧
    (hmkPlace (place0 (hmkSnapshot p2 2)) 0).assembling = true ∧ (hmkPlace p2 3).assembling = false ∧
    (hmkPlace (place0 { hmkSnapshot p2 2 with stale := true }) 0).stale = true := by decide +kernel
theorem test_hmk_take : (hmkPlace (nx (exec (.hmkTake .sc1 2) p2)) 0).pid = 2 ∧ (nx (exec (.hmkTake .sc1 2) (inWindow p2))).hmk.result = 1 := by decide +kernel
theorem test_hmk_release_stale : (nx (exec (.hmkRelease .sc1) (place0 { hmkSnapshot p2 2 with stale := true }))).hmk.staleCnt = 1 ∧
    (nx (exec (.hmkRelease .sc1) (place0 (hmkSnapshot p2 2)))).hmk.issued = 1 := by decide +kernel
theorem test_hmk_limit : (hmkPlace (nx (exec (.hmkAssembleLimit 0) (place0 (hmkSnapshot p2 2)))) 0).stale = true := by decide +kernel

/-- Past the first 5 ms, and within them with a hold on GEN 1 of PID 2. -/
def late2 : State := { p2 with time := 555556 }
def left1 : State := { p2 with time := 555555, part := { p2.part with holds := [(2, 1)] } }
theorem witness_partitionCommands : tenant 1 = false ∧ tenant 2 = true ∧ tenant 65 = true ∧ tenant 66 = false ∧ PState.ofNum 6 = none ∧
    PState.ofNum 7 = none ∧ PState.ofNum 5 = some .retiring ∧ pstate p2 2 ≠ .retiring ∧ genPermits late2 2 (((pshared late2 2).gen + 1) % 64) = true ∧
    genPermits left1 2 (((pshared left1 2).gen + 1) % 64) = false ∧ left1.part.holds.contains (2, 1) = true ∧
    p2.part.holds.all (fun h => decide (h.1 ≠ 2)) = true ∧ fabOk left1 .sc1 = true := by decide +kernel
theorem test_set_state : pstate (nx (exec (.setState .sc1 2 1) p2)) 2 = .configured := by decide +kernel
theorem test_gen_step_and_hold : genOf (nx (exec (.genStep .sc1 2) late2)) 2 = 1 ∧ (nx (exec (.genStep .sc1 2) left1)).part.partWait = 1 ∧
    genOf (nx (exec (.genStep .sc1 2) left1)) 2 = 0 := by decide +kernel

/-- EPOCH_STAGED names version 7 with EP 1; EPOCH_LIST one entry at 0. -/
def staged7 (e : Epoch → Epoch := id) : State :=
  let s := setReg (setReg p2 0xA044 0x80010007) 0xA054 1
  { s with epoch := e s.epoch }
theorem witness_epochCommands : fabOk (settle (staged7)) .sc1 = true ∧ (settle staged7).epoch.running = false ∧ (settle staged7).epoch.phase = .idle ∧
    stageOk (settle staged7) = true ∧ stageOk (settle p2) = false ∧
    epochList (settle staged7) = some [{ kind := 0, sel := 0, agent := 0, index := 0, data := 0 }] ∧
    epochList (settle (setReg staged7 0xA054 0)) = none ∧ stageOk (settle (setReg staged7 0xA054 0)) = true := by decide +kernel
theorem witness_epochPhases : ∀ ph ∈ [EPhase.prepared, .prepareHalt],
    let s := staged7 (fun e => { e with phase := ph })
    (settle s).epoch.phase = ph ∧ (settle s).epoch.running = false ∧ fabOk (settle s) .sc1 = true ∧
    epochList (settle s) = some [{ kind := 0, sel := 0, agent := 0, index := 0, data := 0 }] ∧
    epochList (settle (setReg s 0xA054 65537)) = none := by decide +kernel
/-- An agent that has not answered its PREPARE. -/
def preparing : State :=
  let f : Frame := { agent := 5, op := 2, payload := 0, use := .epoch }
  { staged7 (fun e => { e with phase := .preparing, running := true, agents := [5] }) with
    cpb := { p2.cpb with flights := [{ frame := f, seq := 0, resends := 0, released := false }] } }
theorem witness_epochRunning : (settle preparing).epoch.running = true ∧ fabOk (settle preparing) .sc1 = true := by decide +kernel
theorem witness_epochEnd : let s := staged7 (fun e => { e with phase := .closing, running := true })
    s.epoch.phase = .closing ∧ cpbIdle s .epoch = true ∧ s.epoch.prepFailed = false ∧
    (staged7 (fun e => { e with phase := .committing })).epoch.phase = .committing := by decide +kernel
theorem test_banks_exchange : (pollEpoch (staged7 (fun e => { e with phase := .closing, running := true }))).epoch.curVersion = 7 ∧
    (pollEpoch (staged7 (fun e => { e with phase := .closing, running := true }))).part.staged = p2.part.active := by decide +kernel

/-- Agent 5 is present; SC1 has a PROBE outstanding to it, or whatever the frame is. -/
def onBus (op : Nat := 12) (use : CpbUse := .cmd 1) (resends : Nat := 0) (payload : BitVec 56 := 0) : State :=
  { p2 with cpb := { p2.cpb with
      agents := [(5, { agentReset with present := true })]
      flights := [{ frame := { agent := 5, op := op, payload := payload, use := use }, seq := 9, resends := resends, released := false }]
      ports := [(1, { cpbPortReset with busy := true })] } }
/-- An answer of agent 5 to SEQ 9. -/
def answer5 (op : Nat) : BitVec 128 :=
  let hi := 5 * 2 ^ 86 + op * 2 ^ 80 + 9 * 2 ^ 56
  BitVec.ofNat 128 (hi * 2 ^ 32 + (frameCrc 5 9 hi).toNat)
theorem witness_cpbReply : (flightOf onBus (answer5 0x20)).isSome = true ∧ (flightOf onBus (answer5 0x21)).isSome = true ∧
    flightOf onBus (answer5 0x1F) = none ∧ flightOf onBus (answer5 0x25) = none ∧ onBus.cpb.waiting = [] ∧
    (flightOf (onBus 12 .quiesce) (answer5 0x20)).isSome = true := by decide +kernel
theorem witness_cpbTimeout : p2.cpb.flights.find? (fun x => decide (x.frame.agent = 5)) = none ∧
    ∀ n ∈ [0, 2], (onBus 12 (.cmd 1) n).cpb.flights.find? (fun x => decide (x.frame.agent = 5)) =
      some { frame := { agent := 5, op := 12, payload := 0, use := .cmd 1 }, seq := 9, resends := n, released := false } := by decide +kernel
/-- A post of vector 3 of PID 2 outstanding on HIP, or refused before. -/
def posted (refused : Bool) : State :=
  { p2 with irq := { p2.irq with pend := [(515, some { cls := 1, inFlight := true, refused := refused })] }
            hip := { p2.hip with out := [{ id := 0, use := .post 2 3, addr := 0, len := 8, write := true, data := [], sub := 0 }] } }
theorem witness_hipResponse : p2.hip.out.find? (fun r => decide (r.id = 0)) = none ∧
    ∀ b, (posted b).hip.out.find? (fun r => decide (r.id = 0)) = some { id := 0, use := .post 2 3, addr := 0, len := 8, write := true, data := [], sub := 0 } ∧
      pendOf (posted b) 2 3 = some { cls := 1, inFlight := true, refused := b } ∧ (posted b).hip.waiting = [] := by decide +kernel
/-- The post of vector 3 has been refused and waits. -/
def unposted : State := { p2 with irq := { p2.irq with pend := [(515, some { cls := 1, inFlight := false, refused := true })] } }
theorem witness_postRetry : pendOf unposted 2 3 = some { cls := 1, inFlight := false, refused := true } ∧ pstate unposted 2 ≠ .quenching ∧
    unposted.hip.out.length < 64 ∧ pendOf p2 2 3 = none := by decide +kernel
/-- CPB_SEL of SC1 names agent 5. -/
def cpbTo5 (s : State) : State := setReg s (whoKey .sc1 0x15044) 5
def present5 : State := cpbTo5 { p2 with cpb := { p2.cpb with agents := [(5, { agentReset with present := true })] } }
theorem witness_cpbCmd : fabOk present5 .sc1 = true ∧ (cpbPort present5 1).busy = false ∧ (cpbPort (cpbTo5 onBus) 1).busy = true ∧
    cpbCmdRefused present5 12 (cpbSel present5 .sc1) (cpbPay present5 .sc1).toNat = none ∧
    cpbCmdRefused p2 9 (cpbSel p2 .sc1) (cpbPay p2 .sc1).toNat = some 7 ∧
    drainFrame { agent := 5, op := 12, payload := 0, use := .cmd 1 } = false ∧
    present5.cpb.flights.any (fun x => decide (x.frame.agent = cpbSel present5 .sc1)) = false ∧
    frameBarred present5 { agent := 5, op := 12, payload := 0, use := .cmd 1 } = false ∧
    (let s := cpbTo5 (onBus 12 .quiesce)
     (cpbPort { s with cpb := { s.cpb with ports := [] } } 1).busy = false ∧ s.cpb.flights.any (fun x => decide (x.frame.agent = cpbSel s .sc1)) = true) ∧
    drainFrame { agent := 5, op := 0x0B, payload := 0, use := .cmd 1 } = true ∧ (onBus 0x0B).cpb.waiting = [] := by decide +kernel
theorem test_cpb_reply_nak : (cpbPort (nx (exec (.cpbReply (answer5 0x21)) onBus)) 1).result = 1 ∧
    (cpbPort (nx (exec (.cpbReply (answer5 0x21)) onBus)) 1).busy = false := by decide +kernel
theorem test_cpb_resend : (nx (exec (.cpbReplyTimeout 5) onBus)).cpb.retryCnt = 1 ∧
    (nx (exec (.cpbReplyTimeout 5) onBus)).cpb.flights.map (fun x => x.resends) = [1] := by decide +kernel
theorem test_post_response : pendOf (nx (exec (.hipResponse 0 0 []) (posted false))) 2 3 = none ∧
    (pendOf (nx (exec (.hipResponse 0 3 []) (posted false))) 2 3).isSome = true := by decide +kernel
theorem test_post_retry : (nx (exec (.postRetry 2 3) unposted)).hip.out.length = 1 := by decide +kernel
theorem test_cpb_abandon : (nx (exec (.cpbAbandon .sc1) (onBus 0x0B))).cpb.flights = [] := by decide +kernel

/-! ## Witnesses: resets, starts, sites, power, tamper, faults, registers -/

def bootAt (pos : BootAt) (f : Boot → Boot := id) : State := { booting with boot := f { booting.boot with pos := pos } }
theorem witness_resets : booting.block = .boot ∧ booting.boot.hostWait = false ∧ run.block ≠ .boot ∧ State.reset.block = .reset ∧
    run.block ≠ .reset ∧ (bootAt (.offer 2) (fun b => { b with hostWait := true })).boot.hostWait = true := by decide +kernel
/-- A blank chip in SENSE. -/
def sensing : State := { State.reset with block := .sense }
/-- A read of a cell that may be either. -/
theorem witness_sense : sensing.block = .sense ∧ badServiceCores 0 < 2 ∧ badServiceCores 0b1110 = 3 ∧ (0b0001 : BitVec 4).getLsbD 0 = true ∧
    (0b1110 : BitVec 4).getLsbD 0 = false := by decide +kernel
theorem test_por_keeps_fuses : let s := { run with time := 9, fuse := { run.fuse with cells := [(0x100, 5)] }, tmp := { run.tmp with alarm := true } }
    fuseCells (nx (exec .kxPorNAssert s)) 0x100 = 5 ∧ (nx (exec .kxPorNAssert s)).time = 0 ∧ (nx (exec .kxRstNAssert s)).time = 9 ∧
    (nx (exec .kxRstNAssert s)).tmp.alarm = true ∧ (nx (exec .kxPorNAssert s)).tmp.alarm = false := by decide +kernel
theorem test_reset_exit : (nx (exec .resetExit State.reset)).block = .sense ∧ (nx (exec .resetExit State.reset)).pins.xspiResetN = true := by decide +kernel
theorem test_watchdog : (nx (exec .bootWatchdog booting)).boot.wdog = true ∧ (nx (exec .bootWatchdog booting)).block = .reset := by decide +kernel
theorem test_bias_timeout : (nx (exec .senseBiasTimeout sensing)).pins.halt = 0x10 ∧ (nx (exec .senseBiasTimeout sensing)).block = .halted := by decide +kernel

/-- The host's offer is awaited for the push start, or image bytes are. -/
def offering (src : Nat) : State := bootAt (.offer src)
def pushingAt (len : Nat) (f : Boot → Boot := id) : State := bootAt (.pushing 2 len) f
def goodHead : List Byte := [0x4B, 0x58, 0x49, 0x03, 1] ++ List.replicate 251 0
def img (n : Nat) : Image :=
  { kind := 1, keyset := 0, svn := 0, cls := 0, flags := 0, blocks := n, lastLen := 4, entryBc := 0, siteMask := 0, loadOff := 0, payloadOff := 0,
    dirOff := 0, tbs := [], manifest := [sha384 [1, 2, 3, 4]], meas := [] }
theorem witness_pushOffer : (offering 2).boot.pos = .offer 2 ∧ originOk (offering 2) 1 = true ∧ originOk (offering 2) 2 = true ∧
    ((3 : Nat) ≠ 1 ∧ (3 : Nat) ≠ 2) ∧ imageMax 32 < 2 ^ 63 ∧ ¬ (imageMax 32 < imageMax 32) ∧
    originOk { offering 2 with fuse := { run.fuse with sensed := { run.fuse.sensed with noHostpush := true } } } 1 = false := by decide +kernel
theorem witness_pushData : (pushingAt 4096).boot.pos = .pushing 2 4096 ∧ (pushingAt 4096).boot.image = none ∧
    headComplete (((pushingAt 4096).boot.push ++ wordsToBytes [0]).take 4096) = false ∧
    (((pushingAt 4096).boot.push ++ wordsToBytes [0]).take 4096).length < 0x100 ∧
    (let s := pushingAt 4096 (fun b => { b with push := List.replicate 255 0 })
     0x100 ≤ ((s.boot.push ++ wordsToBytes [0]).take 4096).length ∧ headerOk ((s.boot.push ++ wordsToBytes [0]).take 4096) = false) ∧
    (let s := pushingAt 4096 (fun b => { b with push := goodHead })
     headerOk ((s.boot.push ++ wordsToBytes [0]).take 4096) = true ∧ headComplete ((s.boot.push ++ wordsToBytes [0]).take 4096) = false) := by
  decide +kernel
theorem witness_pushEnd : (pushingAt 4096 (fun b => { b with image := some (img 2) })).boot.cache.length ≠ (img 2).blocks ∧
    (pushingAt 4096 (fun b => { b with image := some (img 2), cache := [(0, [1]), (1, [1])] })).boot.cache.length = (img 2).blocks := by decide +kernel
theorem witness_pushWaitTimeout : (offering 2).boot.pos = .offer 2 ∧ (offering 2).fuse.sensed.noRecovery = false ∧ stopped (offering 2) = false ∧
    (offering 4).boot.pos ≠ .offer 2 ∧
    (let s := { offering 2 with fuse := { run.fuse with sensed := { run.fuse.sensed with noRecovery := true } } }
     s.fuse.sensed.noRecovery = true ∧ stopped s = false ∧ s.boot.pos = .offer 2) := by decide +kernel
/-- A flash read of the head of slot A, or of block `i`, has been asked for. -/
def flashing (pos : BootAt) (len : Nat) (f : Boot → Boot := id) : State :=
  bootAt pos (fun b => f { b with flash := some { addr := 0, length := len } })
theorem witness_flashReadDone : (flashing (.fetch 0) 256).boot.flash.isSome = true ∧ curLoad (flashing (.fetch 0) 256) = none ∧
    headerOk ((flashing (.fetch 0) 256).boot.push ++ slice goodHead 0 256) = true ∧
    ((flashing (.fetch 0) 256).boot.push ++ slice goodHead 0 256).length < headLen ((flashing (.fetch 0) 256).boot.push ++ slice goodHead 0 256) ∧
    headerOk ((flashing (.fetch 0) 256).boot.push ++ slice [0, 0] 0 256) = false ∧
    (∀ n ∈ [1, 2], let s := flashing (.block 0 0) 4 (fun b => { b with image := some (img n) })
      curLoad s = none ∧ decide (0 + 1 < (img n).blocks) = decide (n = 2)) := by decide +kernel
theorem witness_blocks (n : Nat) : blockOk (img n) 0 (slice [1, 2, 3, 4] 0 4) = true := by
  have h : slice ([1, 2, 3, 4] : List Byte) 0 4 = [1, 2, 3, 4] := by decide
  unfold blockOk img
  rw [h]
  exact decide_eq_true (List.getD_cons_zero ..).symm
/-- FIPS 180-4: SHA-384 of "abc". -/
theorem test_sha384 : (sha384 [0x61, 0x62, 0x63]).take 8 = [0xCB, 0x00, 0x75, 0x3F, 0x45, 0xA3, 0x5E, 0x8B] := by decide +kernel
theorem witness_wrong_block : blockOk { img 2 with manifest := [] } 0 [0x61, 0x62, 0x63] = false := by
  unfold blockOk
  refine decide_eq_false (fun h => ?_)
  have k := test_sha384
  rw [h] at k
  exact absurd k (by decide)
theorem test_offer_origin : (channel (nx (exec (.pushOffer 3 100) (offering 2))) 64).rx = [0x81000001] := by decide +kernel

/-- A load of site 1 in S8. -/
def loadingAt (pos : LoadAt) (why : LoadWhy := .boot) : State :=
  { bootAt .sites (fun b => { b with loading := true, stageSize := 4096, loads := [
      { sites := [1], why := why, pos := pos, alt := 0, image := none, length := 0, buf := [], num := 0 }] }) with
    part := p2.part }
theorem witness_sites : (curLoad (loadingAt .ready)).map (fun l => (l.pos, l.why, l.sites)) = some (.ready, .boot, [1]) ∧
    (loadingAt .ready).pins.siteReady.getLsbD 1 = false ∧ curLoad booting = none ∧ originOk (loadingAt .staged) 1 = true ∧
    (4096 : Nat) ≤ (loadingAt .staged).boot.stageSize ∧ (loadingAt .staged).boot.stageSize < 4097 ∧
    (curLoad (loadingAt .staged)).map (fun l => l.pos) = some .staged ∧
    originOk { loadingAt .staged with fuse := { run.fuse with sensed := { run.fuse.sensed with noHostpush := true } } } 1 = false ∧
    siteCtrl booting 1 = none ∧ (loadingAt .ready).cpb.waiting = [] ∧
    siteCtrl (bootAt .sites (fun b => { b with siteEnts := [(1, some { agent := 7, offset := 0, size := 0, push := false, window := 0, cls := 0 })] })) 1 = some 7 := by decide +kernel
theorem test_site_ready : (nx (exec (.siteReady 3) run)).pins.siteReady = 8 := by decide +kernel
def rootLocked : State := { bootAt .jtag with sbox := { run.sbox with lockRoot := true } }
theorem witness_coreRelease : fabOk rootLocked .bc = true ∧ rootLocked.sbox.lockRoot = true ∧ rootLocked.boot.pos ≠ .release ∧
    fabOk booting .bc = true ∧ booting.sbox.lockRoot = false ∧ fabOk run .sc1 = true := by decide +kernel
theorem test_core_release : (nx (exec (.coreRelease .bc 0xF) rootLocked)).cores.released = 0xE ∧
    (nx (exec (.coreRelease .sc1 0xF) run)).rsp = some { code := .eaccess, data := [] } := by decide +kernel
theorem witness_topHaltWrite : fabOk booting .bc = true ∧ booting.boot.journalOk = true ∧ booting.block = .boot ∧ run.block ≠ .boot ∧ fabOk run .bc = true ∧
    (∀ c ∈ [0x20, 0x3F, 0x60, 0x6F], (0x20 ≤ c ∧ c ≤ 0x3F) ∨ (0x60 ≤ c ∧ c ≤ 0x6F)) ∧
    (∀ c ∈ [0x1F, 0x40, 0x5F, 0x70], ¬ ((0x20 ≤ c ∧ c ≤ 0x3F) ∨ (0x60 ≤ c ∧ c ≤ 0x6F))) := by decide +kernel
theorem test_top_halt : (nx (exec (.topHaltWrite .bc 0x3F) booting)).pins.halt = 0x3F ∧ (nx (exec (.topHaltWrite .bc 0x40) booting)).block = .boot := by
  decide +kernel

/-- The power controller has been asked for a domain. -/
def powerAsked (req : Bool) (dom st : Nat) (b : BState := .run) : State :=
  { run with block := b, pins := { run.pins with pwrReq := req }, pwr := { run.pwr with asked := true, queue := [{ dom := dom, state := st }] } }
theorem witness_power : run.pwr.asked = false ∧ (powerAsked true 3 0).pwr.asked = true ∧ (powerAsked false 3 0).pwr.doms = [] ∧
    stopped (powerAsked true 3 0) = false ∧ (powerAsked false 63 0 .sleep).block = .sleep ∧ (powerAsked false 63 2 .sleep).pwr.queue = { dom := 63, state := 2 } :: [] := by
  decide +kernel
theorem witness_domains : (40 : BitVec 6).toNat = 40 ∧ ¬ (40 ≤ (39 : BitVec 6).toNat) ∧ run.block ≠ .boot ∧ run.pwr.doms = [] ∧ run.pwr.busy = false ∧
    run.epoch.window = false ∧ run.pwr.phase = 0 ∧ domainAgents run 39 = [] ∧ sleepRefused run 10000 run.pwr.staged.toNat = 0 ∧
    sleepRefused run 10001 run.pwr.staged.toNat = 4 ∧ sleepRefused { run with block := .degraded } 5 run.pwr.staged.toNat = 1 ∧
    ({ run with pwr := { run.pwr with busy := true } } : State).pwr.busy = true ∧ (inWindow run).epoch.window = true := by decide +kernel
/-- A domain sequence that waits for the domain's power. -/
def powering : State := { run with pwr := { run.pwr with doms := [{ dom := 39, why := .recover, step := 3 }] } }
theorem witness_domainTimeout : powering.pwr.doms = [{ dom := 39, why := .recover, step := 3 }] ∧ powering.pins.pdStatus.getLsbD 39 = false := by decide +kernel
def layoutMissing : State := { bootAt .layout (fun b => { b with siteEnts := [], dirAgents := [(5, 2)] }) with part := { p2.part with domains := [(3, 5)] } }
theorem test_domain_fault : exec (.pdStatusFall 40) run = .fault .noSuchDomain ∧ ran (exec (.pdStatusFall 39) run) = true := ⟨rfl, by decide +kernel⟩
theorem test_pd_fall_resets : let s := { run with pins := { run.pins with pdStatus := 0xFF, hubRstN := 0xFF } }
    (nx (exec (.pdStatusFall 3) s)).pins.hubRstN = 0xF7 ∧ (nx (exec (.pdStatusFall 3) s)).pins.pdStatus = 0xF7 := by decide +kernel
theorem test_ack_timeout : (nx (exec .pwrAckTimeout (powerAsked true 3 0))).pins.halt = 0x61 := by decide +kernel
theorem test_wake_off : (nx (exec (.pwrAck false) (powerAsked false 63 2 .sleep))).block = .reset ∧
    (nx (exec (.pwrAck false) (powerAsked false 63 2 .sleep))).boot.wakeStart = true := by decide +kernel

theorem witness_tamper : (31 : BitVec 5).toNat = 31 ∧ (30 : BitVec 5).toNat ≠ 31 ∧ sourceArmed run 0 = true ∧ run.tmp.shutter = false ∧
    sourceArmed State.reset 16 = false ∧ sourceArmed State.reset 15 = true ∧ State.reset.block = .reset ∧ run.tmp.band ≤ run.tmp.slowest ∧ fabOk run .sc1 = true ∧
    ({ run with tmp := { run.tmp with shutter := true } } : State).tmp.shutter = true := by decide +kernel
theorem test_alarm : (nx (exec (.alarmConfirmed 0) run)).block = .safe ∧ (nx (exec (.alarmConfirmed 0) booting)).pins.halt = 0x40 ∧
    (nx (exec (.alarmConfirmed 0) State.reset)).tmp.pend = true := by decide +kernel
theorem test_alarm_keeps_first : (nx (exec (.alarmConfirmed 7) run)).tmp.first = some (7, 3) := by decide +kernel
theorem test_source_31 : exec (.tamperCondition 31) run = .fault .noSuchSource := rfl
theorem test_tref : (nx (exec (.trefDeviation 200) run)).tmp.trefBad = false ∧ (nx (exec (.trefDeviation 201) run)).tmp.trefBad = true := by decide +kernel
theorem test_band_keeps_slowest : (nx (exec (.timingBandChange 2 0) { run with tmp := { run.tmp with slowest := 3 } })).tmp.slowest = 3 := by decide +kernel

/-- SC3 does not stand by. -/
def noStandby : State := { p2 with cores := { p2.cores with standbyLost := true } }
theorem witness_faults : coreRuns p2 1 = true ∧ coreRuns p2 2 = true ∧ coreRuns State.reset 1 = false ∧ p2.block = .run ∧ p2.pwr.phase = 0 ∧
    standby p2 = true ∧ standby noStandby = false ∧ coreRuns noStandby 1 = true ∧ coresLive p2 = true ∧ coresLive State.reset = false ∧
    tenant 2 = true ∧ pstate p2 2 = .running ∧ tenant 1 = false ∧ serving p2 = true ∧ serving booting = false ∧ beatDue booting 0 = false ∧
    p2.cores.arrays.getLsbD 15 = true := by decide +kernel
theorem test_core_fault : (nx (exec (.coreFault 1 true) noStandby)).block = .safe := by decide +kernel
theorem test_sram_error_of_none : (nx (exec (.sramError 0 true 1 64) p2)).block = .safe := by decide +kernel
/-- Array 3 has disagreed three times within 1 s. -/
def thrice : State := { p2 with tmp := { p2.tmp with disagree := [(3, [0, 0, 0])] } }
theorem witness_bist : 3 ≤ (smGet [] thrice.tmp.disagree 3).length ∧ (smGet [] p2.tmp.disagree 3).length = 0 := by decide +kernel
theorem test_array_fails : (nx (exec (.arrayBistDone 3 false) thrice)).cores.arrays = 0xFFF7 := by decide +kernel

theorem witness_blank_sense : (senseArray sensing 0).1 = 0 ∧ (senseArray sensing 0).2.fuse.sensed.lcs = 0 ∧ (senseArray sensing 0).2.tmp.pend = false := by
  decide +kernel
/-- Eight reads of the key rows that were all disturbed end the start (R111). -/
theorem test_disturbed_sense : (senseArray sensing 255).1 = 0x13 ∧ (senseArray sensing 127).1 = 0 := by decide +kernel
/-- Window registers of PID 2 of each kind: TL_SEL, XL_DESC_LO and _HI, P_ID, a word of no register, PG_EVENT. -/
theorem witness_registerWrites : ∀ x ∈ [(0x402040, RKind.rw 0x107FF), (0x403048, .lo 0xFFFFFFFF), (0x40304C, .hi 0xFFFF), (0x400040, .ro),
      (0x400060, .undef), (0x406010, .head)],
    locate x.1 = .win 2 ((x.1 - 0x400000) / 0x1000) (x.1 % 0x1000) ∧ kindAt (locate x.1) = x.2 ∧
    hcpCheck p2 tag2 true (locate x.1) = none ∧ p2.block ≠ .reset ∧ (BitVec.ofNat 23 (x.1 / 8 * 8)).toNat = x.1 / 8 * 8 := by decide +kernel
theorem witness_foreign_write : reaches p2 0x020400 (.win 2 2 0x40) = false ∧ reaches p2 0x030000 (.win 2 2 0x40) = false ∧ p2.block ≠ .sleep ∧
    sealed p2 2 = false := by decide +kernel
theorem witness_fabricWrite : locate 0x9040 = .fw 9 0x40 ∧ fabOk p2 .sc1 = true ∧ fwBarred p2 .sc1 (.fw 9 0x40) = none ∧
    (match kindAt (.fw 9 0x40) with | .rw _ => true | _ => false) = true ∧ fabOk p2 .jtag = false := by decide +kernel
theorem witness_pairs : (pairValue p2 (.hcp tag2 0) 0x403048).isSome = true ∧ pairValue p2 (.hcp tag2 0) 0x402040 = none ∧
    hcpCheck p2 tag2 false (.win 2 3 0x48) = none ∧ hcpCheck p2 tag2 true (.win 2 3 0x1C) = none ∧
    (hdr (nx (exec (.pgLockSet (.hcp tag2 0) 0x40301C) p2)) (pgWin 2 3)).lock = true := by decide +kernel
theorem test_register_write : reg (nx (exec (.registerWrite (.hcp tag2 0) 0x402040 (oneWord 0x402040 0xFFFFFFFF)) p2)) 0x402040 = 0x107FF := by decide +kernel
theorem test_hi_commits_lo : reg (nx (exec (.writeHiCommit (.hcp tag2 0) 0x40304C 0x12345678)
    (nx (exec (.registerWrite (.hcp tag2 0) 0x403048 (oneWord 0x403048 9)) p2)))) 0x403048 = 9 := by decide +kernel

/-! ## What WellFormed refuses -/

theorem test_ill_formed_domain : ∀ d ∈ [(40 : BitVec 6), 63], wellFormed (.pdStatusFall d) = false ∧ wellFormed (.pdStatusRise d) = false ∧
    wellFormed (.domainPowerTimeout d) = false := by decide +kernel
theorem test_ill_formed_source : wellFormed (.tamperCondition 31) = false ∧ wellFormed (.alarmConfirmed 31) = false ∧
    wellFormed (.tamperConditionEnd 31) = false := by decide +kernel
theorem test_ill_formed_beats : wellFormed (.registerWrite (.hcp tag2 0) 0 []) = false ∧ wellFormed (.mbTxWrite (.hcp tag2 0) (.oper 0) []) = false ∧
    wellFormed (.mbTxWrite (.hcp tag2 0) (.oper 0) (List.replicate 513 (0, 0))) = false := by decide +kernel
theorem test_ill_formed_channel : ∀ p ∈ [(0 : Byte), 1, 66, 255], wellFormed (.mbRxRead (.hcp tag2 0) (.priv p) 1) = false ∧
    wellFormed (.mbNoteRead (.hcp tag2 0) (.priv p)) = false ∧ wellFormed (.sessionIdleTimeout (.priv p)) = false := by decide +kernel
theorem test_well_formed : wellFormed (.pdStatusFall 39) ∧ wellFormed (.tamperCondition 30) ∧ wellFormed (.mbRxRead (.hcp tag2 0) (.priv 65) 1) := by
  decide +kernel

/-! ## Witnesses: fuses and the Strongbox -/

/-- FUSE_ROW, cells of that row and the area enables. -/
def fuseAt (row : Nat) (cells : BitVec 72) (ctrl : Nat) : State :=
  setHdr { p2 with fuse := { p2.fuse with row := w32 row, cells := smSet 0 [] row cells, window := 1 } } (pgFw 1) { hdr p2 (pgFw 1) with ctrl := w32 ctrl }
theorem witness_fuseCommands : fabOk p2 .sc1 = true ∧ fabOk p2 .bc = true ∧ p2.fuse.busy = false ∧
    (∀ r ∈ [2 ^ 31 + 64, 2 ^ 30 + 32, 2 ^ 31 + 2 ^ 30], fuseTarget (w32 r) = none) ∧
    (∀ r ∈ [0x340, 0x387, 0x7F0, 0x7FF], fuseTarget (w32 r) = some r ∧ rowHidden r = true) ∧
    (∀ r ∈ [0x33F, 0x388, 0x7EF, 0], fuseTarget (w32 r) = some r ∧ rowHidden r = false) ∧
    rowKind 0x7EF = .reserved ∧ rowKind 0x388 ≠ .reserved ∧ fuseMarginal p2 0x33F = 0 ∧
    rowReserved 0x7EF = true ∧ rowReserved 0x230 = true ∧ rowReserved 0x22F = false ∧ rowReserved (spareKey 0) = false ∧
    opFits 3 0x22F 0 = false ∧ opFits 3 0 0 = true ∧ opFits 4 0x22F 23 = true ∧ opFits 4 0x22F 24 = false ∧ opFits 5 0x340 0 = true ∧
    opFits 6 (redirKey 31) 0 = true ∧ areaEnabled (fuseAt 0x22F 0 0) 4 0x22F = false ∧
    areaEnabled (fuseAt 0x22F 0 (2 ^ rowArea 0x22F)) 4 0x22F = true ∧ areaEnabled (fuseAt 0 0 1) 3 0 = true ∧
    groupMask 23 &&& ~~~ fuseCells (fuseAt 0x22F 0 (2 ^ rowArea 0x22F)) 0x22F ≠ 0 ∧
    areaEnabled (fuseAt 0x340 0 (2 ^ rowArea 0x340)) 5 0x340 = true ∧ fuseCells (fuseAt 0x340 0 0) 0x340 = 0 ∧
    (fuseAt 0 0 1).fuse.window = 1 := by decide +kernel
theorem test_group_starts : let u := nx (exec (.programGroup .bc 1 23) (fuseAt 0x22F 0 (2 ^ rowArea 0x22F)))
    u.fuse.busy = true ∧ fuseCells u 0x22F = 0 ∧ fuseCells (nx (exec (.fuseOpDone 0) u)) 0x22F = groupMask 23 ∧
    (nx (exec (.fuseOpDone (groupMask 23)) u)).fuse.result = 6 ∧ (nx (exec (.fuseSupplyLost 2 0 0) u)).fuse.result = 3 := by decide +kernel
theorem test_refused_programs : (nx (exec (.programGroup .bc 1 23) (fuseAt 0x22F 0 0))).fuse.result = 4 ∧
    (nx (exec (.programGroup .bc 2 23) (fuseAt 0x22F 0 (2 ^ rowArea 0x22F)))).fuse.result = 2 ∧
    (nx (exec (.programRow .bc 1) (fuseAt 0x230 0 0xFFF))).fuse.result = 9 ∧ (nx (exec (.programRaw .bc 1 0) (fuseAt 0 0 0xFFF))).fuse.result = 8 ∧
    (nx (exec (.programSecret .bc 0) (fuseAt 0x340 0 0xFFF))).fuse.result = 1 := by decide +kernel
theorem test_hidden_reads : (nx (exec (.readRaw .bc) (fuseAt 0x340 5 0))).fuse.result = 7 ∧ (nx (exec (.readDecoded .bc) (fuseAt 0x340 5 0))).fuse.result = 7 := by
  decide +kernel
theorem witness_fuseProgramming : (nx (exec (.programGroup .bc 1 23) (fuseAt 0x22F 0 (2 ^ rowArea 0x22F)))).fuse.op.isSome = true ∧
    p2.fuse.op = none ∧ p2.boot.pos ≠ .tamperRec ∧ serving p2 = true ∧ serving State.reset = false := by decide +kernel

/-- The Strongbox port of an initiator. -/
def port (w : Who) (sel : Nat) (attr derive : Nat) (mask : BitVec 16) (s : State := p2) : State :=
  setSboxPort s w { sboxPort s w with sel := sel, attr := w32 attr, derive := w32 derive, mask := mask, data := 0xABC }
/-- A slot with a key of an engine and use, of PID 0. -/
def slotIn (n len engine use : Nat) (s : State := p2) : State := setSlot s n { key := 5, attr := mkAttr 0 len engine 0 0 use }
/-- The result that refuses the source of a DERIVE. -/
def refusal (s : State) (w : Who) : Option Nat := match deriveSource s (sboxPort s w) with | .ok _ => none | .error r => some r
/-- The fixed slots are locked. -/
def locked7 : State := { p2 with sbox := { p2.sbox with lockFixed := true } }
/-- BC is in step S6. -/
def inS6 : State := { p2 with block := .boot, boot := { p2.boot with step := 6 } }
theorem witness_strongbox : (∀ w ∈ [Who.bc, .sc1, .sc2, .sc3], fabOk p2 w = true) ∧ slotOpen locked7 7 = false ∧ slotOpen locked7 8 = true ∧
    slotOpen p2 7 = true ∧ deriveOpen p2 .sc1 (sboxPort (port .sc1 8 0 0 0) .sc1) = true ∧ deriveOpen p2 .bc (sboxPort (port .bc 7 0 0 0) .bc) = false ∧
    deriveOpen inS6 .bc { sboxPort p2 .bc with sel := 0, derive := 0x101, attr := mkAttr 0 2 3 0 0 4 } = true ∧
    deriveOpen inS6 .bc { sboxPort p2 .bc with sel := 0, derive := 0x201, attr := mkAttr 0 2 3 0 0 4 } = false ∧ slotEmpty p2 8 = true ∧ slotEmpty (slotIn 9 0 3 4) 9 = false ∧ (∀ a ∈ [0, 0x03004204, 0x33000004, 0x03000005],
      attrBad (w32 a) = true) ∧ attrBad 0x03000004 = false ∧ attrBad 0x03000201 = false ∧ genOf p2 2 = 0 ∧
    refusal (port .sc1 8 0x03000004 0x98000 0 (slotIn 9 0 3 4)) .sc1 = none ∧
    refusal (port .sc1 8 0x03000004 0x98000 0) .sc1 = some 2 ∧
    refusal (port .sc1 8 0x03000004 0x98000 0 (slotIn 9 0 3 1)) .sc1 = some 3 ∧
    refusal (port .sc1 8 0x03000004 0x91000 0) .sc1 = some 11 ∧
    refusal (port .bc 8 0x03000004 0x101 0) .bc = some 7 ∧ p2.sbox.lockRoot = false := by decide +kernel
theorem test_install : (sboxPort (nx (exec (.install .sc1) (port .sc1 8 0x03000004 0 0xFF))) .sc1).next = 0 ∧
    slotOf (nx (exec (.install .sc1) (port .sc1 8 0x03000004 0 0xFF))) 8 = { key := 0xABC, attr := 0x03000004 } ∧
    (sboxPort (nx (exec (.install .sc1) (port .sc1 8 0x03000004 0 0x7F))) .sc1).next = 8 ∧
    (sboxPort (nx (exec (.install .sc1) (port .sc1 7 0x03000004 0 0xFF))) .sc1).next = 5 ∧
    (sboxPort (nx (exec (.install .sc1) (port .sc1 9 0x03000004 0 0xFF (slotIn 9 0 3 4)))) .sc1).next = 1 := by decide +kernel
theorem test_erase : slotEmpty (nx (exec (.erase .sc1) (port .sc1 9 0 0 0 (slotIn 9 0 3 4)))) 9 = true := by decide +kernel
theorem test_derive_stale : (sboxPort (nx (exec (.derive .sc1) (port .sc1 8 0x03040204 0x98000 0 (slotIn 9 0 3 4)))) .sc1).next = 12 := by decide +kernel
theorem test_erasePid_zero : (sboxPort (nx (exec (.erasePid .sc1) (port .sc1 8 0 0 0))) .sc1).next = 4 ∧
    (sboxPort (nx (exec (.eraseStale .sc1) (port .sc1 8 0 0 0))) .sc1).next = 4 ∧
    slotEmpty (nx (exec (.erasePid .sc1) (port .sc1 8 0x200 0 0 (setSlot p2 9 { key := 1, attr := mkAttr 0 0 3 0 2 4 })))) 9 = true := by decide +kernel
theorem test_root : (sboxPort (nx (exec (.rootCmd .sc1) p2)) .sc1).next = 5 ∧ (sboxPort (nx (exec (.rootCmd .bc) p2)) .bc).next = 7 := by decide +kernel
theorem witness_root : (rootInput { p2 with fuse := { p2.fuse with sensed := { p2.fuse.sensed with lcs := 2 } } }).isSome = true := by decide +kernel
theorem witness_sboxDigests : (sboxPort (nx (exec (.erase .sc1) (port .sc1 9 0 0 0))) .sc1).busy = true ∧ (sboxPort p2 .sc1).busy = false ∧
    p2.boot.armed = false ∧ (nx (exec (.sleepDigestArm .sc1 5) p2)).boot.armed = true ∧ booting.boot.step < 6 ∧ booting.boot.pos ≠ .wakeCheck ∧
    p2.block ≠ .boot ∧ fabOk booting .bc = true := by decide +kernel
theorem test_command_done : (sboxPort (nx (exec (.sboxCommandDone .sc1) (nx (exec (.erase .sc1) (port .sc1 7 0 0 0 locked7))))) .sc1).result = 5 := by decide +kernel

/-! ## Witnesses: the engines -/

/-- A descriptor at 0x40 of main SRAM, and other bytes there. -/
def descIn (s : State) (fields : List (Nat × List Byte)) : State := putOuts s (fields.map (fun c => (0x40 + c.1, c.2)))
/-- The Anvil with one queued job of partition class 1: OP, descriptor fields, slots of 8 words. -/
def pjob (op : Nat) (fields : List (Nat × List Byte)) (s : State := p2) : State :=
  descIn { s with anvil := { s.anvil with queue := [(1, 0x40)], words := 8, latRes := true } } ((0, [BitVec.ofNat 8 op]) :: fields)
/-- Operands 7, 5 and the modulus 11 in slots 1 to 3, the result to slot 4. -/
def modJob (op : Nat) (more : List (Nat × List Byte) := []) : State :=
  let s := pjob op ([(4, [1, 2, 3, 4]), (0x0C, [16, 0])] ++ more)
  setOpWords s [(8, 7), (16, 5), (24, 11)]
theorem witness_anvilArithmetic : ∀ op ∈ [1, 2, 3, 4, 5], anvilMay (modJob op) op (1, 0x40) ∧
    slotsBad (modJob op) [1, 2, 3, 4] = false ∧ slotsBad (modJob op) [1, 2, 3, 255] = false ∧ slotsBad { modJob op with anvil := { (modJob op).anvil with words := 9 } } [228] = true ∧
    opRead (modJob op) 1 1 = 7 ∧ opRead (modJob op) 3 1 = 11 ∧ 7 * modInvVal 7 11 % 11 = 1 := by unfold anvilMay; decide +kernel
/-- What a modular job leaves in its destination. -/
def anvilOut (i : Instr) (s : State) : Option (List (Nat × DWord)) := (nx (exec i s)).anvil.run.map (fun j => j.outs.opnd)
theorem test_modular : anvilOut .modAdd (modJob 1) = some [(32, 1)] ∧ anvilOut .modSub (modJob 2) = some [(32, 2)] ∧
    anvilOut .modMul (modJob 3) = some [(32, 2)] ∧ anvilOut .modExp (modJob 4) = some [(32, 10)] ∧ anvilOut .modInv (modJob 5) = some [(32, 8)] := by
  decide +kernel
theorem witness_anvilSlots : (∀ op ∈ [6, 8, 9], anvilMay (pjob op [(4, [1, 2, 3, 4])]) op (1, 0x40)) ∧ slotsBad (pjob 6 []) [4] = false ∧
    sramIn (sramSize - 8) 8 = true ∧ sramIn (sramSize - 7) 8 = false := by unfold anvilMay; decide +kernel
theorem test_slot_moves : anvilOut .slotClear (pjob 6 [(7, [4])]) = some [(32, 0)] ∧ anvilOut .pkeLoad (pjob 8 [(7, [4]), (0x10, [0x40])]) = some [(32, 0x0400000000000008)] ∧
    (nx (exec .store (pjob 9 [(4, [1]), (0x28, [0, 1])]))).anvil.run.map (fun j => j.outs.mem) = some [(256, List.replicate 8 0)] := by decide +kernel
/-- A curve job with the key of slot 9, digest at 0x100, AUX at 0x200 (the base point), SRC2 at 0x300, DST at 0x400. -/
def ecJob (op len use : Nat) (flags : Nat := 0) (more : List (Nat × List Byte) := []) : State :=
  putOuts (pjob op ([(1, [BitVec.ofNat 8 flags]), (8, [9, 10]), (0x10, [0, 1]), (0x18, [0, 2]), (0x20, [0, 3]), (0x28, [0, 4]),
      (0x34, leBytes 4 0x13000004)] ++ more) (setSlot p2 9 { key := 5, attr := mkAttr 0 len 1 0 0 use }))
    [(0x200, ecBytes (some (p384gx, p384gy)))]
theorem witness_anvilCurves : (∀ x ∈ [(0x10, 1, 8), (0x11, 1, 0), (0x12, 2, 0), (0x12, 2, 16), (0x14, 0, 0)],
      anvilMay (ecJob x.1 2 x.2.1 x.2.2) x.1 (1, 0x40)) ∧
    jobKey (ecJob 0x10 2 1) (sramRead (ecJob 0x10 2 1) 0x40 64) 1 2 ≠ none ∧ jobKey (ecJob 0x10 1 1) (sramRead (ecJob 0x10 1 1) 0x40 64) 1 2 = none ∧
    jobKey (ecJob 0x12 2 2) (sramRead (ecJob 0x12 2 2) 0x40 64) 2 2 ≠ none ∧ (drbgGrant (ecJob 0x10 2 1) true).isSome = true ∧
    ecPoint (sramRead (ecJob 0x11 2 1) 0x200 97) = some (p384gx, p384gy) ∧ ecOn (p384gx, p384gy) = true ∧
    dstBad (ecJob 0x12 2 2) (sramRead (ecJob 0x12 2 2) 0x40 64) 1 0 = 0 ∧
    dstBad (ecJob 0x12 2 2) (sramRead (ecJob 0x12 2 2 0 [(9, [9])]) 0x40 64) 1 0 = 8 ∧ (ecMul 1 (p384gx, p384gy)).isSome = true ∧
    pubOnly (sramRead (ecJob 0x12 2 2 16) 0x40 64) = true ∧ sramIn 0x200 97 = true ∧ sramIn (sramSize - 96) 97 = false := by unfold anvilMay; decide +kernel
/-- The result of the job that the Anvil has started. -/
def anvilRes (i : Instr) (s : State) : Option Nat := (nx (exec i s)).anvil.run.map (fun j => j.result)
theorem test_curves : anvilRes .ecCheck (ecJob 0x14 0 0) = some 0 ∧ anvilRes .ecCheck (sramWrite (ecJob 0x14 0 0) 0x201 [0]) = some 7 ∧
    anvilRes .ecdsaSign (ecJob 0x10 1 1) = some 3 ∧ anvilRes .ecdsaVerify (ecJob 0x11 2 1) = some 1 ∧
    anvilRes .ecdh (ecJob 0x12 2 2 0 [(9, [7])]) = some 4 := by decide +kernel
/-- A lattice job on the same fields. -/
def latJob (op len use : Nat) (flags : Nat := 0) : State :=
  pjob op [(1, [BitVec.ofNat 8 flags]), (8, [9, 10]), (0x10, [0, 1]), (0x14, [16]), (0x18, [0, 0x10]), (0x28, [0, 0x20]), (0x20, [0, 0x30]), (0x30, [0, 0x50]),
    (0x34, leBytes 4 0x03000004)] (setSlot p2 9 { key := 5, attr := mkAttr 0 len 1 0 0 use })
theorem witness_anvilLattice : (∀ op ∈ [0x20, 0x21, 0x22, 0x23], anvilMay (latJob op 2 2) op (1, 0x40) ∧
      (∀ s ∈ [{ latJob op 2 2 with anvil := { (latJob op 2 2).anvil with latRes := false } }], anvilMay s op (1, 0x40))) ∧
    (jobKey (latJob 0x20 0 1) (sramRead (latJob 0x20 0 1) 0x40 64) 1 0).isSome = true ∧ (drbgGrant (latJob 0x20 0 1) true).isSome = true ∧
    (jobKey (latJob 0x23 2 2) (sramRead (latJob 0x23 2 2) 0x40 64) 2 2).isSome = true ∧ (drbgGrant (latJob 0x20 0 1) false).isSome = true ∧
    dstBad (latJob 0x22 2 2) (sramRead (latJob 0x22 2 2) 0x40 64) 0 0 = 0 ∧ pubOnly (sramRead (latJob 0x23 2 2 16) 0x40 64) = true := by
  unfold anvilMay; decide +kernel
theorem test_lattice_workspace : anvilRes .mldsaSign { latJob 0x20 0 1 with anvil := { (latJob 0x20 0 1).anvil with latRes := false } } = some 4 ∧
    anvilRes .mlkemEncaps { latJob 0x22 2 2 with anvil := { (latJob 0x22 2 2).anvil with latRes := false } } = some 4 ∧
    anvilRes .mlkemDecaps (latJob 0x23 0 2) = some 3 ∧ anvilRes .mldsaVerify (descIn (latJob 0x21 0 2) [(0x18, leBytes 4 0xFFFFFFFF)]) = some 5 := by decide +kernel
/-- A running job of the Anvil that leaves a word in operand memory. -/
def ranJob (op : Nat) (slot : Option (Nat × Word × List Byte)) (byYield : Bool := false) : PJob :=
  { addr := 0x40, desc := [BitVec.ofNat 8 op, 0, 0, 0] ++ List.replicate 60 0, cls := 1, seq := 3, byYield := byYield, yields := 0, result := 0, iters := 0,
    outs := { outsNone with opnd := [(5, 9)], slot := slot } }
def anvilRun (j : PJob) (q : List (Nat × Nat)) (s : State := p2) : State := { s with anvil := { s.anvil with run := some j, queue := q } }
theorem witness_anvilQueue : descOk 0x40 64 = true ∧ descOk 0x41 64 = false ∧ descOk (sramSize - 64) 64 = true ∧ descOk sramSize 64 = false ∧
    p2.anvil.queue = [] ∧ ((List.replicate 16 (0, 0)).filter (fun e : Nat × Nat => decide (e.1 = 0))).length = 16 ∧
    pShort 0x10 1 = false ∧ pShort 3 64 = true ∧ pShort 3 65 = false ∧
    [(0, 0x80)].any (mayPreempt p2 (ranJob 0x10 none)) = true ∧ [(2, 0x80)].any (mayPreempt p2 (ranJob 0x10 none)) = false ∧
    coreOn p2 = true ∧ slotEmpty p2 9 = true ∧ (anvilPool { p2 with anvil := { p2.anvil with queue := [(1, 0), (0, 64)] } }) = [(0, 64)] := by decide +kernel
theorem test_yield : let u := nx (exec (.anvilYield 4) (anvilRun (ranJob 0x10 none) [(0, 0x80)]))
    u.anvil.run = none ∧ u.anvil.susp.isSome = true ∧ u.anvil.yields = 1 ∧ u.anvil.maxStretch = 4 := by decide +kernel
theorem test_anvil_done : let u := nx (exec .anvilJobDone (anvilRun (ranJob 1 (some (9, 0x13000004, [1, 2]))) []))
    u.anvil.run = none ∧ smGet 0 u.anvil.mem 5 = 9 ∧ (slotOf u 9).key = 0x201 ∧ sramWord u 0x7C = 0x08000000 ∧ sramWord u 0x78 = 3 := by decide +kernel
theorem test_pke_job : (nx (exec (.pkeJob .sc1 0x40) p2)).anvil.queue.length = 1 ∧ (nx (exec (.pkeSlotLenWrite .sc1 0x10008) p2)).anvil.words = 8 ∧
    (nx (exec (.pkeSlotLenWrite .sc1 257) p2)).rsp = some { code := .eaccess, data := [] } := by decide +kernel

/-- Lane 2 with a queued job: OP, FLAGS and the rest of its descriptor. -/
def hjob (op flags : Nat) (more : List (Nat × List Byte)) (f : Lane → Lane := id) : State :=
  descIn (setLane p2 2 (f { lane p2 2 with queue := [0x40] })) ([(0, [BitVec.ofNat 8 op, BitVec.ofNat 8 flags])] ++ more)
/-- FIRST and LAST, a segment of 3 bytes at 0x100. -/
def seg3 : List (Nat × List Byte) := [(2, [48]), (8, [0, 1]), (0x10, [3]), (0x18, [0, 4]), (0xC0, [0x61, 0x62, 0x63])]
theorem witness_hashLanes : (lane p2 2).queue = [] ∧ descOk 0x40 32 = true ∧ (∀ op ∈ [1, 2, 3], qOp (hjob op 3 seg3) 0x40 = op ∧
      hashBad (sramRead (hjob op 3 seg3) 0x40 32) = false ∧ hFirst (sramRead (hjob op 3 seg3) 0x40 32) = true ∧
      hHub (sramRead (hjob op 3 seg3) 0x40 32) = false ∧ hFirst (sramRead (hjob op 2 seg3) 0x40 32) = false) ∧
    hashBad (sramRead (hjob 4 3 seg3) 0x40 32) = true ∧ hLast (sramRead (hjob 1 3 seg3) 0x40 32) = true ∧ coreOn p2 = true := by decide +kernel
theorem test_lane_start : ((lane (nx (exec (.sha3384 2) (hjob 2 3 seg3))) 2).msg.map (fun m => m.2.2.2.2)) = some [0x61, 0x62, 0x63] ∧
    (lane (nx (exec (.sha384 2) (hjob 1 2 seg3))) 2).run.map (fun r => r.2.2) = some 2 ∧
    (lane (nx (exec (.sha384 2) (hjob 1 2 seg3 (fun l => { l with abandon := true })))) 2).run.map (fun r => r.2.2) = some 4 ∧
    ((lane (nx (exec (.kmac256 2) (hjob 3 2 seg3 (fun l => { l with msg := some (3, [], [], 32, [1]) })))) 2).msg.map (fun m => m.2.2.2.2)) =
      some [1, 0x61, 0x62, 0x63] := by decide +kernel
theorem test_lane_fails : let u := nx (exec (.hashJobDone 2) (nx (exec (.sha384 2) (hjob 1 2 seg3))))
    sramWord u 0x5C = 0x28000000 ∧ u.hash.err = 1 ∧ (lane u 2).run = none := by decide +kernel
theorem test_meas_job : (lane (nx (exec (.measJob .sc1 2 0x40) p2)) 2).queue = [0x40] ∧
    (nx (exec (.measJob .sc1 2 0x40) (setLane p2 2 { lane p2 2 with queue := List.replicate 8 0x40 }))).rsp = some { code := .efull, data := [] } := by
  decide +kernel

/-- The AES engine with one queued job: MODE, descriptor fields, key slot 9, other slot 10. -/
def ajob (mode : Nat) (more : List (Nat × List Byte)) (s : State) : State :=
  descIn { s with aes := { s.aes with queue := [(1, 0x40)] } } ([(0, [BitVec.ofNat 8 mode]), (3, [9, 10]), (0x20, [0, 1]), (0x24, [32]), (0x28, [0, 2]),
    (0x30, [0, 3])] ++ more)
def aesSlot (len use : Nat) : State := slotIn 9 len 2 use
theorem witness_aesKeys : (∀ x ∈ [(1, 0, 1), (2, 0, 2), (3, 0, 2), (4, 2, 1), (5, 2, 2), (6, 0, 1), (7, 0, 3), (8, 0, 3)],
      aesMay (ajob x.1 [] (aesSlot x.2.1 x.2.2)) x.1 (1, 0x40) ∧
      (aesKey (ajob x.1 [] (aesSlot x.2.1 x.2.2)) (sramRead (ajob x.1 [] (aesSlot x.2.1 x.2.2)) 0x40 64) x.2.2 x.2.1).isSome = true ∧
      aesKey (ajob x.1 [] p2) (sramRead (ajob x.1 [] p2) 0x40 64) x.2.2 x.2.1 = none) ∧
    aesMay (ajob 9 [] p2) 9 (1, 0x40) ∧ (drbgGrant (ajob 9 [] p2) false).isSome = true := by unfold aesMay; decide +kernel
theorem witness_aesRanges : gcmIn (sramRead (ajob 1 [] (aesSlot 0 1)) 0x40 64) true = true ∧ gcmIn (sramRead (ajob 1 [(0x28, leBytes 4 sramSize)] (aesSlot 0 1)) 0x40 64) true = false ∧
    le (sramRead (ajob 4 [(0x24, [0, 2]), (0x2C, [0, 2])] (aesSlot 2 1)) 0x40 64) 0x2C 4 = 512 ∧
    (let s := ajob 3 [(0x34, leBytes 4 0x03000004)] (aesSlot 0 2)
     attrBad (putFld (w32 (dW (sramRead s 0x40 64) 0x34)) 15 8 0) = false ∧ gcmIn (sramRead s 0x40 64) false = true ∧ slotEmpty s 10 = true) ∧
    slotEmpty (ajob 7 [] (slotIn 10 0 3 4 (aesSlot 0 3))) 10 = false ∧ slotEmpty (ajob 7 [] (aesSlot 0 3)) 10 = true := by decide +kernel
/-- The result of the job that the engine has started. -/
def aesRes (i : Instr) (s : State) : Option Nat := (nx (exec i s)).aes.run.map (fun j => j.result)
theorem test_gcm : aesRes .gcmDec (ajob 2 [(0x24, [0]), (0x2C0, [59, 140, 51, 58, 215, 47, 119, 134, 111, 165, 168, 16, 219, 221, 143, 134])] (aesSlot 0 2)) = some 0 ∧
    aesRes .gcmDec (ajob 2 [(0x24, [0])] (aesSlot 0 2)) = some 1 := by decide +kernel
theorem test_gcm_slot : aesRes .gcmDecSlot (ajob 3 [(0x34, leBytes 4 0x03000004),
      (0x2C0, [217, 50, 0, 117, 18, 193, 210, 162, 15, 120, 200, 184, 46, 25, 29, 1])] (aesSlot 0 2)) = some 0 ∧
    aesRes .gcmDecSlot (ajob 3 [(0x34, leBytes 4 0x03000004)] (aesSlot 0 2)) = some 1 := by decide +kernel
theorem test_aes_refusals : aesRes .gcmEnc (ajob 1 [] p2) = some 2 ∧ aesRes .gcmEnc (ajob 1 [(0x28, leBytes 4 sramSize)] (aesSlot 0 1)) = some 4 ∧
    aesRes .xtsEnc (ajob 4 [] (aesSlot 2 1)) = some 3 ∧ aesRes .xtsDec (ajob 5 [] (aesSlot 2 1)) = some 3 ∧ aesRes .ctr (ajob 6 [] (aesSlot 1 1)) = some 2 := by
  decide +kernel
theorem test_key_wrap : aesRes .kwWrap (ajob 7 [] (slotIn 10 0 3 4 (aesSlot 0 3))) = some 0 ∧ aesRes .kwWrap (ajob 7 [] (aesSlot 0 3)) = some 2 ∧
    aesRes .kwUnwrap (ajob 8 [(0x24, [16])] (aesSlot 0 3)) = some 7 := by decide +kernel
theorem witness_unwrap : kwUnwrap (5 :: List.replicate 31 0) [222, 0, 150, 160, 189, 99, 191, 97, 218, 104, 153, 31, 8, 204, 228, 251, 150, 105, 66, 255, 205,
    109, 5, 24] = some (List.replicate 16 7) := by decide +kernel
def aesRun (slot : Option (Nat × Word × List Byte)) : State :=
  { p2 with aes := { p2.aes with run := some { addr := 0x40, desc := List.replicate 64 0, seq := 3, result := 0, outs := { outsNone with slot := slot } } } }
theorem test_aes_done : let u := nx (exec .aesJobDone (aesRun (some (9, 0x03000004, [1, 2]))))
    u.aes.run = none ∧ fld (slotOf u 9).attr 31 30 = 3 ∧ sramWord u 0x7C = 0x08000000 := by decide +kernel
theorem test_sym_job : (nx (exec (.symJob .sc1 0x40) p2)).aes.queue.length = 1 := by decide +kernel
/-- A window that passes both tests: a square wave. A run of 40 ones passes, one of 41 does not (Table 7-11). -/
def goodRaw : BitVec 1024 := BitVec.ofNat 1024 (2 ^ 1024 / 3)
theorem test_health_tests : rawFails goodRaw = false ∧ rawFails 0 = true ∧ repetitionFails (goodRaw ||| BitVec.ofNat 1024 (2 ^ 40 - 1)) = true ∧
    repetitionFails (goodRaw ||| BitVec.ofNat 1024 (2 ^ 38 - 1)) = false := by decide +kernel
/-- The entropy source in a state, with times of failed tests. -/
def entropy (es starts : Nat) (ts : List Nat) : State := { p2 with rng := { p2.rng with es := es, startFails := starts, failTimes := ts } }
theorem test_entropy : (nx (exec (.entropyTestFail 0) (entropy 0 0 [0, 0]))).rng.es = 2 ∧ (nx (exec (.entropyTestFail 0) (entropy 0 0 [0]))).rng.es = 1 ∧
    (nx (exec (.entropyTestFail 0) (entropy 1 2 []))).rng.es = 2 ∧ (nx (exec .entropyRestartDone (entropy 1 2 []))).rng.es = 0 ∧
    (nx (exec .drbgReseed { p2 with rng := { p2.rng with genCount := 2 ^ 20 } })).rng.genCount = 0 := by decide +kernel
theorem witness_entropy : coreOn p2 = true ∧ (entropy 0 0 []).rng.es = 0 ∧ reseedDue { p2 with rng := { p2.rng with genCount := 2 ^ 20 } } false = true ∧ reseedDue p2 false = false := by
  decide +kernel

/-- Unit 3 with POLY, WIDTH and CFG. -/
def unit3 (f : Cvu → Cvu) : State := setCvu p2 3 (f { cvuReset with poly := 0x04C11DB7, init := 0xFFFFFFFF, cfg := 0x43 })
theorem witness_checkValueUnits : (∀ x ∈ [(0x03, 0), (0x13, 1), (0x23, 2), (0x33, 3)], (cvu (unit3 (fun c => { c with cfg := w32 x.1 })) 3).foldMode = x.2) ∧
    (cvu (unit3 id) 3).widthOk = true ∧ (cvu (unit3 (fun c => { c with width := 3 })) 3).widthOk = true ∧
    (cvu (unit3 (fun c => { c with width := 2 })) 3).widthOk = false ∧ (cvu (unit3 (fun c => { c with holder := Who.sc2.num + 1 })) 3).holder ≠ 0 ∧
    (cvu (unit3 id) 3).holder = 0 ∧ (cvu (unit3 id) 3).busy = false ∧ (cvu (unit3 (fun c => { c with busy := true })) 3).busy = true ∧
    (cvu (unit3 (fun c => { c with src := w32 sramSize, len := 1 })) 3).src.toNat = sramSize ∧ sramIn sramSize 1 = false := by decide +kernel
theorem test_crc32 : cvuResult (cvu ([0x32, 0x33, 0x34, 0x35, 0x36, 0x37, 0x38, 0x39].foldl (fun s b => nx (exec (.cvuData8 .sc1 3 b) s))
    (nx (exec (.cvuData8 .sc1 3 0x31) (nx (exec (.cvuStart .sc1 3) (unit3 (fun c => { c with xorout := 0xFFFFFFFF, cfg := 3 }))))))) 3) = 0xCBF43926 := by
  decide +kernel
theorem test_cvu_held : (nx (exec (.cvuData .sc1 3 1) (unit3 (fun c => { c with holder := Who.sc2.num + 1 })))).rsp = some { code := .eaccess, data := [] } ∧
    (cvu (nx (exec (.cvuFinish .sc1 3) (unit3 (fun c => { c with holder := Who.sc1.num + 1 })))) 3).holder = 0 := by decide +kernel
theorem test_cvu_memrun : let u := nx (exec (.cvuMemrun .sc1 3) (unit3 (fun c => { c with src := w32 sramSize, len := 1 })))
    (cvu u 3).memErr = true ∧ (cvu u 3).busy = true ∧ (cvu (nx (exec (.cvuMemrunDone 3) u)) 3).busy = false := by decide +kernel

/-! ## Witnesses: translation, interrupts, Quench, service classes -/

/-- Region 3 of PID 2: base 0x400000, 4 MiB; its Tallies, page registers and translation state. -/
def region3 (s : State := p2) : State :=
  { s with part := { s.part with active := { s.part.active with rw := [(12, 0x80000002), (13, 0x02000001)] } } }
def pset (s : State) (off : Nat) (v : Word) : State := setReg s (winBase 2 + off) v
def xl2 (f : Xlat → Xlat) (s : State := region3) : State := setXlat s 2 (f (xlat s 2))
/-- XL_DESC with a kind, XL_TALLY with a slot, for SEND. -/
def sending (kind slot : Nat) (s : State := region3) : State := pset (pset s 0x304C (w32 (kind * 2 ^ 13))) 0x3050 (w32 slot)
/-- The ring registers: base and slots. -/
def ringAt (base slots : Nat) (s : State := region3) : State := pset (pset s 0x3068 (w32 base)) 0x3070 (w32 slots)
theorem witness_translationRequests : pagePasses (sending 5 0) (.hcp tag2 0) 3 0x40 ∧
    nfld (pReg64 (sending 5 0) 2 0x3048 % 2 ^ 48) 47 45 = 5 ∧ nfld (pReg64 (sending 6 0) 2 0x3048 % 2 ^ 48) 47 45 = 6 ∧
    tallyOfSlot (sending 5 15) 2 15 = some 115 ∧ tallyOfSlot (sending 5 16) 2 16 = none ∧ bitOf (pReg (sending 5 0x8010) 2 0x3050) 15 = true ∧
    (xlat (sending 5 0) 2).queue.length < 16 ∧
    16 ≤ (xlat (xl2 (fun x => { x with queue := List.replicate 16 { seq := 0, desc := 0, tally := none, cls := 1, reuseLo := 0, reuseCnt := 0 } })) 2).queue.length ∧
    ownedRegion (ringAt 0x400000 256) 2 0x400000 (4096 * 256) = some 3 ∧ ownedRegion (ringAt 0x7FF000 2) 2 0x7FF000 8192 = none ∧
    (xlat region3 2).ringBusy = false ∧ (xlat region3 2).ringOn = false ∧ (xlat (xl2 (fun x => { x with ringOn := true, ringRegion := 3 })) 2).ringOn = true := by
  unfold pagePasses passes; decide +kernel
theorem test_send : (xlat (nx (exec (.xlSend (.hcp tag2 0)) (sending 5 0))) 2).seq = 1 ∧ (xlat (nx (exec (.xlSend (.hcp tag2 0)) (sending 6 0))) 2).result = 2 ∧
    (xlat (nx (exec (.xlSend (.hcp tag2 0)) (sending 5 16))) 2).result = 2 := by decide +kernel
/-- A fault record of context 3; a partition with open records. -/
def rec3 : List Byte := List.replicate 10 0 ++ [3] ++ List.replicate 21 0
def opened (n m : Nat) : State := xl2 (fun x => { x with openB := List.replicate n { bytes := rec3, master := false },
                                                         closed := List.replicate m { reason := 1, closed := 0, recs := [] } })
/-- A request of kind 0 is at the head, sent, and its unit 5 has not replied. -/
def sent0 (f : Option XFence := none) : State :=
  let q : XReq := { seq := 1, desc := 0, tally := none, cls := 1, reuseLo := 0, reuseCnt := 0 }
  { xl2 (fun x => { x with queue := [q], sent := true, fence := f }) with
    cpb := { p2.cpb with flights := [{ frame := { agent := 5, op := 9, payload := 0, use := .inval 2 }, seq := 0, resends := 0, released := false }] } }
theorem witness_translationFaults : pagePasses region3 (.hcp tag2 0) 3 0x100 ∧ rec3.length = 32 ∧ recMaster (xlat region3 2) rec3 = false ∧
    recMaster (xlat (xl2 (fun x => { x with classes := [(3, 1)] })) 2) rec3 = true ∧
    (∀ x ∈ [(62, 0), (63, 1), (64, 2)], (xlat (opened x.1 x.2) 2).openB.length = x.1 ∧ (xlat (opened x.1 x.2) 2).closed.length = x.2) ∧
    (xlat region3 2).openB = [] ∧ region3.cpb.flights.find? (fun f => decide (f.frame.use = .inval 2)) = none ∧
    (sent0.cpb.flights.find? (fun f => decide (f.frame.use = .inval 2))).isSome = true ∧ (xlat sent0 2).fence = none ∧ (xlat sent0 2).sent = true ∧
    (∀ n ∈ [3, 4], (xlat (sent0 (some { step := n, regions := [3], unit := 5, silent := false })) 2).fence.isSome = true) := by
  unfold pagePasses passes; decide +kernel
theorem test_batch_closes : (xlat (nx (exec (.xlFaultIn (.hcp tag2 0) rec3) (opened 63 0))) 2).closed.map (fun b => b.reason) = [1] ∧
    (xlat (nx (exec (.xlFaultIn (.hcp tag2 0) rec3) (opened 62 0))) 2).openB.length = 63 ∧
    (xlat (nx (exec (.batchTimer 2) (opened 1 0))) 2).closed.map (fun b => b.reason) = [2] ∧
    (nx (exec (.xlFaultIn (.hcp tag2 0) rec3) (opened 64 2))).rsp = some { code := .efull, data := [] } := by decide +kernel
theorem test_fence_begins : ((xlat (nx (exec (.invalTimeout 2) sent0)) 2).fence).isSome = true := by decide +kernel

/-- Sources 4 and 6 belong to PID 2 and 9 to PID 1; source 4 is staged with a vector. -/
def sources (v : Nat) (s : State := p2) : State :=
  setStaged { s with part := { s.part with active := { s.part.active with src := [(4, 0x02000000), (6, 0x02000000), (9, 0x01000000)] } } } 4 (some (w32 (0x10000 + v)))
theorem witness_interruptApply : pagePasses (sources 7) (.hcp tag2 0) 4 0x50 ∧ vectors (sources 7) 2 = 8 ∧ (sources 7).part.active.sources 2 = [4, 6] ∧
    pstate (sources 7) 2 = .running ∧ bundleBusy (sources 7) = false ∧ smGet false (sources 7).irq.running 2 = false ∧
    entryOf 2 (stagedOf (sources 7) 4) = 0x02070001 ∧ entryOf 2 (stagedOf (sources 8) 4) = 0x02080001 ∧
    pstate (part2 .configured) 2 = .configured ∧ smGet false (irqRunning (sources 7) 2 true).irq.running 2 = true := by
  unfold pagePasses passes; decide +kernel
theorem test_apply_bad_vector : smGet 0 (nx (exec (.irqDiscard (.hcp tag2 0)) (sources 8))).irq.result 2 = 0 ∧
    stagedOf (nx (exec (.irqDiscard (.hcp tag2 0)) (sources 8))) 4 = 0 := by decide +kernel
/-- A bundle is being checked. -/
def bundled (s : State) : State := { s with book := { s.book with phase := .checking } }
theorem witness_irqBind : (∀ b ∈ [[2, 0x00080013, 0], [1, 0x00070013], [1, 0x00080009], [2, 0x00080013]],
      asked (withReq (sources 7) 64 5 0x0307 1 b) (.oper 0) 5 0x0307 1 b) ∧
    bindEntries [0x00080013] = [(9, 0x01080001)] ∧ bindEntries [0x00070013] = [(9, 0x01070001)] ∧ (bindEntries [0x00080009]).map (fun e => e.1) = [4] ∧
    bundleBusy (bundled (sources 7)) = true := by unfold asked; decide +kernel

/-- A Quench of PID 2 at a step. -/
def quenching (step : Nat) (f : Quench → Quench := id) (s : State := part2 .quenching) : State :=
  let q : Quench :=
    { pid := 2, outcome := 0, wasRun := true, requester := .firmware, esc := false, step := step, place := none, blocked := false,
      flushed := false, domsDone := false, keysDone := false, drained := false, lastAck := 0, held := 0 }
  { s with qn := { s.qn with active := [f q] } }
theorem witness_quenchCommands : fabOk p2 .sc1 = true ∧ pstate (part2 .configured) 2 = .configured ∧ (quenchOf (quenching 10) 2).isSome = true ∧
    pstate (quenching 10) 2 = .quenching ∧ (quenchOf (quenching 11) 2).isSome = true ∧ pstate run 2 = .free ∧ pstate (part2 .retiring) 2 = .retiring ∧
    genPermits late2 2 (((pshared late2 2).gen + 1) % 64) = true ∧
    asked (withReq p2 64 5 0x0304 1 [0x102]) (.oper 0) 5 0x0304 1 [0x102] ∧ asked (withReq p2 0 5 0x0304 1 [0x100]) (.priv 2) 5 0x0304 1 [0x100] ∧
    asked (withReq p2 64 5 0x0304 1 [0x202]) (.oper 0) 5 0x0304 1 [0x202] ∧ asked (withReq p2 64 5 0x0304 1 [1]) (.oper 0) 5 0x0304 1 [1] ∧
    ((quenching 2 (fun q => { q with blocked := true })).qn.active.find? (fun q => decide (q.step = 2) && q.blocked)).isSome = true ∧
    placedCount (quenching 2) < 4 ∧ p2.qn.active.find? (fun q => decide (q.step = 2) && q.blocked) = none ∧ quenchOf p2 2 = none ∧
    (quenchOf (quenching 5) 2).isSome = true := by unfold asked; decide +kernel
theorem test_quench_start : pstate (quenchStart p2 2 0 .firmware false) 2 = .quenching ∧
    (quenchStart (part2 .configured) 2 0 .firmware false).qn.active.map (fun q => q.outcome) = [1] := by decide +kernel
theorem test_quench_three : (quenchThree (quenching 2 (fun q => { q with blocked := true })) 2).qn.active.map (fun q => (q.step, q.place)) = [(3, some 0)] := by
  decide +kernel
/-- A quarantined partition, with one of the two requests to lift it. -/
def quarantined (byOper byPriv : Bool) : State :=
  let s := part2 .quarantined
  setPshared s 2 { pshared s 2 with liftOper := byOper, liftPriv := byPriv }
theorem witness_liftAndStart : (∀ b, pstate (quarantined b (!b)) 2 = .quarantined) ∧
    asked (withReq (quarantined false true) 64 5 0x0305 1 [2]) (.oper 0) 5 0x0305 1 [2] ∧
    asked (withReq (quarantined true false) 0 5 0x0305 1 [0]) (.priv 2) 5 0x0305 1 [0] ∧ asked (withReq p2 64 5 0x0305 1 [66]) (.oper 0) 5 0x0305 1 [66] ∧
    asked (withReq p2 64 5 0x0305 1 []) (.oper 0) 5 0x0305 1 [] ∧ asked (withReq p2 64 5 0x0303 1 [2]) (.oper 0) 5 0x0303 1 [2] ∧
    (part2 .configured).boot.loads = [] ∧ sitesOf (part2 .configured) 2 = [1] := by unfold asked; decide +kernel

/-- A response that waits for the release of sealed partition 2. -/
def holding (e : Sealed) : State := { sealed2 with qos := { sealed2.qos with held := [{ pid := 2, eff := e, master := false }] } }
theorem witness_admission : fabOk p2 .sc1 = true ∧ listSum (p2.part.active.pids.map p2.part.active.pRate) + 50000 ≤ p2.qos.capacity ∧
    (let full := { p2 with qos := { p2.qos with capacity := 1000 } }
     full.qos.capacity < listSum (full.part.active.pids.map full.part.active.pRate) + 1) ∧
    heldAt (holding (.word 5)) 2 0 false = some (0, { pid := 2, eff := .word 5, master := false }) ∧
    heldAt (holding (.hcp .ok [7] 0)) 2 0 true = some (0, { pid := 2, eff := .hcp .ok [7] 0, master := false }) ∧
    heldAt (holding (.word 5)) 2 0 true = none ∧ heldAt (holding (.word 5)) 2 1 false = none ∧
    (rshared (setRshared p2 3 { rshared p2 3 with state := 1 }) 3).state = 1 ∧ (rshared p2 3).state ≠ 1 := by decide +kernel
theorem test_token : (bucket (nx (exec (.tokenRefill 65) p2)) 65).tokens = 1 ∧ (bucket (nx (exec (.tokenRefill 66) p2)) 66).tokens = 0 := by decide +kernel
theorem test_oper_rate : (nx (exec (.qosOperRateWrite .sc1 50000) p2)).qos.operRate = 50000 ∧
    (nx (exec (.qosOperRateWrite .sc1 50001) p2)).rsp = some { code := .eaccess, data := [] } := by decide +kernel
theorem test_sealed_release : (channel (nx (exec (.sealedRelease 2 0) (holding (.word 5)))) 0).notes = [5] ∧
    (nx (exec (.sealedHcpResponse 2 0) (holding (.hcp .ok [7] 0)))).rsp = some { code := .ok, data := [7] } := by decide +kernel

/-! ## Witnesses: the Assay's commands -/

/-- The descriptor buffer of PID 2 with words at offsets, over region 3 with checker 7, which port 0 taps, and a quota. -/
def described (ws : List (Nat × Nat)) (quota : Nat := 1536) : State :=
  let s := setApart (setTap region3 0 { tapReset with checker := some 7 }) 2 { apartReset with quota := quota }
  let t := { s with part := { s.part with tierMap := [{ tier := 0, base := 0, size := 2 ^ 30, first := 7, count := 1, port := 0 }] } }
  ws.foldl (fun u w => pset u (0x5100 + w.1) (w32 w.2)) t
/-- GEMM with 1 by 1 by 1 elements of INT8 and an INT32 result; further words replace these. -/
def gemm (more : List (Nat × Nat) := []) : List (Nat × Nat) :=
  [(0, 0x101), (4, 0x80000007), (8, 1), (12, 1), (16, 1), (0x30, 0x30300202), (0x50, 0x400000), (0x58, 8), (0x68, 0x400080), (0x70, 8), (0x80, 0x400100),
    (0x88, 8)] ++ more
theorem witness_submit : pagePasses (described (gemm)) (.hcp tag2 0) 5 0x40 ∧ freePlace (described (gemm)) 2 = some 0 ∧
    freePlace (running (word 0 0)) 2 = some 1 ∧
    (let d := asyDesc (described (gemm)) 2
     opDescOk d = true ∧ opDeclOk d = true ∧ opLimitOk d = true ∧ tensorsOwned (described (gemm)) 2 (opTensors d) = true ∧ oKind d ≠ 0x80 ∧
     scratchHeld (described (gemm)) 2 + opCost d ≤ (apart (described (gemm)) 2).quota ∧ (drbgGrant (described (gemm)) false).isSome = true ∧
     allTapped (described (gemm)) (opTensors d) = true) := by unfold pagePasses passes; decide +kernel
/-- The result of SUBMIT or RUN. -/
def result (i : Instr) (s : State) : Nat := (apart (nx (exec i s)) 2).result
theorem test_submit : (opAt (nx (exec (.asySubmit (.hcp tag2 0)) (described (gemm)))) 2 0).map (fun o => (o.trig, o.stage)) = some (7, 0) ∧
    result (.asySubmit (.hcp tag2 0)) (described (gemm [(8, 0)])) = 2 ∧ result (.asySubmit (.hcp tag2 0)) (described (gemm [(0x30, 0x31300202)])) = 3 ∧
    result (.asySubmit (.hcp tag2 0)) (described (gemm [(0x50, 0x300000)])) = 5 ∧ result (.asySubmit (.hcp tag2 0)) (described (gemm) 0) = 6 := by decide +kernel
/-- A run of handle 0 with one window of 1 element, LM_SIZE 4096, FUEL 100. -/
def runDesc (more : List (Nat × Nat) := []) : List (Nat × Nat) :=
  [(0, 0x02000080), (4, 0x80000007), (8, 4096), (12, 1), (16, 100), (0xA0, 0x400000), (0xA8, 8), (0xB8, 1), (0xBC, 1), (0xC0, 1), (0xC4, 1), (0xC8, 2)] ++ more
/-- With a program under handle 0. -/
def resident (s : State) : State := { s with asy := { s.asy with progs := [{ pid := 2, handle := 0, obj := obj 0, digest := [] }] } }
theorem witness_run :
    let s := resident (described (runDesc))
    let d := asyDesc s 2
    pagePasses s (.hcp tag2 0) 5 0x40 ∧ freePlace s 2 = some 0 ∧ oKind d = 0x80 ∧ (progOf s 2 (oBands d)).isSome = true ∧
    progOf (described (runDesc)) 2 (oBands d) = none ∧ runDescOk d 0 = true ∧ runDescOk d 512 = true ∧ runLimitOk d = true ∧
    tensorsOwned s 2 (runTensors d) = true ∧ scratchHeld s 2 + runCost d ≤ (apart s 2).quota ∧ (drbgGrant s false).isSome = true ∧
    allTapped s (runTensors d) = true := by unfold pagePasses passes; decide +kernel
theorem test_run : (opAt (nx (exec (.asyRun (.hcp tag2 0)) (resident (described (runDesc))))) 2 0).map (fun o => o.isRun) = some true ∧
    result (.asyRun (.hcp tag2 0)) (described (runDesc)) = 10 ∧ result (.asyRun (.hcp tag2 0)) (resident (described (runDesc [(8, 1)]))) = 2 ∧
    result (.asyRun (.hcp tag2 0)) (resident (described (runDesc [(0xA0, 0x300000)]))) = 5 := by decide +kernel

/-- An operation of TRIG 7 in place 0 of PID 2. -/
def opIn (f : AOp → AOp) (s : State := p2) : State := setOp s 2 0 (f { aop (ctx 0) with ctx := none, kind := 1, trig := 7, bandsE := 1 })
/-- ASY_ARG with TRIG and place. -/
def arg (n : Nat) (s : State) : State := pset s 0x5044 (w32 n)
/-- The registers of the verdict ring. -/
def logAt (base slots : Nat) (s : State := region3) : State := pset (pset s 0x5060 (w32 base)) 0x5068 (w32 slots)
theorem witness_assayProgress : pagePasses (arg 7 (opIn id)) (.hcp tag2 0) 5 0x40 ∧ hasTrig (opIn id) 2 7 = true ∧ hasTrig (opIn id) 2 8 = false ∧
    opAt (opIn id) 2 0 ≠ none ∧ opAt p2 2 0 = none ∧ ownedRegion (logAt 0x400000 4096) 2 0x400000 (128 * 4096) = some 3 ∧
    ownedRegion (logAt 0x3FF000 64) 2 0x3FF000 8192 = none ∧ (apart (logAt 0x400000 2) 2).ringBusy = false ∧ (apart (logAt 0x400000 2) 2).ringOn = false ∧
    (∀ st ∈ [0, 1, 2], (opAt (opIn (fun o => { o with stage := st })) 2 0).map (fun o => o.stage) = some st) ∧
    (opAt (opIn id) 2 0).map (fun o => (o.isRun, o.tapFault, o.sampled)) = some (false, false, true) ∧ (aop (ctx 0)).tally = none ∧
    (opAt (running (word 0)) 2 0).map (fun o => (o.isRun, o.sampled)) = some (true, true) := by unfold pagePasses passes; decide +kernel
theorem test_close : (opAt (nx (exec (.asyClose (.hcp tag2 0)) (arg 7 (opIn id)))) 2 0).map (fun o => o.stage) = some 1 ∧
    result (.asyClose (.hcp tag2 0)) (arg 8 (opIn id)) = 7 := by decide +kernel
theorem test_counting_end : (opAt (nx (exec (.countingWindowEnd 2 0) (opIn (fun o => { o with stage := 1 })))) 2 0).map (fun o => o.stage) = some 2 := by
  decide +kernel
theorem test_log_register : (result (.asyCancel (.hcp tag2 0)) (arg 0x10000 (opIn id))) = 7 := by decide +kernel

/-- Port 0 mirrors checker 7, with a last sequence number. -/
def tapped (f : Tap → Tap := id) : State := setTap p2 0 (f { tapReset with checker := some 7 })
/-- A TAPn_META with a sequence number and the CRC of zero data. -/
def beatInfo (pseq : Nat) : BitVec 128 := BitVec.ofNat 128 (pseq * 2 ^ 32 + (tapCrc (BitVec.ofNat 128 (pseq * 2 ^ 32)) 0).toNat)
theorem witness_taps : (tapPort p2 0).checker = none ∧ (tapPort (tapped) 0).checker = some 7 ∧ (tapPort (tapped) 0).disabled = false ∧
    (tapPort (tapped (fun t => { t with disabled := true })) 0).disabled = true ∧ (metaOf (beatInfo 0)).crc = tapCrc (beatInfo 0) 0 ∧
    (metaOf (beatInfo 0)).pseq = (65535 + 1) % 65536 ∧ (metaOf 1).crc ≠ tapCrc 1 0 ∧ openOps (tapped) = [] ∧ serving (tapped) = true ∧
    State.reset.block ≠ .boot ∧ serving State.reset = false := by decide +kernel
theorem test_tap_sequence : (tapPort (nx (exec (.tapBeat 0 0 (beatInfo 0) true) (tapped (fun t => { t with pseq := some 65535 })))) 0).pseq = some 0 ∧
    (nx (exec (.tapBeat 0 0 (beatInfo 0) true) (tapped (fun t => { t with pseq := some 0 })))).asy.tapFaults = 1 := by decide +kernel
theorem test_tap_disabled : (tapPort (nx (exec (.tapBeat 0 0 1 true) (tapped (fun t => { t with faults := List.replicate 16 0 })))) 0).disabled = true ∧
    (tapPort (nx (exec (.tapBeat 0 0 1 true) (tapped (fun t => { t with faults := List.replicate 15 0 })))) 0).disabled = false := by decide +kernel
theorem witness_quotas : quotaCheck p2 [(2, 0, 1536)] = 0 ∧ quotaCheck p2 [(2, 0, 1537)] = 4 ∧ quotaCheck p2 [(1, 0, 0)] = 6 ∧ quotaCheck p2 [(2, 1, 0)] = 6 ∧
    quotaCheck sealed2 [(2, 16, 0)] = 0 ∧ fld (reg (setReg p2 0x11040 2) 0x11040) 7 0 = 2 ∧
    asked (withReq p2 64 5 0x0401 1 [1, 0x02000600]) (.oper 0) 5 0x0401 1 [1, 0x02000600] ∧
    asked (withReq p2 64 5 0x0401 1 [2, 0x02000600]) (.oper 0) 5 0x0401 1 [2, 0x02000600] := by unfold asked; decide +kernel
theorem test_quota_write : (apart (nx (exec (.asfQuotaWrite .sc1 1536) (setReg p2 0x11040 2))) 2).quota = 1536 ∧
    (nx (exec (.asfQuotaWrite .sc1 1537) (setReg p2 0x11040 2))).rsp = some { code := .eaccess, data := [] } := by decide +kernel
theorem test_slot_frame : (nx (exec .slotFrameBoundary (setApart sealed2 2 { apartReset with slots := 3 }))).asy.frame = [2, 2, 2] ++ List.replicate 13 0 := by
  decide +kernel

/-- An object of one instruction (END at address 0) whose format holds. -/
def goodObj (entry : Nat := 0xFFFF) (ins : Nat := 0x01) : List Byte :=
  let head := leBytes 4 0x5041584B ++ [1, 0, 0, 0, 1, 0] ++ leBytes 2 entry ++ [0, 0, 0, 0] ++ leBytes 4 512 ++ leBytes 4 20 ++ List.replicate 36 0
  let code := leBytes 8 (ins * 2 ^ 56)
  head ++ leBytes 4 (crc32c (head ++ code)).toNat ++ code
def buffered (bs : List Byte) (s : State := p2) : State := setApart s 2 { apart s 2 with loadBuf := bs }
theorem witness_programs : pagePasses p2 (.hcp tag2 0) 5 0x300 ∧ pagePasses p2 (.hcp tag2 0) 5 0x400 ∧ freeHandle p2 2 = some 0 ∧
    objFormatOk (goodObj) = true ∧ objEntryOk (goodObj) = true ∧ objBad (goodObj) = none ∧ objFormatOk [] = false ∧ objFormatOk (goodObj 1) = true ∧
    objEntryOk (goodObj 1) = false ∧ objBad (goodObj 0xFFFF 0xFF) = some 0 ∧ p2.asy.progs.length < 32 ∧ progOf p2 2 0 = none ∧
    (progOf (resident p2) 2 0).isSome = true ∧ runsOf (resident p2) 2 0 = 0 ∧ 0 < runsOf (opIn (fun o => { o with kind := 0x80, handle := 0 })) 2 0 ∧
    (apart (buffered (List.replicate 16383 0)) 2).loadBuf.length = 16383 := by unfold pagePasses passes; decide +kernel
/-- The result of a command of the program page. -/
def prgRes (i : Instr) (s : State) : Nat := (apart (nx (exec i s)) 2).prgRes
theorem test_load : prgRes (.prgLoad (.hcp tag2 0)) (buffered []) = 1 ∧ prgRes (.prgLoad (.hcp tag2 0)) (buffered (goodObj 1)) = 2 ∧
    prgRes (.prgLoad (.hcp tag2 0)) (buffered (goodObj 0xFFFF 0xFF)) = 3 ∧ prgRes (.prgUnload (.hcp tag2 0)) p2 = 7 ∧
    (nx (exec (.prgUnload (.hcp tag2 0)) (resident p2))).asy.progs = [] ∧ (apart (nx (exec (.prgInfo (.hcp tag2 0)) (resident p2))) 2).info = 0x80000002 := by
  decide +kernel
theorem test_window : (nx (exec (.prgWindowWrite (.hcp tag2 0) [1, 2]) (buffered (List.replicate 16383 0)))).rsp = some { code := .efull, data := [] } ∧
    (apart (nx (exec (.prgWindowWrite (.hcp tag2 0) [1, 2]) (buffered [7]))) 2).loadBuf = [7, 1, 2] := by decide +kernel

/-! ## Witnesses: the Pattern Book, the Ledger, messages -/

/-- Version 7 with the active tables is the one version of the book. -/
def version7 (s : State := p2) : State :=
  { s with epoch := { s.epoch with curValid := true, curVersion := 7 },
           part := { s.part with versions := [{ num := 7, ep := true, bank := s.part.active, shared := [], regions := [] }] } }
/-- A phase of the bundle in progress. -/
def phase (ph : BPhase) (f : Book → Book := id) (s : State := version7) : State := { s with book := f { s.book with phase := ph } }
/-- A bundle without entries on a base. -/
def noEntries (base : Nat) : List Byte := bundleBytes { num := 0, ep := false, bank := Bank.empty, shared := [], regions := [] } base
theorem witness_patternBook : passes (version7) (.hcp tag1 0) (.oper 7 0x40) true ∧ passes (version7) (.hcp tag1 0) (.oper 7 0x800) true ∧
    (∀ ph ∈ [BPhase.checking, .consent, .quiesce, .committing, .rollback], bundleBusy (phase ph) = true) ∧
    (∀ ph ∈ [BPhase.idle, .loading, .done], bundleBusy (phase ph) = false) ∧ (version7).pwr.phase = 0 ∧
    (bookSlot (version7) 0).isSome = true ∧ (bookSlot (version7) 1).isSome = false ∧ fld (reg (version7) 0x8704C) 2 0 = 0 ∧
    fld (reg (setReg (version7) 0x8704C 1) 0x8704C) 2 0 = 1 ∧ bundleHead (phase .quiesce) = false ∧
    bundleHead (pushJob (inWindow (phase .quiesce)) .bundle) = true := by unfold passes; decide +kernel
theorem witness_bundle : (parseBundle (noEntries 7)).map (fun x => (x.base, x.parts, x.regs, x.srcs)) = some (7, [], [], []) ∧
    (parseBundle []).isNone = true ∧ bundleCheck (version7) Bank.empty = 0 ∧
    bundleCheck (version7 (part2 .quenching)) (version7).part.active = 15 := by decide +kernel
/-- BOOK_STATUS.CMDRES after a command. -/
def cmdres (i : Instr) (s : State) : Nat := (nx (exec i s)).book.cmdres
theorem test_book_phases : cmdres (.bookSubmit (.hcp tag1 0)) (phase .idle) = 2 ∧ cmdres (.bookOpen (.hcp tag1 0)) (phase .committing) = 1 ∧
    (bookOpen (phase .done)).book.phase = .loading ∧ (bookAbort (phase .loading)).book.result = 16 ∧ (bookAbort (phase .idle)).book.cmdres = 2 := by
  decide +kernel
theorem test_submit_results : (bookSubmit (phase .loading (fun b => { b with buf := [] }))).book.result = 1 ∧
    (bookSubmit (phase .loading (fun b => { b with buf := noEntries 8 }))).book.result = 2 ∧
    (bookSubmit (phase .loading (fun b => { b with buf := noEntries 7 }) (version7 (part2 .quenching)))).book.result = 15 := by decide +kernel
theorem test_window_write : (nx (exec (.bookWindowWrite (.hcp tag1 0) [1]) (phase .loading (fun b => { b with buf := [9] })))).book.buf = [9, 1] ∧
    (nx (exec (.bookWindowWrite (.hcp tag1 0) [1]) (phase .idle))).rsp = some { code := .edown, data := [] } := by decide +kernel

/-- The pending bundle waits for the consent of partition 2, which has been told version 8. -/
def consenting : State := phase .consent (fun b => { b with needed := [2], digest := List.replicate 48 1, notices := [(2, 0, 8)] })
/-- A CONSENT body: digest bytes, version and decision. -/
def consentBody (x : Word) (v dec : Nat) : List Word := List.replicate 12 x ++ [w32 (dec * 65536 + v)]
theorem witness_consent : (∀ b ∈ [consentBody 0x01010101 8 1, consentBody 0x01010101 8 2, consentBody 0x01010101 8 3, consentBody 0 8 1, [0]],
      asked (withReq consenting 0 5 0x0302 1 b) (.priv 2) 5 0x0302 1 b) ∧
    consenting.book.needed.contains 2 = true ∧ (wordsToBytes (consentBody 0x01010101 8 1)).take 48 = consenting.book.digest ∧
    (wordsToBytes (consentBody 0 8 1)).take 48 ≠ consenting.book.digest ∧ genOf consenting 2 = 0 ∧
    fld ((consentBody 0x01010101 8 2).getD 12 0) 23 16 = 2 ∧ fld ((consentBody 0x01010101 8 2).getD 12 0) 15 0 = 8 := by unfold asked; decide +kernel
theorem test_consent : (consentMsg consenting 0 5 (consentBody 0x01010101 8 1)).book.given = [2] ∧
    (consentMsg consenting 0 5 (consentBody 0x01010101 8 2)).book.result = 11 := by decide +kernel

/-- The Ledger in a mode; LGF operands of SC1. -/
def ledgerIn (m : LMode) : State := { p2 with ledger := { p2.ledger with mode := m, nextSlot := 40 } }
def lgf (e : Word) (s : State) : State := setReg s (whoKey .sc1 0x13060) e
theorem witness_ledger : passes (ledgerIn .ring) (.hcp tag1 0) (.oper 5 0x50) true ∧ fabOk (ledgerIn .ring) .sc1 = true ∧
    (∀ n ∈ [0x02100053, 0x41600001], let e := reg (lgf (w32 n) p2) (whoKey .sc1 0x13060)
      fld e 15 0 ∈ eventCodes ∧ fld e 23 20 ≤ 6 ∧ fld e 17 16 ≠ 3 ∧ fld e 31 24 ≤ 65) ∧
    (fld (0x42100053 : Word) 31 24 = 66 ∧ fld (0x02700053 : Word) 23 20 = 7 ∧ fld (0x02130053 : Word) 17 16 = 3 ∧ 0x55 ∉ eventCodes) := by
  unfold passes; decide +kernel
theorem test_lgf_write : (smGet none (nx (exec (.lgfWrite .sc1) (lgf 0x02100053 (ledgerIn .ring)))).ledger.slots 40).isSome = true ∧
    fld (reg (nx (exec (.lgfWrite .sc1) (lgf 0x42100053 (ledgerIn .ring)))) (whoKey .sc1 0x13070)) 31 28 = 2 ∧
    (nx (exec (.lgfWrite .sc1) (lgf 0x02100053 (ledgerIn .stopped)))).ledger.discarded = 1 := by decide +kernel
theorem test_release : (nx (exec (.lgRelease (.hcp tag1 0)) (ledgerIn .stopped))).ledger.mode = .ring ∧
    (nx (exec (.lgRelease (.hcp tag1 0)) (ledgerIn .ring))).ledger.nextSlot = 40 := by decide +kernel
/-- Sensed in PROVISIONED with key set 0 live. -/
def keyset0 : State := { p2 with fuse := { p2.fuse with sensed := { p2.fuse.sensed with lcs := 3 } } }
theorem witness_unlock : serving keyset0 = true ∧ keyset0.fuse.sensed.noDebugUnlock = false ∧ 0 ∈ unlockSets keyset0.fuse.sensed.lcs ∧ keysetLive keyset0 0 = true ∧
    1 ∉ unlockSets keyset0.fuse.sensed.lcs ∧ keysetLive { keyset0 with fuse := { keyset0.fuse with sensed := { keyset0.fuse.sensed with revoked := 1 } } } 0 = false := by
  decide +kernel

theorem witness_version : (∀ b ∈ [[(0x02000000 : Word), 0x200, 0x105], [0x01000000, 0x200], [0x05000000], [0]],
      asked (withReq p2 64 5 1 1 b) (.oper 0) 5 1 1 b) ∧ fld (0x105 : Word) 15 8 = 1 ∧ fld (0x200 : Word) 15 8 ≠ 1 ∧
    (channel (chan (withReq p2 64 5 1 1 []) 64 (fun v => { v with version := none })) 64).version = none ∧
    (channel (withReq p2 0 5 1 1 []) 0).version = some (1, 0) ∧ (channel (withReq p2 0 5 1 1 []) 0).outst.length = 1 := by unfold asked; decide +kernel
theorem witness_echo : (∀ n ∈ [0, 7, 8], asked (withReq p2 64 5 3 1 (List.replicate n 9)) (.oper 0) 5 3 1 (List.replicate n 9)) := by unfold asked; decide +kernel
theorem test_echo : (channel (nx (exec (.echo (.oper 0) 5) (withReq p2 64 5 3 1 [9]))) 64).rx.drop 1 = [0, 9] := by decide +kernel

/-- Domain 4 has power and belongs to no tenant; domain 5 is partition 2's. -/
def domains45 (s : State := p2) : State :=
  { s with pins := { s.pins with pdStatus := 0x30 }, part := { s.part with active := { s.part.active with pw := smSet 0 s.part.active.pw 37 0x20 } } }
theorem witness_operTally : (∀ op ∈ [0, 1, 2, 3, 4, 5, 6], asked (withReq p2 64 5 0x0103 1 [w32 (op * 2 ^ 28 + 63), 1, 0, 0, 0]) (.oper 0) 5 0x0103 1 [w32 (op * 2 ^ 28 + 63), 1, 0, 0, 0]) ∧
    fld (w32 (4 * 2 ^ 28 + 63)) 31 28 = 4 ∧ badWait p2 (tallyOwner p2 16383) 0 = false ∧ (waitEntry p2 16383 0).state ≠ 1 := by unfold asked; decide +kernel
theorem test_oper_tally : tallyValue (nx (exec (.operTally (.oper 0) 5) (withReq p2 64 5 0x0103 1 [0x2000003F, 0, 0, 0, 0]))) 16383 = 1 ∧
    (waitEntry (nx (exec (.operTally (.oper 0) 5) (withReq p2 64 5 0x0103 1 [0x4000003F, 1, 0, 0, 0]))) 16383 0).state = 1 := by decide +kernel
theorem witness_domainReset : (∀ x ∈ [(64, Chan.oper 0, (4 : Word)), (0, .priv 2, 5)], asked (withReq (domains45) x.1 5 0x0308 1 [x.2.2]) x.2.1 5 0x0308 1 [x.2.2]) ∧
    hubDomain (domains45) 4 = true ∧ ownsDomain (domains45) 2 5 = true ∧ ownsDomain (domains45) 2 4 = false ∧ pstate (domains45) 2 = .running ∧
    (domains45).pins.pdStatus.getLsbD 4 = true ∧ p2.pins.pdStatus.getLsbD 4 = false ∧ pstate (part2 .quenching) 2 = .quenching := by unfold asked; decide +kernel
theorem witness_domainPower : (∀ x ∈ [(64, Chan.oper 0, (4 : Word)), (0, .priv 2, 0x105)], asked (withReq (domains45) x.1 5 0x0603 1 [x.2.2]) x.2.1 5 0x0603 1 [x.2.2]) ∧
    domainPowerCheck (domains45) none 4 2 = 0 ∧ domainPowerCheck (domains45) (some 2) 5 1 = 0 ∧ domainPowerCheck (domains45) (some 2) 4 1 = 6 ∧
    domainPowerCheck (domains45) none 39 2 = 0 ∧ domainPowerCheck (domains45) none 40 2 = 6 := by unfold asked; decide +kernel
theorem witness_sleepRequest : asked (withReq p2 64 5 0x0601 1 [10000, 0, 0xFF]) (.oper 0) 5 0x0601 1 [10000, 0, 0xFF] ∧ sleepRefused p2 10000 (0xFF * 2 ^ 32) = 0 ∧
    sleepRefused p2 10001 0 = 4 ∧ sleepRefused p2 0 (2 ^ 40) = 6 := by unfold asked; decide +kernel

/-! ## Witnesses: attestation, sessions, TDISP -/

/-- The device identity and the partition source are in slots 1 and 0. -/
def lives (s : State := p2) : State :=
  setSlot (setSlot s 0 { key := 12345, attr := mkAttr 0 2 3 0 0 4 }) 1 { key := 777, attr := mkAttr 0 2 3 0 0 4 }
/-- A session on a channel whose master secret is in slot 20. -/
def sess (c : Nat) (f : Session → Session := id) (s : State := lives) : State :=
  let t := setSlot (setSlot (setSlot s 20 { key := 5, attr := mkAttr 1 2 3 0 2 4 }) 21 { key := 6, attr := mkAttr 1 0 2 0 2 2 }) 22
    { key := 7, attr := mkAttr 1 0 2 0 2 1 }
  setSession t c (some (f {
    opening := false, reqId := 3, rspId := 4, pid := 2, gen := 0, hsSlot := 20, hsKeys := [21, 22, 21, 22], master := 20, reqKey := 21,
    rspKey := 22, update := 1, delivery := 2, kem := true, kemHash := [], th := [], lastRec := 0 }))
/-- A session request of a channel. -/
def sessReq (c : Nat) (s : State) : State := withReq s c 5 0x0201 1 [9]
/-- A record with a WSP message. -/
def inner (code : Nat) (body : List Word) : List Byte := wordsToBytes (mkHeader code 1 0 0 5 :: body)

/-- The life-cycle state is OWNED. -/
def owned (s : State) : State := { s with fuse := { s.fuse with sensed := { s.fuse.sensed with lcs := 4 } } }
theorem witness_hallmark : (∀ n ∈ [1, 2, 16, 17], asked (withReq lives 0 5 0x0202 1 (List.replicate n 7)) (.priv 2) 5 0x0202 1 (List.replicate n 7)) ∧
    hmkPidOk lives 2 = true ∧ noHallmarks lives = true ∧ noHallmarks (owned lives) = false ∧ hmkPidOk (lives (part2 .free)) 2 = false ∧ lives.att.preps = [] ∧ lives.epoch.window = false ∧
    (inWindow lives).epoch.window = true ∧ (∀ j ∈ [0, 1, 2, 3], (hmkPlace lives j).held = false) ∧
    (hmkPlace (place0 { hmkPlaceReset with held := true } lives) 0).held = true := by unfold asked; decide +kernel
theorem test_hallmark_takes_lowest_place : let s := place0 { hmkPlaceReset with held := true } lives
    [0, 1, 2, 3].find? (fun k => !(hmkPlace s k).held) = some 1 ∧ (hmkTake s 1 2).1 = 0 ∧ hmkPlace (hmkTake s 1 2).2 1 = hmkSnapshot p2 2 := by decide +kernel
theorem test_hallmark_in_window : (nx (exec (.hallmarkGet (.priv 2) 5 .clear) (withReq (inWindow (owned lives)) 0 5 0x0202 1 [1, 2]))).att.preps.map
    (fun x => x.place) = [255] := by decide +kernel
/-- An object of partition 2 with a status. -/
def object1 (st : Nat) (s : State := region3) : State :=
  setWeight s 2 1 (some { base := 0, len := 5, status := st, phase := 2, granted := [], leaves := [], leaf := [], done := 0, root := [1], start := 77, stop := 88 })
theorem witness_weight : (∀ b ∈ [[1, 0x400000, 0, 0x1000, 0], [16, 0x400000, 0, 1, 0], [17, 0x400000, 0, 1, 0], [0, 0x400000, 0, 1, 0], [1, 0x400000, 0, 1, 0x100], [1]],
      asked (withReq region3 0 5 0x0203 1 (b.map w32)) (.priv 2) 5 0x0203 1 (b.map w32)) ∧ rangeOwned region3 2 0x400000 0x1000 = true ∧
    rangeOwned region3 2 0x3FF000 0x2000 = false ∧ weight region3 2 1 = none ∧ weightsRunning region3 = 0 ∧
    asked (withReq (object1 0) 0 5 0x0204 1 [1]) (.priv 2) 5 0x0204 1 [1] ∧ (∀ st ∈ [0, 1, 2, 3], (weight (object1 st) 2 1).map (fun o => o.status) = some st) ∧
    sealed (object1 0) 2 = false := by unfold asked; decide +kernel
theorem test_weight_status : (channel (nx (exec (.weightStatus (.priv 2) 5 .clear) (withReq (object1 0) 0 5 0x0204 1 [1]))) 0).rx.drop 1 =
    [0, 77, 0, 88, 0, 1, 1] := by decide +kernel
theorem test_weight_measure : (channel (nx (exec (.weightMeasure (.priv 2) 5 .clear) (withReq region3 0 5 0x0203 1 [17, 0x400000, 0, 1, 0]))) 0).rx.drop 1 =
    [0x06000000] := by decide +kernel

theorem witness_sessionMessages : (∀ code ∈ [0x0205, 0x0206, 0x0207], asked (withReq (sess 0) 0 5 code 1 [1]) (.priv 2) 5 code 1 [1]) ∧
    asked (sessReq 0 (sess 0)) (.priv 2) 5 0x0201 1 [9] ∧ (session (sessReq 0 (sess 0)) 0).map (fun v => (v.opening, v.kem)) = some (false, true) ∧
    (session (sess 0 (fun v => { v with kem := false })) 0).map (fun v => v.kem) = some false ∧ (sess 0).rng.dead = false ∧ (sess 0).rng.es ≠ 2 ∧
    3 ≤ (emptySlots (sess 0)).length ∧ session (sess 0) 1 = none := by unfold asked; decide +kernel
theorem witness_inner : (∀ code ∈ [0x0205, 0x0206, 0x0207], innerMsg (inner code [4, 0x01020304]) = (code, [4, 0x01020304])) ∧
    bodyBytes [4, 0x01020304] = some [4, 3, 2, 1] ∧ bodyBytes [9, 1] = none ∧ (List.replicate 392 (0 : Word)).length = 392 ∧
    (innerMsg (inner 0x0205 (List.replicate 392 0))).2.length = 392 := by decide +kernel
/-- Agents 9 and 11 are of kind 4, and region 3 is in tier 2. -/
def agents (s : State) : State :=
  { s with cpb := { s.cpb with agents := [(9, { agentReset with present := true, kind := 4 }), (11, { agentReset with present := true, kind := 4 })] },
           part := { s.part with active := { s.part.active with rw := [(12, 0x80000002), (13, 0x02800001)] } } }
/-- A delivery of 64 bytes of A5 to port 0, with count 3, under the session's master secret. -/
def delivery : List Byte :=
  [1, 0, 0, 0, 77, 0, 0, 0, 3, 0, 0, 0, 3, 3, 3, 3, 3, 3, 3, 3, 3, 3, 3, 3, 161, 67, 81, 63, 0, 192, 82, 91, 89, 59, 161,
   130, 83, 227, 139, 89, 149, 186, 192, 156, 105, 238, 155, 231, 158, 245, 155, 155, 91, 60, 38, 155, 236, 23, 114, 58,
   104, 242, 148, 136, 15, 105, 242, 65, 115, 72, 16, 243, 13, 197, 122, 32, 72, 26, 234, 23, 199, 178, 62, 215, 79, 88,
   127, 216, 125, 16, 31, 19, 189, 224, 149, 245, 136, 124, 216, 171, 234, 40, 104, 75]
def deliverTo : State := agents (sess 0)
/-- The session's record. -/
def theSession (kem : Bool) (n : Nat) : Session :=
  {
    opening := false, reqId := 3, rspId := 4, pid := 2, gen := 0, hsSlot := 20, hsKeys := [21, 22, 21, 22], master := 20, reqKey := 21,
    rspKey := 22, update := 1, delivery := n, kem := kem, kemHash := [], th := [], lastRec := 0 }
theorem witness_delivery : session deliverTo 0 = some (theSession true 2) ∧ deliverRefused deliverTo (theSession true 2) 0 delivery = 0 ∧
    deliverRefused deliverTo (theSession false 2) 0 delivery = 3 ∧ deliverRefused deliverTo (theSession true 2) 0 (0 :: delivery) = 6 ∧
    deliverRefused deliverTo (theSession true 3) 0 delivery = 1 ∧ keyAgent deliverTo (operChan 0) 2 1 0 = some 9 ∧
    (emptySlots deliverTo).head? = some 8 ∧ freeIndex deliverTo 9 = some 0 := by decide +kernel
/-- A delivery that opens, and a short one whose tag fails. -/
theorem witness_deliverOpen : deliverOpen deliverTo (theSession true 2) delivery = some (List.replicate 64 0xA5) := by decide +kernel
theorem witness_deliverClosed : (deliverOpen deliverTo (theSession true 2) (delivery.take 12)).isNone = true := by decide +kernel
/-- A key of partition 2 in a phase. -/
def holdsKey (ph : Nat) : State :=
  let s := sess 0
  { s with att := { s.att with keys := [{ pid := 2, keyId := 77, purpose := 1, dir := 0, target := 0, slot := 9, agent := 9, index := 0, asker := none, phase := ph }] } }
theorem witness_revoke : (∀ x ∈ [(2, 77, true), (2, 78, false), (3, 77, false)],
    ((holdsKey x.1).att.keys.find? (fun k => decide (k.pid = 2 ∧ k.keyId = (([w32 x.2.1] : List Word).headD 0).toNat ∧ k.phase = 2))).isSome = x.2.2) := by
  decide +kernel
theorem test_session_ends : session (nx (exec (.sessionIdleTimeout (.priv 2)) (sess 0))) 0 = none ∧
    slotOf (nx (exec (.sessionIdleTimeout (.priv 2)) (sess 0))) 20 = slotReset := by decide +kernel

/-- An X.509 frame around a key of the empty length: the device without its slots has an empty identity. -/
def emptyCert : List Byte := [0x30, 25, 0x30, 21, 0xA0, 1, 0, 2, 1, 1, 0x30, 0, 0x30, 0, 0x30, 0, 0x30, 0, 0x30, 5, 0x30, 0, 3, 1, 0, 0x30, 0]
theorem witness_endorse : certPublicKey emptyCert = some (devidEc p2) ∧ certPublicKey [1, 2] = none ∧ bodyBytes [9] = none ∧
    asked (withReq p2 64 5 0x0208 1 (byteString emptyCert)) (.oper 0) 5 0x0208 1 (byteString emptyCert) ∧
    bodyBytes (byteString emptyCert) = some emptyCert := by unfold asked; decide +kernel
theorem test_endorse : (nx (exec (.identEndorse (.oper 0) 5) (withReq p2 64 5 0x0208 1 (byteString emptyCert)))).att.endorseEc = emptyCert := by decide +kernel
/-- Pod-keyed, with device 0x345678. -/
def podded (b : Bool := true) : State :=
  { p2 with fuse := { p2.fuse with sensed := { p2.fuse.sensed with podKeyed := b, rows := smSet 0 p2.fuse.sensed.rows 0x388 0x345678 } } }
/-- A token for a device, without its keys. -/
def podTok (id : Nat) : List Byte := [0x4B, 0x58, 0x50, 0x54] ++ leBytes 4 id ++ List.replicate 1752 0
theorem witness_podToken : (∀ id ∈ [0x345678, 0x345679], let bs := podTok id
      (decide (le bs 4 4 = nfld (identRow podded 0x388) 31 0 ∧ le bs 8 1 = nfld (identRow podded 0x388) 38 32)) = decide (id = 0x345678) ∧
      bs.length = 1760 ∧ slice bs 0 4 = [0x4B, 0x58, 0x50, 0x54] ∧ le bs 9 3 = 0 ∧ le bs 1677 3 = 0) ∧ (podOpen podded (podTok 0x345678)).isSome = false ∧
    podAttrOk ([0, 0, 0, 0, 0x23, 0, 0, 4] ++ List.replicate 64 1) = true ∧ podAttrOk ([0, 0, 0, 0, 0x03, 0, 0, 4] ++ List.replicate 64 1) = false ∧
    (emptySlots podded).head? = some 8 ∧ (podded false).fuse.sensed.podKeyed = false := by decide +kernel
theorem test_pod_token : ∀ x ∈ [(podded false, 0x345678, 5), (podded, 0x345679, 6), (podded, 0x345678, 9)],
    (channel (nx (exec (.podToken (.oper 0) 5) (withReq x.1 64 5 0x0102 1 (byteString (podTok x.2.1))))) 64).rx.drop 1 = [w32 (x.2.2 * 2 ^ 24)] := by decide +kernel

/-- The generator of P-384. -/
def basePoint : List Byte := ecBytes (some (p384gx, p384gy))
/-- `n` channels with sessions, `m` with handshakes. -/
def crowded (n m : Nat) : State :=
  (List.range m).foldl (fun s k => sess (40 + k) (fun v => { v with opening := true }) s) ((List.range n).foldl (fun s k => sess (1 + k) id s) lives)
theorem witness_spdm : asked (sessReq 0 lives) (.priv 2) 5 0x0201 1 [9] ∧ session lives 0 = none ∧ (session (sess 0) 0).isSome = true ∧
    (signSeed (taken (sessReq 0 lives) (.priv 2) 5 0x0201) 0x14 2).isSome = true ∧ (drbgGrant lives true).isSome = true ∧ (partSign p2 2 7).1.isNone = true ∧
    (∀ k ∈ [1, 0x30, 0x31], ((measBlocks lives 2).filter (fun x => decide (x.1 = (BitVec.ofNat 8 k).toNat))).isEmpty = false) ∧
    smGet ([], []) lives.att.chunks 0 = ([], []) := by unfold asked; decide +kernel
theorem witness_keyExchange : sessCount (crowded 20 3) false = 23 ∧ sessCount (crowded 20 3) true = 3 ∧ session (crowded 20 3) 0 = none ∧
    sessCount (crowded 24 0) false = 24 ∧ sessCount (crowded 0 4) true = 4 ∧ ecPoint basePoint = some (p384gx, p384gy) ∧ ecOn (p384gx, p384gy) = true ∧
    ecPoint (4 :: List.replicate 96 1) = some (beVal (List.replicate 48 1), beVal (List.replicate 48 1)) ∧
    ecOn (beVal (List.replicate 48 1), beVal (List.replicate 48 1)) = false ∧ (pairSeed (crowded 20 3) 0x14 1 2).isSome = true ∧
    (crowded 20 3).rng.dead = false ∧ (crowded 20 3).rng.es ≠ 2 ∧ 5 ≤ (emptySlots (crowded 20 3)).length := by decide +kernel
/-- Parts of a request and of an answer of channel 0. -/
def chunked (n m : Nat) : State := { p2 with att := { p2.att with chunks := [(0, (List.replicate n 1, List.replicate m 2))] } }
theorem witness_chunks (n m : Nat) : (smGet ([], []) (chunked n m).att.chunks 0).1.length = n ∧ (smGet ([], []) (chunked n m).att.chunks 0).2.length = m := by
  simp [chunked, smGet]
/-- The answer that was noted last. -/
def answered (i : Instr) (s : State) : Option SpdmRsp := (nx (exec i s)).att.answers.head?.map (fun a => a.2.2)
/-- The answer of an SPDM reply is the latest noted. -/
theorem noted (s : State) (c tag : Nat) (r : SpdmRsp) : ((spdmReply s c tag r).att.answers.head?.map (fun a => a.2.2)) = some r := by
  obtain ⟨ch, h⟩ := spdmReply_att s c tag r
  rw [h]; rfl
theorem test_get_version : answered (.getVersion (.priv 2) 5 .clear) (sessReq 0 p2) = some (.version 0x13) := noted _ _ _ _
theorem test_session_required : answered (.heartbeat (.priv 2) 5 .clear) (sessReq 0 p2) = some (.error "SessionRequired") := noted _ _ _ _
theorem test_no_such_slot : answered (.getCertificate (.priv 2) 5 .clear 2) (sessReq 0 p2) = some (.error "InvalidRequest") := noted _ _ _ _
theorem test_bad_record : answered (.heartbeat (.priv 2) 5 .badTag) (sessReq 0 (sess 0)) = some (.error "DecryptError") := noted _ _ _ _
theorem witness_verifyData : let s := sess 0 (fun v => { v with opening := true })
    (session s 0).map (fun v => v.opening) = some true ∧ verifyData (slotKeyBytes s 21) 0 ≠ beBytes 48 0 := by decide +kernel
/-- VerifyData with the key in slot 21. -/
def rightData : BitVec 384 := BitVec.ofNat 384 (beVal (verifyData (slotKeyBytes (sess 0) 21) 0))
theorem witness_rightData : verifyData (slotKeyBytes (sess 0) 21) 0 = beBytes 48 rightData.toNat := by decide +kernel
/-- A session with no slot left. -/
def slotless : State :=
  let s := sess 0
  { s with sbox := { s.sbox with slots := (List.range 256).map (fun n => (n, { key := 1, attr := 1 })) } }
theorem witness_slotless : (emptySlots slotless).length < 3 := by decide +kernel
theorem test_heartbeat : answered (.heartbeat (.priv 2) 5 (.secured [])) (sessReq 0 (sess 0)) = some .ok := noted _ _ _ _
theorem test_end_session : session (endSession (sess 0) 0) 0 = none ∧ slotOf (endSession (sess 0) 0) 22 = slotReset := by decide +kernel

/-- Operator channel 3 holds a session; the TSM role is free or held; the function of partition 2 stands in a TDISP state. -/
def tsm (held : Bool) (st : Nat := 0) (keys : Bool := true) (ps : PState := .running) : State :=
  let s := sess 67 id (lives (part2 ps))
  sessReq 67 { s with att := { s.att with
    tsm := held, vf := [(5, st)]
    keys := if keys then [{ pid := 1, keyId := 0, purpose := 3, dir := 0, target := Config.streamOf 5 % 256, slot := 9, agent := 1, index := 0, asker := none, phase := 2 }] else [] } }
theorem witness_tdisp : (∀ st ∈ [0, 1, 2, 3], asked (tsm true st) (.oper 3) 5 0x0201 1 [9] ∧ (session (tsm true st) 67).map (fun v => v.opening) = some false ∧
      tdisp (tsm true st) 5 = st ∧ vfOwner (tsm true st) 5 = some 2) ∧ (tsm true).att.tsm = true ∧ (tsm false).att.tsm = false ∧
    vfOwner (tsm true) 4 = none ∧ pstate (tsm true) 2 = .running ∧ pstate (tsm true 0 true .configured) 2 = .configured ∧
    streamKeyed (tsm true 1 false) 0 = false := by unfold asked; decide +kernel
theorem witness_streamKeyed : ∃ t : State, streamKeyed t (Config.streamOf 5 % 256) = true ∧ tdisp t 5 = 1 := by
  refine ⟨tsm true 1, ?_, by decide +kernel⟩
  have h : nfld (Config.streamOf 5 % 256) 7 0 = Config.streamOf 5 % 256 := by simp [nfld]
  simp [streamKeyed, tsm, sessReq, withReq, setChannel, sess, setSession, h]
theorem test_state_shown : answered (.getDeviceInterfaceState (.oper 3) 5 (.secured []) 5) (tsm true 2) = some (.ifState 5 2) := noted _ _ _ _
theorem test_no_function : answered (.lockInterfaceRequest (.oper 3) 5 (.secured []) 4) (tsm true) = some (.error "InvalidInterface") := noted _ _ _ _
theorem test_no_tsm : answered (.query (.oper 3) 5 (.secured [])) (tsm false) = some (.error "UnsupportedRequest") := noted _ _ _ _
theorem test_key_prog : answered (.keyProg (.oper 3) 5 (.secured [])) (tsm true) = some .ideFail := noted _ _ _ _
theorem test_lock : answered (.lockInterfaceRequest (.oper 3) 5 (.secured []) 5) (tsm true) = some (.locked 5) := noted _ _ _ _

/-! ## Witnesses: tables of agents, waits for entropy, owner changes, images through JTAG -/

/-- Register 0x402054 of partition 2's window is TL_CMD, a register of its own; slot 7 is reserved; a full request port takes nothing. -/
theorem witness_ownRegister : kindAt (locate 0x402054) = .own ∧ (rowAt (.hcp tag2 0) 0x402054 1).isSome = true ∧
    hcpTakes p2 = true ∧ hcpTakes State.reset = false ∧ reaches p2 tag2 (.win 2 7 0) = true ∧ reaches (part2 .configured) tag2 (.win 2 7 0) = true ∧
    hcpCheck (part2 .configured) tag2 false (.win 2 7 0) = some .edown := by decide +kernel
theorem witness_reads : hcpCheck p2 tag2 false (.win 2 3 0x48) = none ∧ pairValue p2 (.hcp tag2 0) 0x402040 = none ∧
    pairValue p2 (.hcp tag2 0) 0x402044 = none ∧ pairLow (locate 0x402040) = false ∧ pairLow (locate 0x40203C) = false ∧
    noteAt (locate 0x402044) = none ∧ rxWindow 0x402040 1 = none ∧ shapeOk 0x402040 1 = true ∧ reaches p2 0x030000 (.win 2 2 0x40) = false := by
  decide +kernel
/-- A table plan of `run`: partition 2 of the active bank has virtual function 5 and site 1; region 3 is its. -/
def plan2 (boot : Bool := false) : Plan :=
  { bank := { p2.part.active with rw := [(12, 0x80000000), (13, 0x02800001)] }, gen := fun _ => 1, shr := fun _ => rshareReset, boot := boot }
theorem witness_kinds : kindOf p2 Config.endpointNi = 1 ∧ kindOf p2 9 = 1 := by
  constructor <;> rfl
theorem witness_tables : (plan2).bank.findP (fun x => decide ((plan2).bank.pVf x = 5)) = some 2 ∧ (plan2).bank.pids = [2] ∧ (plan2).bank.pVf 2 = 5 ∧
    (plan2).bank.rValid 3 = true ∧ (plan2).bank.rOwner 3 = 2 ∧ kindOf (agents p2) 9 = 4 ∧ shadowKnown { p2 with part := { p2.part with tabled := [9] } } 9 = true := by
  decide +kernel
/-- The entropy source restarts and the pool is empty. -/
def dry (s : State := p2) : State := { s with rng := { s.rng with es := 1, pool := [] } }
theorem witness_waits : drbgWaits dry true = true ∧ drbgWaits p2 true = false ∧ (drbgGrant p2 true).isSome = true ∧
    drbgWaits (entropy 2 0 []) true = false ∧ drbgGrant (entropy 2 0 []) true = none ∧ drbgWaits dry false = false := by decide +kernel
theorem witness_pool : rawFails goodRaw = false ∧ 3 ≤ ({ p2 with rng := { p2.rng with pool := [1, 2, 3, 4] } } : State).rng.pool.length ∧
    (poolRefill { p2 with rng := { p2.rng with pool := [1, 2, 3, 4] } }).rng.pool = [1, 2, 3, 4] ∧
    poolSize ≤ ({ p2 with rng := { p2.rng with pool := List.replicate 256 0 } } : State).rng.pool.length := by decide +kernel
/-- A staged key for a row, in area-enabled state. -/
def stagedSecret (row : Nat) : State :=
  let s := fuseAt row 0 (2 ^ rowArea row)
  { s with fuse := { s.fuse with stage := some (row, 77) } }
theorem witness_secret : areaEnabled (stagedSecret 0x340) 5 0x340 = true ∧ fuseCells (stagedSecret 0x340) 0x340 = 0 ∧
    (stagedSecret 0x340).fuse.stage = some (0x340, 77) ∧ (stagedSecret 0x340).fuse.owner = none ∧ (stagedSecret 0x340).boot.fuseOpen = [] ∧
    fuseTarget (w32 0x340) = some 0x340 ∧ opFits 5 0x340 0 = true ∧ rowReserved 0x340 = false := by decide +kernel
/-- With no marginal cell, what is read is what is programmed. -/
theorem read_unmarginal (s : State) (base key : Nat) (h : fuseMarginal s key = 0) : readNormal s base key = fuseCells s key := by
  simp [readNormal, h]
theorem unmarginal (s : State) (h : s.fuse.marginal = []) (base : Nat) : readNormal s base = fuseCells s := by
  funext key; exact read_unmarginal s base key (by simp [fuseMarginal, h, smGet])
theorem witness_ownerEpoch : ownerEpoch (stagedSecret 0x340) = 0 := by
  unfold ownerEpoch; rw [unmarginal _ rfl]; decide +kernel
theorem witness_spares : spareHidden p2 (readNormal p2 p2.free) 0 = false ∧
    (let s : State := { p2 with fuse := { p2.fuse with sensed := { p2.fuse.sensed with spares := [(0, 0x340)] } } }
     spareHidden s (readNormal s s.free) 0 = true ∧ spareHidden s (readNormal s s.free) 1 = false) := by
  rw [unmarginal p2 rfl]; decide +kernel
/-- FUSE_CMD in the ROM's steps and with a journal. -/
theorem witness_framed : p2.boot.fuseOpen = [] ∧ p2.boot.journalOk = true ∧ ¬ (p2.block = .boot ∧ p2.boot.step < 7) ∧
    (inS6.block = .boot ∧ inS6.boot.step < 7) := by decide +kernel
theorem test_fuse_framed : ((smGet none (nx (exec (.programGroup .bc 1 23) (fuseAt 0x22F 0 (2 ^ rowArea 0x22F)))).boot.journal p2.boot.jnext).map (fun r => r.event)) = some 7 := by
  decide +kernel
theorem witness_svn : serving p2 = true ∧ p2.fuse.busy = false ∧ areaEnabled p2 4 (counterNext p2 0).1 = false := by
  refine ⟨by decide +kernel, by decide +kernel, ?_⟩
  unfold counterNext; simp only [unmarginal p2 rfl]; decide +kernel
theorem witness_primes : isPrime 11 = true ∧ isPrime 9 = false := by decide
/-- Lane 2 whose message a derivation keeps aside. -/
theorem witness_lane : (lane (setLane p2 2 { laneReset with shadow := true }) 2).shadow = true ∧ laneMeasures p2 2 = false ∧ laneRuns p2 2 = false ∧
    (deriveLane p2).1 = 0 := by decide +kernel
theorem test_derive_takes_lane : let u := nx (exec (.derive .sc1) (port .sc1 8 0x03000004 0x98000 0 (slotIn 9 0 3 4)))
    (lane u 0).shadow = true ∧ (sboxPort u .sc1).lane = some 0 ∧ (lane (nx (exec (.sboxCommandDone .sc1) u)) 0).shadow = false := by decide +kernel
theorem witness_challenge : (unlockChallenge p2).isSome = true ∧ (unlockChallenge { p2 with rng := { p2.rng with dead := true } }).isNone = true ∧
    p2.fuse.sensed.noDebugUnlock = false ∧ 0 ∈ unlockSets 5 ∧ keysetLive p2 0 = true ∧ ¬ (0 ∈ unlockSets 4) := by decide +kernel
theorem witness_stale_session : deliverRefused deliverTo { theSession true 2 with gen := 1 } 0 delivery = 7 ∧
    codePermitted 0x0205 0 = true ∧ codePermitted 0x0206 67 = true ∧ codePermitted 0x0203 64 = false ∧ 4 ≤ (emptySlots podded).length ∧
    (emptySlots slotless).length < 4 := by decide +kernel
theorem witness_tsmTaken : (tsm false).att.tsmTaken = false ∧ ({ tsm false with att := { (tsm false).att with tsmTaken := true } } : State).att.tsmTaken = true := by
  decide +kernel
theorem witness_two_weights : weightsRunning (setWeight (object1 1) 2 2 (weight (object1 1) 2 1)) = 2 := by decide +kernel
/-- Positions of a start and of the recovery firmware. -/
theorem witness_jtag : (bootAt .jtag).boot.pos = .jtag ∧ (bootAt .recovery).boot.pos = .recovery ∧ (bootAt (.reflash 512)).boot.pos = .reflash 512 ∧
    jtagAll { offering 4 with pins := { (offering 4).pins with critValid := true }, fuse := { run.fuse with sensed := { run.fuse.sensed with lcs := 1 } } } = true ∧ (offering 4).boot.protect = false ∧
    (0x100 ≤ (bootAt .jtag (fun b => { b with push := List.replicate 256 0 })).boot.push.length) := by decide +kernel
theorem test_reflash_ends : (nx (exec .pushEnd (bootAt (.reflash 512)))).block = .reset := by decide +kernel
theorem witness_rom_fault : coreRuns inS6 0 = true ∧ 1 ≤ inS6.boot.step ∧ inS6.boot.step ≤ 6 ∧ beatDue p2 0 = true := by decide +kernel
theorem test_rom_exception : (nx (exec (.coreFault 0 false) inS6)).pins.halt = 0xF1 := by decide +kernel
theorem witness_self_test : s1Codes.contains 0x54 = true ∧ s1Codes.contains 0x5B = false := by decide
theorem witness_consent_once : ({ p2 with book := { p2.book with phase := .consent, needed := [2], given := [2] } } : State).book.given.contains 2 = true := by decide

/-! ## Witnesses: the whole machine -/

theorem witness_step : State.reset.pending = [] ∧ ({ State.reset with pending := [.resetExit, .kxWake] } : State).pending = .resetExit :: [.kxWake] := by decide
theorem test_idle_counts : (nx (step run)).time = 1 ∧ (nx (step { run with pending := [.echo (.oper 0) 5] })).pending = [] := by decide +kernel
/-- A sleep entry has shut the windows. -/
def shut (st : PState) : State := { part2 st with pwr := { run.pwr with phase := 2 } }
theorem witness_pages : sleepShut (shut .running) = true ∧ sleepShut p2 = false ∧ tagPid tag2 = 2 ∧ tagGen tag2 = genOf p2 2 ∧ tagPid tag1 = 1 ∧
    tagGen tag1 = genOf p2 1 ∧ tallyOfSlot p2 2 5 = some 105 ∧ tallyOfSlot p2 2 600 = none ∧ serving p2 = true ∧ serving booting = false ∧
    (∀ st ∈ [PState.free, .retiring, .configured, .running, .quarantined, .quenching], pstate (part2 st) 2 = st) ∧ genOf p2 2 ≠ tagGen 0x020400 := by
  decide +kernel
theorem test_pages : hcpCheck p2 tag2 true (.win 2 3 0x40) = none ∧ hcpCheck (part2 .quarantined) tag2 true (.win 2 3 0x40) = some .edown ∧
    hcpCheck (part2 .quenching) tag2 true (.win 2 0 0) = some .edown ∧ hcpCheck (part2 .quenching) tag2 false (.win 2 0 0) = none ∧
    hcpCheck p2 0x020400 true (.win 2 3 0x40) = some .eaccess ∧ hcpCheck p2 tag2 false (.win 3 0 0) = some .epoison ∧
    hcpCheck (shut .running) tag1 true (.oper 5 0x40) = none ∧ hcpCheck (shut .running) tag1 true (.oper 7 0x40) = some .edown ∧
    hcpCheck { p2 with block := .safe } tag1 true (.oper 5 0x50) = some .edown ∧ hcpCheck { p2 with block := .sleep } tag1 false (.oper 0 0) = some .edown := by
  decide +kernel
/-- The tag of PID 3, which has no partition, and of partition 2 in a generation that has passed: neither reaches anything. -/
theorem witness_foreign : (∀ tag ∈ [(0x030000 : BitVec 24), 0x020400], ∀ l, reaches p2 tag l = false) ∧ resting p2 ∧
    accessSrc (.registerWrite (.hcp 0x030000 0) 0 []) = some (.hcp 0x030000 0) ∧ sealed p2 3 = false ∧ sealed sealed2 2 = true := by
  refine ⟨?_, ⟨by decide +kernel, by decide +kernel⟩, rfl, by decide +kernel, by decide +kernel⟩
  have a : ∀ p, (decide (3 = p) && decide (pstate p2 p ≠ .free)) = false := by
    intro p; by_cases h : 3 = p
    · subst h; decide +kernel
    · simp [h]
  have b : ∀ p, (decide (2 = p) && decide (1 = genOf p2 p)) = false := by
    intro p; by_cases h : 2 = p
    · subst h; decide +kernel
    · simp [h]
  have n : tagPid 0x030000 = 3 ∧ tagPid 0x020400 = 2 ∧ tagGen 0x020400 = 1 := by decide +kernel
  intro tag ht l
  simp only [List.mem_cons, List.not_mem_nil, or_false] at ht
  rcases ht with rfl | rfl <;> cases l <;> simp only [reaches, n.1, n.2.1, n.2.2] <;> try rfl
  all_goals
    rename_i p _ _
    first
    | (have := a p; revert this; cases decide (3 = p) <;> simp; intro h; simp [h])
    | (have := b p; revert this; cases decide (2 = p) <;> simp; intro h; simp [h])
theorem test_foreign_write : (nx (exec (.registerWrite (.hcp 0x020400 0) (BitVec.ofNat 23 (winBase 2 + 0x3048)) [(7, 15)]) p2)).rsp =
    some { code := .eaccess, data := [] } := by decide +kernel
/-- A hub with domain 4 on and released. -/
def released4 (s : State := run) : State := { s with pins := { s.pins with pdStatus := 0x30, hubRstN := 0x10 } }
theorem witness_hubHeld : hubHeld released4 ∧ hubHeld State.reset ∧ (released4).pins.hubRstN ≠ 0 ∧ ran (step { released4 with pending := [.pdStatusFall 4] }) = true := by
  unfold hubHeld; decide +kernel
theorem test_falling_domain_is_reset : (nx (exec (.pdStatusFall 4) released4)).pins.hubRstN = 0 := by decide +kernel
theorem test_halt_resets_hub : (nx (exec (.topHaltWrite .bc 0x61) (released4 booting))).pins.hubRstN = 0 ∧
    (nx (exec (.topHaltWrite .bc 0x61) (released4 booting))).block = .halted := by
  decide +kernel
theorem witness_stopped : (∀ b ∈ [BState.halted, .safe], stopped { run with block := b, pending := [.resetExit] } = true) ∧
    ran (step { run with block := .halted, pending := [.resetExit] }) = true ∧ stopped run = false := by decide +kernel
theorem test_stopped_stays : (nx (step { run with block := .safe, pending := [.topHaltWrite .sc1 0x61] })).block = .safe ∧
    (nx (step { run with block := .halted, pending := [.kxRstNAssert] })).block = .reset := by decide +kernel
theorem witness_sramForm : Memory.wf State.reset.sram = true ∧ Memory.wf (sramWrite run 64 [1, 0, 2]).sram = true ∧ Memory.wf [(3, 0)] = false ∧
    Memory.wf [(3, 1), (3, 2)] = false := by decide +kernel

end Sys2Proof.Tests
end

section
/-! PROOFS. What R68 speaks of, as one value `hub` of a state, and what that value is after an update, a choice and a fold. -/
namespace Sys2Proof.Machine

/-- What R68 speaks of: the block state, HUB_RST_N and PD_STATUS. -/
def hub (s : State) : BState × BitVec 40 × BitVec 40 := (s.block, s.pins.hubRstN, s.pins.pdStatus)

/-- A state written out field by field. `simp` is given this rule as `↓hub_mk`, so that it reads the three values off a record update
before it visits the fields that they do not depend on. -/
theorem hub_mk {b t f p c tm pw le cp hi pa ep bo xl xc ir qn qo tl mb fu bt sb an ha ae rn cv hm at' as sr hd rg la ws rs pe} :
    hub ⟨b, t, f, p, c, tm, pw, le, cp, hi, pa, ep, bo, xl, xc, ir, qn, qo, tl, mb, fu, bt, sb, an, ha, ae, rn, cv, hm, at', as, sr, hd,
        rg, la, ws, rs, pe⟩
      = (b, p.hubRstN, p.pdStatus) := by rfl
@[simp] theorem hub_eta (s : State) : (s.block, s.pins.hubRstN, s.pins.pdStatus) = hub s := by rfl
@[simp] theorem hub_ite (c : Prop) {_ : Decidable c} (s t : State) : hub (if c then s else t) = if c then hub s else hub t := apply_ite ..

@[simp] theorem hub_foldl {α : Type} (f : State → α → State) (l : List α) (s : State) (h : ∀ t x, hub (f t x) = hub t) :
    hub (l.foldl f s) = hub s := by
  induction l generalizing s with
  | nil => rfl
  | cons x l ih => rw [List.foldl_cons, ih, h]
theorem hub_fst_foldl {α β : Type} (f : State × β → α → State × β) (l : List α) (p : State × β) (h : ∀ q x, hub (f q x).1 = hub q.1) :
    hub (l.foldl f p).1 = hub p.1 := by
  induction l generalizing p with
  | nil => rfl
  | cons x l ih => rw [List.foldl_cons, ih, h]
theorem hub_of_sansReplies {s t : State} (h : sansReplies t = sansReplies s) : hub t = hub s := by
  have shadow := congrArg hub h
  exact shadow
theorem hub_of_sansRng {s t : State} (h : sansRng t = sansRng s) : hub t = hub s := by
  have shadow := congrArg hub h
  exact shadow

end Sys2Proof.Machine
end

section
/-! PROOFS. The frame of HUB_RST_N and PD_STATUS: one rule per operation of the model that moves neither of them nor the block state, in the
order of the model's files. -/
namespace Sys2Proof.Machine

/-! ### Stores and numbers (Machine/Ops.lean) -/

@[simp] theorem hub_sramWrite (s : State) (a : Nat) (bs : List Byte) : hub (sramWrite s a bs) = hub s := by rfl
@[simp] theorem hub_drew (s : State) (n : Nat) : hub (drew s n) = hub s := by rfl
@[simp] theorem hub_answer (s : State) (r : Rsp) (data : List DWord) (id : BitVec 6) : hub (answer s r data id) = hub s := by rfl

/-! ### Operand registers (Machine/Operands.lean) -/

@[simp] theorem hub_setHdr (s : State) (page : Nat) (h : Hdr) : hub (setHdr s page h) = hub s := by rfl
@[simp] theorem hub_setReg (s : State) (key : Nat) (v : Word) : hub (setReg s key v) = hub s := by rfl
@[simp] theorem hub_setPshared (s : State) (pid : Nat) (v : PShared) : hub (setPshared s pid v) = hub s := by rfl
@[simp] theorem hub_setRshared (s : State) (i : Nat) (v : RShared) : hub (setRshared s i v) = hub s := by rfl

/-! ### HIP, admission, posts and records (Machine/Flags.lean) -/

@[simp] theorem hub_hipIssue (s : State) (use : HipUse) (addr len : Nat) (write : Bool) (data : List Byte) :
    hub (hipIssue s use addr len write data) = hub s := by
  unfold hipIssue; simp [↓hub_mk]
@[simp] theorem hub_setBucket (s : State) (pid : Nat) (b : Bucket) : hub (setBucket s pid b) = hub s := by rfl
@[simp] theorem hub_demote (s : State) (pid : Nat) : hub (demote s pid) = hub s := by rfl
@[simp] theorem hub_grantMaster (s : State) (pid : Nat) : hub (grantMaster s pid).2 = hub s := by
  simp only [grantMaster]; split <;> simp
@[simp] theorem hub_masterEnd (s : State) (pid : Nat) : hub (masterEnd s pid) = hub s := by rfl
@[simp] theorem hub_fwEvent (s : State) (page : Nat) (bits : Nat) : hub (fwEvent s page bits) = hub s := by rfl
@[simp] theorem hub_setPend (s : State) (pid vec : Nat) (p : Option Pend) : hub (setPend s pid vec p) = hub s := by rfl
@[simp] theorem hub_issuePost (s : State) (pid vec : Nat) (p : Pend) : hub (issuePost s pid vec p) = hub s := by
  unfold issuePost; simp
@[simp] theorem hub_postEvent (s : State) (pid vec cls : Nat) (enabled : Bool) : hub (postEvent s pid vec cls enabled) = hub s := by
  simp only [postEvent]; repeat' split
  all_goals simp [↓hub_mk]
@[simp] theorem hub_notifyPost (s : State) (pid vec cls : Nat) (enabled : Bool) (master : Bool) :
    hub (notifyPost s pid vec cls enabled master) = hub s := by
  unfold notifyPost; simp [↓hub_mk]
@[simp] theorem hub_winEvent (s : State) (pid k bits : Nat) : hub (winEvent s pid k bits) = hub s := by
  unfold winEvent; simp
@[simp] theorem hub_operEvent (s : State) (k bits : Nat) (cls : Nat) : hub (operEvent s k bits cls) = hub s := by
  unfold operEvent; simp
@[simp] theorem hub_ledgerNew (s : State) (pid scope : Nat) : hub (ledgerNew s pid scope) = hub s := by
  unfold ledgerNew; simp
@[simp] theorem hub_ledgerPut (s : State) (r : LRec) : hub (ledgerPut s r) = hub s := by rfl
@[simp] theorem hub_record (s : State) (event pid sev scope : Nat) (p0 p1 p2 : Nat) : hub (record s event pid sev scope p0 p1 p2) = hub s := by
  unfold record; split <;> simp [↓hub_mk]
@[simp] theorem hub_setFloor (s : State) (pid : Nat) : hub (setFloor s pid) = hub s := by
  unfold setFloor; simp [↓hub_mk]
@[simp] theorem hub_accErr (s : State) (l : Loc) (pid : Nat) (r : Rsp) (off : Nat) : hub (accErr s l pid r off) = hub s := by
  unfold accErr; repeat' split
  all_goals simp
@[simp] theorem hub_respond (s : State) (src : Src) (r : Rsp) (data : List DWord) : hub (respond s src r data) = hub s := by
  unfold respond; simp [↓hub_mk]
@[simp] theorem hub_refuse (s : State) (src : Src) (l : Loc) (addr : Nat) (r : Rsp) (beats : Nat) :
    hub (refuse s src l addr r beats) = hub s := by
  unfold refuse; repeat' split
  all_goals simp
@[simp] theorem hub_arrive (s : State) (src : Src) (k : State → State) (beats : Nat) (hk : ∀ t, hub (k t) = hub t) :
    hub (arrive s src k beats) = hub s := by
  rcases arrive_cases s src k beats with h | ⟨-, h⟩ | h <;> simp [h, hk]
@[simp] theorem hub_refuseForeign (s : State) (src : Src) (addr : Nat) : hub (refuseForeign s src addr) = hub s := by
  simp [refuseForeign]
@[simp] theorem hub_access (s : State) (src : Src) (l : Loc) (addr : Nat) (write : Bool) (k : State → State) (beats : Nat)
    (hk : ∀ t, hub (k t) = hub t) : hub (access s src l addr write k beats) = hub s := by
  simp only [access]; split
  · exact hub_arrive _ _ _ _ fun t => by split <;> simp [hk]
  · simp [hk]
@[simp] theorem hub_byCore (s : State) (w : Who) (k : State → State) (hk : ∀ t, hub (k t) = hub t) : hub (byCore s w k) = hub s := by
  simp [byCore, hk]
@[simp] theorem hub_ownCore (s : State) (w : Who) (k : State → State) (hk : ∀ t, hub (k t) = hub t) : hub (ownCore s w k) = hub s := by
  simp [ownCore, hk]

/-! ### The Checker Programming Bus (Machine/Cpb.lean) -/

@[simp] theorem hub_setAgent (s : State) (a : Nat) (v : Agent) : hub (setAgent s a v) = hub s := by rfl
@[simp] theorem hub_setShadow (s : State) (a sel i : Nat) (w : Word) : hub (setShadow s a sel i w) = hub s := by rfl
@[simp] theorem hub_fenceShadow (s : State) (a region rgen : Nat) : hub (fenceShadow s a region rgen) = hub s := by rfl
@[simp] theorem hub_exchangeTables (s : State) (a : Nat) : hub (exchangeTables s a) = hub s := by rfl
@[simp] theorem hub_clearTables (s : State) (a : Nat) : hub (clearTables s a) = hub s := by rfl
@[simp] theorem hub_tableAck (s : State) (f : Frame) : hub (tableAck s f) = hub s := by
  unfold tableAck; split <;> simp [↓hub_mk]
@[simp] theorem hub_launch (s : State) (f : Frame) : hub (launch s f) = hub s := by rfl
@[simp] theorem hub_cpbSend (s : State) (f : Frame) : hub (cpbSend s f) = hub s := by
  unfold cpbSend; simp [↓hub_mk]
@[simp] theorem hub_cpbSendAll (s : State) (as : List Nat) (op : Nat) (pay : BitVec 56) (use : CpbUse) :
    hub (cpbSendAll s as op pay use) = hub s := by
  unfold cpbSendAll; simp
@[simp] theorem hub_cpbPump (s : State) : hub (cpbPump s) = hub s := by
  unfold cpbPump; simp [↓hub_mk]
@[simp] theorem hub_cpbDropUse (s : State) (use : CpbUse) : hub (cpbDropUse s use) = hub s := by rfl
@[simp] theorem hub_cpbDropAgent (s : State) (a : Nat) : hub (cpbDropAgent s a) = hub s := by rfl
@[simp] theorem hub_cpbResetSeq (s : State) (a : Nat) : hub (cpbResetSeq s a) = hub s := by rfl
@[simp] theorem hub_cpbShutter (s0 : State) : hub (cpbShutter s0) = hub s0 := by
  unfold cpbShutter; simp [↓hub_mk]
@[simp] theorem hub_setCpbPort (s : State) (w : Nat) (p : CpbPort) : hub (setCpbPort s w p) = hub s := by rfl
@[simp] theorem hub_cpbPortDone (s : State) (w : Nat) (result : Nat) (replyOp : Nat) (reply : BitVec 56) :
    hub (cpbPortDone s w result replyOp reply) = hub s := by rfl

/-! ### The places of the Assay (Machine/AsyBase.lean) -/

@[simp] theorem hub_setPlace (s : State) (pid k : Nat) (p : APlace) : hub (setPlace s pid k p) = hub s := by rfl
@[simp] theorem hub_setApart (s : State) (pid : Nat) (p : APart) : hub (setApart s pid p) = hub s := by rfl
@[simp] theorem hub_setOp (s : State) (pid k : Nat) (o : AOp) : hub (setOp s pid k o) = hub s := by rfl
@[simp] theorem hub_closeAt (trig : Nat) (act : Bool) (pid : Nat) (s : State) (k : Nat) : hub (closeAt trig act pid s k) = hub s := by
  unfold closeAt; split <;> simp
@[simp] theorem hub_closeTrig (s : State) (pid trig : Nat) (act : Bool) : hub (closeTrig s pid trig act) = hub s := by
  unfold closeTrig; simp

/-! ### Mailboxes (Machine/Mbox.lean) -/

@[simp] theorem hub_setChannel (s : State) (c : Nat) (v : Channel) : hub (setChannel s c v) = hub s := by rfl
@[simp] theorem hub_chanEvent (s : State) (c bits : Nat) : hub (chanEvent s c bits) = hub s := by
  unfold chanEvent; simp
@[simp] theorem hub_rxEvent (s : State) (c : Nat) (master : Bool) : hub (rxEvent s c master) = hub s := by
  unfold rxEvent; simp
@[simp] theorem hub_rxHead (s : State) (c : Nat) : hub (rxHead s c) = hub s := by
  simp only [rxHead]; split <;> simp
@[simp] theorem hub_rxPut (s : State) (c : Nat) (f : RxFrame) : hub (rxPut s c f) = hub s := by
  unfold rxPut; simp
@[simp] theorem hub_rxPump (n : Nat) (s : State) (c : Nat) : hub (rxPump n s c) = hub s :=
  hub_of_sansReplies (sansReplies_rxPump n s c)
@[simp] theorem hub_queueFrames (s : State) (c : Nat) (fs : List RxFrame) : hub (queueFrames s c fs) = hub s := by
  unfold queueFrames; simp
@[simp] theorem hub_queueMessage (s : State) (c code cls tag : Nat) (body : List Word) (answers : Bool) :
    hub (queueMessage s c code cls tag body answers) = hub s := by
  unfold queueMessage; simp [↓hub_mk]
@[simp] theorem hub_notice (s : State) (c code : Nat) (body : List Word) : hub (notice s c code body) = hub s := by
  unfold notice; simp
@[simp] theorem hub_wspError (s : State) (c cls tag status code : Nat) : hub (wspError s c cls tag status code) = hub s := by
  unfold wspError; simp
@[simp] theorem hub_noteWord (s : State) (c : Nat) (w : Word) : hub (noteWord s c w) = hub s := by
  unfold noteWord; simp [↓hub_mk]
@[simp] theorem hub_takeRequest (s : State) (c tag code cls : Nat) (body : List Word) : hub (takeRequest s c tag code cls body) = hub s := by
  simp only [takeRequest]; repeat' split
  all_goals simp
@[simp] theorem hub_takeFrame (s : State) (c : Nat) (frame : List Word) : hub (takeFrame s c frame) = hub s := by
  simp only [takeFrame]; repeat' split
  all_goals simp
@[simp] theorem hub_inboxDrop (s : State) (c tag code : Nat) : hub (inboxDrop s c tag code) = hub s := by rfl
@[simp] theorem hub_withRequest (s : State) (ch : Chan) (tag : BitVec 6) (code : Nat) (k : State → Nat → List Word → State)
    (hk : ∀ t cls body, hub (k t cls body) = hub t) : hub (withRequest s ch tag code k) = hub s := by
  simp only [withRequest]; split <;> simp [hk]
@[simp] theorem hub_reply (s : State) (c tag code : Nat) (body : List Word) : hub (reply s c tag code body) = hub s := by
  unfold reply; split <;> simp
@[simp] theorem hub_replyCode (s : State) (c tag code result : Nat) : hub (replyCode s c tag code result) = hub s := by
  unfold replyCode; simp
@[simp] theorem hub_replyError (s : State) (c tag status code : Nat) : hub (replyError s c tag status code) = hub s := by
  unfold replyError; split <;> simp
@[simp] theorem hub_hcpOnly (s : State) (src : Src) (k : State → State) (hk : ∀ t, hub (k t) = hub t) : hub (hcpOnly s src k) = hub s := by
  cases src <;> simp [hcpOnly, hk]
@[simp] theorem hub_txWrite (s : State) (src : Src) (c : Nat) (beats : List (DWord × Byte)) : hub (txWrite s src c beats) = hub s := by
  unfold txWrite; split <;> simp
@[simp] theorem hub_rxRead (s : State) (src : Src) (c beats : Nat) : hub (rxRead s src c beats) = hub s := by
  unfold rxRead; simp
@[simp] theorem hub_rxDropped (s : State) (c : Nat) : hub (rxDropped s c) = hub s := by
  unfold rxDropped; simp
@[simp] theorem hub_channelClear (s : State) (c : Nat) : hub (channelClear s c) = hub s := by
  unfold channelClear; simp
@[simp] theorem hub_noVersion (s : State) (c : Nat) : hub (noVersion s c) = hub s := by rfl
@[simp] theorem hub_operChanReset (s : State) (n : Nat) : hub (operChanReset s n) = hub s := by
  unfold operChanReset; simp
@[simp] theorem hub_setMbPort (s : State) (w : Who) (p : MbPort) : hub (setMbPort s w p) = hub s := by rfl
@[simp] theorem hub_mbfOk (s : State) (w : Who) (k : State → State) (hk : ∀ t, hub (k t) = hub t) : hub (mbfOk s w k) = hub s :=
  hub_ownCore s w k hk
@[simp] theorem hub_rxAppend (s : State) (c : Nat) (ws : List Word) : hub (rxAppend s c ws) = hub s := by
  unfold rxAppend; simp
@[simp] theorem hub_negotiate (s : State) (c tag : Nat) (offers : List Word) : hub (negotiate s c tag offers) = hub s := by
  unfold negotiate; split <;> simp
@[simp] theorem hub_wspVersion (s : State) (c tag : Nat) (body : List Word) : hub (wspVersion s c tag body) = hub s := by
  unfold wspVersion; split <;> simp

/-! ### Tallies (Machine/Tally.lean) -/

@[simp] theorem hub_setValue (s : State) (t : Nat) (v : DWord) : hub (setValue s t v) = hub s := by rfl
@[simp] theorem hub_setAcl (s : State) (t : Nat) (a : BitVec 7) : hub (setAcl s t a) = hub s := by rfl
@[simp] theorem hub_setEntry (s : State) (t e : Nat) (w : WaitE) : hub (setEntry s t e w) = hub s := by rfl
@[simp] theorem hub_setDoorbell (s : State) (pid n : Nat) (w : Word) : hub (setDoorbell s pid n w) = hub s := by rfl
@[simp] theorem hub_orderOp (s : State) (t : Nat) : hub (orderOp s t) = hub s := by rfl
@[simp] theorem hub_ringDoorbell (s : State) (pid n : Nat) (arg : Word) : hub (ringDoorbell s pid n arg) = hub s := by
  unfold ringDoorbell; simp
@[simp] theorem hub_actNow (s : State) (owner t e : Nat) (w : WaitE) (cls : Nat) : hub (actNow s owner t e w cls) = hub s := by
  unfold actNow; split <;> simp [↓hub_mk]
@[simp] theorem hub_act (s : State) (owner t e : Nat) (w : WaitE) (cls : Nat) (charge : Bool) :
    hub (act s owner t e w cls charge) = hub s := by
  unfold act; split <;> simp [↓hub_mk]
@[simp] theorem hub_evalEntry (owner t seq : Nat) (oc : OpClass) (acc : State × Bool) (e : Nat) :
    hub (evalEntry owner t seq oc acc e).1 = hub acc.1 := by
  simp only [evalEntry]; repeat' split
  all_goals simp [↓hub_mk]
@[simp] theorem hub_evalTally (s : State) (t seq : Nat) (oc : OpClass) : hub (evalTally s t seq oc) = hub s := by
  simp only [evalTally]; split
  · simp
  · rw [hub_ite]; simp
@[simp] theorem hub_tallyOp (s : State) (t : Nat) (f : DWord → DWord) (oc : OpClass) : hub (tallyOp s t f oc) = hub s := by
  unfold tallyOp; simp
@[simp] theorem hub_signalOp (s : State) (t : Nat) (oc : OpClass) : hub (signalOp s t oc) = hub s := by
  unfold signalOp; simp
@[simp] theorem hub_addOp (s : State) (t a : Nat) (oc : OpClass) : hub (addOp s t a oc) = hub s := by
  unfold addOp; simp
@[simp] theorem hub_setValueOp (s : State) (t : Nat) (x : DWord) (oc : OpClass) : hub (setValueOp s t x oc) = hub s := by
  unfold setValueOp; simp
@[simp] theorem hub_serviceSignal (s : State) (pid : Nat) (k : Nat) : hub (serviceSignal s pid k) = hub s := by
  unfold serviceSignal; split <;> simp
@[simp] theorem hub_operSignal (s : State) (k : Nat) : hub (operSignal s k) = hub s := by
  unfold operSignal; simp
@[simp] theorem hub_fwSignal (s : State) (k : Nat) : hub (fwSignal s k) = hub s := by
  unfold fwSignal; simp
@[simp] theorem hub_clearTally (s : State) (t : Nat) : hub (clearTally s t) = hub s := by rfl
@[simp] theorem hub_clearRange (s : State) (base n : Nat) : hub (clearRange s base n) = hub s := by
  induction n generalizing s base with
  | zero => rfl
  | succ n ih => simp [clearRange, ih]
@[simp] theorem hub_clearDoorbells (s : State) (pid : Nat) : hub (clearDoorbells s pid) = hub s := by rfl
@[simp] theorem hub_clearPartTallies (s : State) (pid : Nat) : hub (clearPartTallies s pid) = hub s := by
  unfold clearPartTallies; simp
@[simp] theorem hub_slotAccess (s : State) (src : Src) (slot off aclBit : Nat) (f : State → Nat → OpClass → State)
    (hf : ∀ t n oc, hub (f t n oc) = hub t) : hub (slotAccess s src slot off aclBit f) = hub s := by
  cases src with
  | fab w => simp [slotAccess, hf]
  | hcp tag id =>
    simp only [slotAccess]; split
    · simp
    · exact hub_access _ _ _ _ _ _ _ fun t => by split <;> simp [hf]
@[simp] theorem hub_slotSetOp (s : State) (t : Nat) (value : DWord) (oc : OpClass) : hub (slotSetOp s t value oc) = hub s := by
  unfold slotSetOp; simp [↓hub_mk]
@[simp] theorem hub_setTlPort (s : State) (v : Nat) (p : TlPort) : hub (setTlPort s v p) = hub s := by rfl
@[simp] theorem hub_tlDone (s : State) (view result seq : Nat) (w : WaitE) : hub (tlDone s view result seq w) = hub s := by rfl
@[simp] theorem hub_waitOp (s : State) (t e : Nat) (thr : DWord) (action arg : Word) (aclOk : Bool) :
    hub (waitOp s t e thr action arg aclOk).2.2 = hub s := by
  simp only [waitOp]; repeat' split
  all_goals simp
@[simp] theorem hub_cancelOp (s : State) (t e : Nat) (aclOk : Bool) : hub (cancelOp s t e aclOk).2.2 = hub s := by
  simp only [cancelOp]; repeat' split
  all_goals simp
@[simp] theorem hub_tlAccess (s : State) (src : Src) (k : State → State) (hk : ∀ t, hub (k t) = hub t) : hub (tlAccess s src k) = hub s := by
  cases src <;> simp [tlAccess, hk]
@[simp] theorem hub_tlClass (s : State) (src : Src) (t : Nat) : hub (tlClass s src t) = hub s := by
  unfold tlClass; split <;> simp
@[simp] theorem hub_operTallyReply (s : State) (c tag t e res seq : Nat) : hub (operTallyReply s c tag t e res seq) = hub s := by
  unfold operTallyReply; simp
@[simp] theorem hub_operEval (s : State) (t seq : Nat) (oc : OpClass) : hub (operEval s t seq oc) = hub s := by
  simp [operEval]
@[simp] theorem hub_operTally (s : State) (c tag cls : Nat) (body : List Word) : hub (operTally s c tag cls body) = hub s := by
  simp only [operTally]; repeat' split
  all_goals simp

/-! ### The HMK page (Machine/Hmk.lean) -/

@[simp] theorem hub_setHmkPlace (s : State) (k : Nat) (p : HmkPlace) : hub (setHmkPlace s k p) = hub s := by rfl
@[simp] theorem hub_setHmkResult (s : State) (r : Nat) : hub (setHmkResult s r) = hub s := by rfl
@[simp] theorem hub_hmkMakeStale (s : State) (k : Nat) : hub (hmkMakeStale s k) = hub s := by
  unfold hmkMakeStale; simp
@[simp] theorem hub_hmkStalePid (s : State) (pid : Nat) : hub (hmkStalePid s pid) = hub s := by
  unfold hmkStalePid; simp
@[simp] theorem hub_hmkTake (s : State) (k pid : Nat) : hub (hmkTake s k pid).2 = hub s := by
  simp only [hmkTake]; repeat' split
  all_goals simp
@[simp] theorem hub_hmkRelease (s : State) (k : Nat) : hub (hmkRelease s k).2 = hub s := by
  simp only [hmkRelease]; repeat' split
  all_goals simp [↓hub_mk]
@[simp] theorem hub_hmkSeal (s : State) (k : Nat) : hub (hmkSeal s k).2 = hub s := by
  simp only [hmkSeal]; split <;> simp
@[simp] theorem hub_hmkSealCmd (w : Who) (s : State) : hub (hmkSealCmd w s) = hub s := by
  simp [hmkSealCmd]
@[simp] theorem hub_hmkLimit (s : State) (k : Nat) : hub (hmkLimit s k) = hub s := by
  unfold hmkLimit; simp

/-! ### Strongbox slots (Machine/Derive.lean) -/

@[simp] theorem hub_setSlot (s : State) (n : Nat) (v : Slot) : hub (setSlot s n v) = hub s := by rfl
@[simp] theorem hub_eraseSlot (s : State) (n : Nat) : hub (eraseSlot s n) = hub s := by
  unfold eraseSlot; simp
@[simp] theorem hub_eraseSlots (s : State) (ns : List Nat) : hub (eraseSlots s ns) = hub s := by
  unfold eraseSlots; simp
@[simp] theorem hub_erasePid (s : State) (pid : Nat) : hub (erasePid s pid) = hub s := by rfl
@[simp] theorem hub_eraseStale (s : State) (pid : Nat) : hub (eraseStale s pid) = hub s := by rfl

/-! ### What a change of a partition discards (Machine/Base.lean) -/

@[simp] theorem hub_setSession (s : State) (c : Nat) (v : Option Session) : hub (setSession s c v) = hub s := by rfl
@[simp] theorem hub_endSession (s : State) (c : Nat) : hub (endSession s c) = hub s := by
  unfold endSession; split <;> simp [↓hub_mk]
@[simp] theorem hub_setWeight (s : State) (pid obj : Nat) (v : Option WObj) : hub (setWeight s pid obj v) = hub s := by rfl
@[simp] theorem hub_pushJob (s : State) (j : Job) : hub (pushJob s j) = hub s := by rfl
@[simp] theorem hub_withdrawGrants (s : State) (pid : Nat) (o : WObj) : hub (withdrawGrants s pid o) = hub s := by
  unfold withdrawGrants; simp
@[simp] theorem hub_discardWeights (s : State) (pid : Nat) : hub (discardWeights s pid) = hub s :=
  hub_foldl _ _ _ fun t c => by split <;> simp
@[simp] theorem hub_endWeight (s : State) (pid obj status : Nat) : hub (endWeight s pid obj status) = hub s := by
  unfold endWeight; split <;> simp
@[simp] theorem hub_staleWeights (s : State) (pid : Nat) : hub (staleWeights s pid) = hub s := by
  unfold staleWeights; simp
@[simp] theorem hub_discardPreps (s : State) (pid : Nat) : hub (discardPreps s pid) = hub s := by rfl
@[simp] theorem hub_setTdisp (s : State) (vf v : Nat) : hub (setTdisp s vf v) = hub s := by rfl
@[simp] theorem hub_tdispError (s : State) (pid : Nat) : hub (tdispError s pid) = hub s := by
  unfold tdispError; simp
@[simp] theorem hub_setXlat (s : State) (pid : Nat) (x : Xlat) : hub (setXlat s pid x) = hub s := by rfl
@[simp] theorem hub_endRecs (s : State) (pid : Nat) (rs : List FRec) : hub (endRecs s pid rs) = hub s := by
  unfold endRecs; simp
@[simp] theorem hub_endReqs (s : State) (pid : Nat) (qs : List XReq) : hub (endReqs s pid qs) = hub s := by
  unfold endReqs; simp
@[simp] theorem hub_ringLeaves (s : State) (pid : Nat) : hub (ringLeaves s pid) = hub s := by
  unfold ringLeaves; simp
@[simp] theorem hub_xlDiscard (s : State) (pid : Nat) : hub (xlDiscard s pid) = hub s := by
  unfold xlDiscard; simp [↓hub_mk]
@[simp] theorem hub_dropHeld (s : State) (pid : Nat) : hub (dropHeld s pid) = hub s := by rfl
@[simp] theorem hub_dropPend (s : State) (pid : Nat) : hub (dropPend s pid) = hub s := by rfl
@[simp] theorem hub_bookSync (s : State) : hub (bookSync s) = hub s := by
  unfold bookSync; split <;> simp [↓hub_mk]

/-! ### Partitions (Machine/Part.lean) -/

@[simp] theorem hub_windowReset (s : State) (pid : Nat) : hub (windowReset s pid) = hub s := by rfl
@[simp] theorem hub_enterRunning (s : State) (pid : Nat) : hub (enterRunning s pid) = hub s := by rfl
@[simp] theorem hub_enterFree (s : State) (pid : Nat) : hub (enterFree s pid) = hub s := by
  unfold enterFree; simp [↓hub_mk]
@[simp] theorem hub_setState (s : State) (pid : Nat) (st : PState) : hub (setState s pid st) = hub s := by
  unfold setState; split <;> simp
@[simp] theorem hub_markLeft (s : State) (pid c : Nat) : hub (markLeft s pid c) = hub s := by rfl
@[simp] theorem hub_setGen (s : State) (pid g : Nat) : hub (setGen s pid g) = hub s := by
  unfold setGen; simp
@[simp] theorem hub_holdGen (s : State) (pid g : Nat) : hub (holdGen s pid g) = hub s := by
  unfold holdGen; simp [↓hub_mk]
@[simp] theorem hub_genStep (s : State) (pid : Nat) : hub (genStep s pid).2 = hub s := by
  simp only [genStep]; repeat' split
  all_goals simp [↓hub_mk]
@[simp] theorem hub_partDone (s : State) (r w : Nat) : hub (partDone s r w) = hub s := by rfl
@[simp] theorem hub_setStateCmd (w : Who) (pid : Byte) (newState : BitVec 3) (s : State) : hub (setStateCmd w pid newState s) = hub s := by
  refine hub_byCore _ _ _ fun t => ?_
  dsimp only; repeat' split
  all_goals simp
@[simp] theorem hub_genStepCmd (w : Who) (pid : Byte) (s : State) : hub (genStepCmd w pid s) = hub s :=
  hub_byCore _ _ _ fun t => by dsimp only; repeat' split; all_goals simp [↓hub_mk]
@[simp] theorem hub_genReady (s : State) (pid : Nat) : hub (genReady s pid) = hub s := by
  unfold genReady; simp [↓hub_mk]
@[simp] theorem hub_makeDirty (s : State) (b : Bank) (i : Nat) : hub (makeDirty s b i) = hub s := by rfl
@[simp] theorem hub_setSiteHold (s : State) (k : Nat) (up : Bool) : hub (setSiteHold s k up) = hub s := by
  simp only [setSiteHold]; repeat' split
  all_goals simp [↓hub_mk]
@[simp] theorem hub_holdSites (s : State) (ks : List Nat) : hub (holdSites s ks) = hub s := by
  unfold holdSites; simp

/-! ### Translation (Machine/Xlat.lean) -/

@[simp] theorem hub_serviceDone (s : State) (pid : Nat) (slot : Option Nat) (page bits : Nat) (master : Bool) :
    hub (serviceDone s pid slot page bits master) = hub s := by
  unfold serviceDone; repeat' split
  all_goals simp [↓hub_mk]
@[simp] theorem hub_sendRoots (s : State) (pid : Nat) (units : List Nat) : hub (sendRoots s pid units) = hub s := by
  unfold sendRoots; simp
@[simp] theorem hub_xlComplete (s : State) (pid : Nat) : hub (xlComplete s pid) = hub s := by
  simp only [xlComplete]; split <;> simp
@[simp] theorem hub_xlStart (s : State) (pid : Nat) (q : XReq) : hub (xlStart s pid q) = hub s := by
  unfold xlStart; simp
@[simp] theorem hub_sendFences (s : State) (rs : List Nat) (rgen : Nat) (fenced : Bool) (use : CpbUse) :
    hub (sendFences s rs rgen fenced use) = hub s := by
  unfold sendFences; simp
@[simp] theorem hub_fenceEnd (s : State) (pid : Nat) (f : XFence) : hub (fenceEnd s pid f) = hub s := by
  unfold fenceEnd; simp [↓hub_mk]
@[simp] theorem hub_xlReqStep (s : State) (pid : Nat) : hub (xlReqStep s pid) = hub s := by
  simp only [xlReqStep]; repeat' split
  all_goals simp
@[simp] theorem hub_batchClose (s : State) (pid reason : Nat) : hub (batchClose s pid reason) = hub s := by
  unfold batchClose; simp
@[simp] theorem hub_xlRingStep (s : State) (pid : Nat) : hub (xlRingStep s pid) = hub s := by
  simp only [xlRingStep]; split <;> simp
@[simp] theorem hub_batchWritten (s : State) (pid : Nat) (ok : Bool) : hub (batchWritten s pid ok) = hub s := by
  simp only [batchWritten]; repeat' split
  all_goals simp
@[simp] theorem hub_xlStep (s : State) (pid : Nat) : hub (xlStep s pid) = hub s := by
  unfold xlStep; simp
@[simp] theorem hub_xlPump (n : Nat) (s : State) (pid : Nat) : hub (xlPump n s pid) = hub s := by
  induction n generalizing s with
  | zero => rfl
  | succ n ih => simp [xlPump, ih]
@[simp] theorem hub_pollXlat (s : State) : hub (pollXlat s) = hub s := by
  unfold pollXlat; simp
@[simp] theorem hub_xlCmd (s : State) (src : Src) (k : State → Nat → State) (hk : ∀ t p, hub (k t p) = hub t) :
    hub (xlCmd s src k) = hub s := by
  cases src <;> simp [xlCmd, hk]
@[simp] theorem hub_xlResult (s : State) (pid r : Nat) : hub (xlResult s pid r) = hub s := by rfl
@[simp] theorem hub_xlSend (s : State) (pid : Nat) : hub (xlSend s pid) = hub s := by
  simp only [xlSend]; repeat' split
  all_goals simp [↓hub_mk]
@[simp] theorem hub_fqRegister (s : State) (pid : Nat) : hub (fqRegister s pid) = hub s := by
  simp only [fqRegister]; repeat' split
  all_goals simp
@[simp] theorem hub_fqRelease (s : State) (pid : Nat) : hub (fqRelease s pid) = hub s := by
  unfold fqRelease; simp
@[simp] theorem hub_ringDone (s : State) (pid : Nat) (reg ok : Bool) : hub (ringDone s pid reg ok) = hub s := by
  unfold ringDone; simp
@[simp] theorem hub_faultIn (s : State) (src : Src) (pid : Nat) (bytes : List Byte) : hub (faultIn s src pid bytes) = hub s := by
  simp only [faultIn]; repeat' split
  all_goals simp [↓hub_mk]
@[simp] theorem hub_invalTimeout (s : State) (pid : Nat) : hub (invalTimeout s pid) = hub s := by
  simp only [invalTimeout]; repeat' split
  all_goals simp
@[simp] theorem hub_fenceDrained (s : State) (pid : Nat) : hub (fenceDrained s pid) = hub s := by
  simp only [fenceDrained]; split <;> simp

/-! ### Interrupts (Machine/Irq.lean) -/

@[simp] theorem hub_setStaged (s : State) (n : Nat) (v : Option Word) : hub (setStaged s n v) = hub s := by rfl
@[simp] theorem hub_clearStaged (s : State) (pid : Nat) : hub (clearStaged s pid) = hub s := by
  unfold clearStaged; simp
@[simp] theorem hub_irqResult (s : State) (pid r : Nat) : hub (irqResult s pid r) = hub s := by rfl
@[simp] theorem hub_irqRunning (s : State) (pid : Nat) (b : Bool) : hub (irqRunning s pid b) = hub s := by rfl
@[simp] theorem hub_irqApply (s : State) (pid : Nat) : hub (irqApply s pid) = hub s := by
  unfold irqApply; dsimp only; repeat' split
  all_goals rfl
@[simp] theorem hub_irqApplied (s : State) (pid : Nat) (ok : Bool) : hub (irqApplied s pid ok) = hub s := by
  simp only [irqApplied]; repeat' split
  all_goals simp
@[simp] theorem hub_irqCmd (s : State) (src : Src) (k : State → Nat → State) (hk : ∀ t p, hub (k t p) = hub t) :
    hub (irqCmd s src k) = hub s := by
  cases src <;> simp [irqCmd, hk]
@[simp] theorem hub_irqDiscard (s : State) (pid : Nat) : hub (irqDiscard s pid) = hub s := by
  unfold irqDiscard; simp
@[simp] theorem hub_irqBind (s : State) (c tag cls : Nat) (body : List Word) : hub (irqBind s c tag cls body) = hub s := by
  unfold irqBind; split <;> simp
@[simp] theorem hub_postRetry (s : State) (pid vec : Nat) : hub (postRetry s pid vec) = hub s := by
  unfold postRetry; split <;> simp
@[simp] theorem hub_hipRefused (s : State) (code : Nat) (r : HipReq) : hub (hipRefused s code r) = hub s := by
  unfold hipRefused; simp
@[simp] theorem hub_postDone (s : State) (r : HipReq) (pid vec code : Nat) : hub (postDone s r pid vec code) = hub s := by
  unfold postDone; split <;> simp
@[simp] theorem hub_numberSources (s : State) : hub (numberSources s) = hub s := by
  unfold numberSources
  refine (hub_fst_foldl _ _ _ fun acc i => ?_).trans hub_mk
  dsimp only; split
  · simp
  · simp [↓hub_mk]

/-! ### Service classes (Machine/Qos.lean) -/

@[simp] theorem hub_operRateWrite (s : State) (w : Who) (rate : Nat) : hub (operRateWrite s w rate) = hub s := by
  unfold operRateWrite; simp [↓hub_mk]
@[simp] theorem hub_qosRescale (s : State) : hub (qosRescale s) = hub s := by
  unfold qosRescale; simp [↓hub_mk]
@[simp] theorem hub_releaseNow (s : State) (h : Held) : hub (releaseNow s h) = hub s := by
  unfold releaseNow; split <;> simp
@[simp] theorem hub_release (s : State) (pid k : Nat) (hcp : Bool) : hub (release s pid k hcp) = hub s := by
  unfold release; split
  · exact (hub_releaseNow ..).trans hub_mk
  · rfl

/-! ### The fault controller (Machine/Esc.lean) -/

@[simp] theorem hub_topEvent (s : State) (bits : Nat) : hub (topEvent s bits) = hub s := by
  unfold topEvent; simp
@[simp] theorem hub_journal (s : State) (step event src site reason : Nat) (detail : Nat) :
    hub (journal s step event src site reason detail) = hub s := by
  unfold journal; simp [↓hub_mk]
@[simp] theorem hub_fuseJournal (s : State) (event : Nat) (detail : Nat) : hub (fuseJournal s event detail) = hub s := by
  unfold fuseJournal; simp
@[simp] theorem hub_startRecord (s : State) : hub (startRecord s) = hub s := by
  unfold startRecord; simp [↓hub_mk]
@[simp] theorem hub_shutterFire (s : State) : hub (shutterFire s) = hub s := by
  unfold shutterFire; split
  · rfl
  · dsimp only; rw [hub_record, hub_fwEvent, hub_cpbShutter]; rfl
@[simp] theorem hub_setQuench (s : State) (q : Quench) : hub (setQuench s q) = hub s := by rfl
@[simp] theorem hub_quenchStart (s : State) (pid outcome : Nat) (req : QReq) (esc : Bool) :
    hub (quenchStart s pid outcome req esc) = hub s := by
  unfold quenchStart; simp [↓hub_mk]
@[simp] theorem hub_quenchMerge (s : State) (q : Quench) (outcome : Nat) (esc : Bool) : hub (quenchMerge s q outcome esc) = hub s := by rfl
@[simp] theorem hub_quenchRequest (s : State) (pid outcome : Nat) (req : QReq) (esc : Bool) :
    hub (quenchRequest s pid outcome req esc).2 = hub s := by
  simp only [quenchRequest]; repeat' split
  all_goals simp
@[simp] theorem hub_escNote (s : State) (level : Nat) : hub (escNote s level) = hub s := by rfl
@[simp] theorem hub_escRecord (s : State) (pid new old cause kind : Nat) : hub (escRecord s pid new old cause kind) = hub s := by
  unfold escRecord; simp
@[simp] theorem hub_l2Count (s : State) (pid : Nat) : hub (l2Count s pid).2 = hub s := by rfl
@[simp] theorem hub_faultPid (s : State) (pid cause kind : Nat) : hub (faultPid s pid cause kind) = hub s := by
  simp only [faultPid]; repeat' split
  all_goals simp [↓hub_mk]
@[simp] theorem hub_markFaulted (s : State) (a cause : Nat) : hub (markFaulted s a cause) = hub s := by
  unfold markFaulted; simp
@[simp] theorem hub_withhold (s : State) (a : Nat) : hub (withhold s a) = hub s := by
  unfold withhold; simp [↓hub_mk]

/-! ### The noise source (Machine/Entropy.lean) -/

@[simp] theorem hub_poolFill (s : State) (n : Nat) : hub (poolFill s n) = hub s := by rfl
@[simp] theorem hub_poolRefill (s : State) : hub (poolRefill s) = hub s := by
  unfold poolRefill; simp [↓hub_mk]
@[simp] theorem hub_takeBlocks (s : State) (n : Nat) : hub (takeBlocks s n) = hub s := by
  unfold takeBlocks; simp [↓hub_mk]
@[simp] theorem hub_reseed (s : State) : hub (reseed s) = hub s := by
  unfold reseed; simp [↓hub_mk]
/-- A grant of the DRBG touches the entropy source alone. -/
theorem hub_of_drbgGrant {s t : State} {pr : Bool} (h : drbgGrant s pr = some t) : hub t = hub s :=
  hub_of_sansRng (drbgGrant_cases h).2.1
@[simp] theorem hub_entropyFailed (s : State) : hub (entropyFailed s) = hub s := by
  unfold entropyFailed; simp [↓hub_mk]
@[simp] theorem hub_startupFail (s : State) : hub (startupFail s) = hub s := by
  unfold startupFail; simp [↓hub_mk]
@[simp] theorem hub_continuousFail (s0 : State) : hub (continuousFail s0) = hub s0 := by
  unfold continuousFail; simp [↓hub_mk]
@[simp] theorem hub_startupPass (s : State) : hub (startupPass s) = hub s := by rfl
@[simp] theorem hub_rawWindow (s : State) (raw : BitVec 1024) : hub (rawWindow s raw) = hub s := by
  unfold rawWindow; split <;> simp [↓hub_mk]

/-! ### Fuses (Machine/Fuse.lean) -/

@[simp] theorem hub_driveCritical (s : State) (z : Sensed) (trim : BitVec 32) : hub (driveCritical s z trim) = hub s := by rfl
@[simp] theorem hub_senseArray (s : State) (disturbed : Nat) : hub (senseArray s disturbed).2 = hub s := by
  simp only [senseArray]; repeat' split
  all_goals simp [↓hub_mk]
@[simp] theorem hub_fuseEnd (s : State) (result : Nat) : hub (fuseEnd s result) = hub s := by rfl
@[simp] theorem hub_fuseResult (s : State) (result : Nat) : hub (fuseResult s result) = hub s := by rfl
@[simp] theorem hub_fuseCmd (s : State) (w : Who) (k : State → State) (hk : ∀ t, hub (k t) = hub t) : hub (fuseCmd s w k) = hub s := by
  simp [fuseCmd, hk]
@[simp] theorem hub_fuseData (s : State) (c : BitVec 72) : hub (fuseData s c) = hub s := by rfl
@[simp] theorem hub_fuseReadRaw (s : State) : hub (fuseReadRaw s) = hub s := by
  unfold fuseReadRaw; split <;> simp
@[simp] theorem hub_fuseReadDecoded (s : State) : hub (fuseReadDecoded s) = hub s := by
  simp only [fuseReadDecoded]; repeat' split
  all_goals simp
@[simp] theorem hub_fuseRefused (s : State) (op k result : Nat) : hub (fuseRefused s op k result) = hub s := by
  unfold fuseRefused; simp
@[simp] theorem hub_fuseProgEnd (s : State) (op k result : Nat) : hub (fuseProgEnd s op k result) = hub s := by
  unfold fuseProgEnd; simp
@[simp] theorem hub_fuseStart (s : State) (op k : Nat) (pattern : BitVec 72) (exact : Bool) :
    hub (fuseStart s op k pattern exact) = hub s := by
  unfold fuseStart; simp [↓hub_mk]
@[simp] theorem hub_fuseProgram (s : State) (op window group : Nat) (k : State → Nat → State) (hk : ∀ t key, hub (k t key) = hub t) :
    hub (fuseProgram s op window group k) = hub s := by
  simp only [fuseProgram]; repeat' split
  all_goals simp [↓hub_mk, hk]
@[simp] theorem hub_fuseSecret (s : State) (k : Nat) : hub (fuseSecret s k) = hub s := by
  have granted : ∀ t, drbgGrant s true = some t → hub t = hub s := fun _ => hub_of_drbgGrant
  simp only [fuseSecret]; repeat' split
  all_goals simp_all [↓hub_mk]
@[simp] theorem hub_fuseResume (s : State) : hub (fuseResume s) = hub s := by
  unfold fuseResume; split <;> simp [↓hub_mk]
@[simp] theorem hub_fuseRequest (s : State) (op window : Nat) : hub (fuseRequest s op window) = hub s := by
  simp only [fuseRequest]; split <;> exact hub_fuseProgram _ _ _ _ _ fun t k => by simp
@[simp] theorem hub_fuseRepeat (s : State) : hub (fuseRepeat s) = hub s := by
  unfold fuseRepeat; split <;> simp [↓hub_mk]
@[simp] theorem hub_fuseAsk (s : State) (op window : Nat) : hub (fuseAsk s op window) = hub s := by
  unfold fuseAsk; simp [↓hub_mk]
@[simp] theorem hub_counterPick (s : State) (k : Nat) : hub (counterPick s k) = hub s := by rfl
@[simp] theorem hub_counterAdvance (s : State) (k window : Nat) : hub (counterAdvance s k window) = hub s := by
  unfold counterAdvance; simp
@[simp] theorem hub_ownerTry (window n : Nat) (s : State) (o : OwnerChange) : hub (ownerTry window n s o) = hub s := by
  induction n generalizing s o with
  | zero => rfl
  | succ n ih =>
    show hub (if 8 ≤ o.slot then _ else _) = hub s
    split
    · exact hub_mk
    · generalize hu : fuseRequest _ 5 window = t
      have ht : hub t = hub s := hu ▸ (hub_fuseRequest ..).trans hub_mk
      dsimp only; split
      · rw [ih, ht]
      · exact ht
@[simp] theorem hub_ownerNext (s : State) (k : Nat) : hub (ownerNext s k) = hub s := by
  unfold ownerNext; split <;> simp [↓hub_mk]
@[simp] theorem hub_ownerBegin (s : State) (window : Nat) : hub (ownerBegin s window) = hub s := by
  unfold ownerBegin; simp [↓hub_mk]
@[simp] theorem hub_burn (s : State) (k : Nat) (c : BitVec 72) : hub (burn s k c) = hub s := by rfl
@[simp] theorem hub_cutCell (s : State) (k : Nat) (cut : Nat) (pattern : BitVec 72) : hub (cutCell s k cut pattern) = hub s := by
  unfold cutCell; simp [↓hub_mk]
@[simp] theorem hub_fuseDone (s : State) (failed : BitVec 72) : hub (fuseDone s failed) = hub s := by
  unfold fuseDone; split <;> simp [↓hub_mk]
@[simp] theorem hub_fuseNext (s : State) (k : Nat) : hub (fuseNext s k) = hub s := by
  unfold fuseNext; simp
@[simp] theorem hub_fuseStop (s : State) (completed : BitVec 72) (cut : Nat) (result : Nat) :
    hub (fuseStop s completed cut result) = hub s := by
  unfold fuseStop; split <;> simp
@[simp] theorem hub_fuseStopFree (s0 : State) (result : Nat) : hub (fuseStopFree s0 result) = hub s0 := by
  unfold fuseStopFree; simp [↓hub_mk]

/-! ### The DRBG reseed and the Strongbox (Machine/Rng.lean) -/

@[simp] theorem hub_setSboxPort (s : State) (w : Who) (p : SboxPort) : hub (setSboxPort s w p) = hub s := by rfl
@[simp] theorem hub_fillSlot (s : State) (n : Nat) (origin : Nat) (a : Word) (key : List Byte) : hub (fillSlot s n origin a key) = hub s := by
  rfl
@[simp] theorem hub_ecSignOnce (seed : List Byte) (e : Nat) (s : State) : hub (ecSignOnce seed e s).2 = hub s := by
  simp only [ecSignOnce]; split
  · rfl
  · simp [hub_of_drbgGrant ‹_›]
@[simp] theorem hub_mlSignOnce (seed m : List Byte) (s : State) : hub (mlSignOnce seed m s).2 = hub s := by
  simp only [mlSignOnce]; split
  · rfl
  · simp [hub_of_drbgGrant ‹_›]
@[simp] theorem hub_setLane (s : State) (n : Nat) (l : Lane) : hub (setLane s n l) = hub s := by rfl
@[simp] theorem hub_deriveLane (s : State) : hub (deriveLane s).2 = hub s := by
  simp only [deriveLane]; split <;> simp
@[simp] theorem hub_takeLane (s : State) (w : Who) : hub (takeLane s w) = hub s := by
  unfold takeLane; simp
@[simp] theorem hub_freeLane (s : State) (w : Who) : hub (freeLane s w) = hub s := by
  unfold freeLane; split <;> simp
@[simp] theorem hub_clearData (s : State) (w : Who) : hub (clearData s w) = hub s := by rfl
@[simp] theorem hub_sboxCmd (s : State) (w : Who) (long clear : Bool) (f : State → SboxPort → Nat × State)
    (hf : ∀ t p, hub (f t p).2 = hub t) : hub (sboxCmd s w long clear f) = hub s := by
  refine hub_byCore _ _ _ fun t => ?_
  dsimp only; repeat' split
  all_goals simp [↓hub_mk, hf]
@[simp] theorem hub_sboxInstall (s : State) (p : SboxPort) : hub (sboxInstall s p).2 = hub s := by
  simp only [sboxInstall]; repeat' split
  all_goals simp
@[simp] theorem hub_sboxErase (s : State) (p : SboxPort) : hub (sboxErase s p).2 = hub s := by
  unfold sboxErase; split <;> simp
@[simp] theorem hub_drbgFill (s : State) (n : Nat) (a : Word) : hub (drbgFill s n a).2 = hub s := by
  simp only [drbgFill]; split
  · rfl
  · simp [hub_of_drbgGrant ‹_›]
@[simp] theorem hub_sboxDerive (w : Who) (s : State) (p : SboxPort) : hub (sboxDerive w s p).2 = hub s := by
  simp only [sboxDerive]; repeat' split
  all_goals simp
@[simp] theorem hub_sboxResume (s : State) (w : Who) : hub (sboxResume s w) = hub s := by
  simp only [sboxResume]; repeat' split
  all_goals simp
@[simp] theorem hub_drbgResume (s : State) : hub (drbgResume s) = hub s := by
  unfold drbgResume; simp
@[simp] theorem hub_rootDo (s : State) : hub (rootDo s).2 = hub s := by
  simp only [rootDo]; repeat' split
  all_goals simp [↓hub_mk]

/-! ### The Assay (Machine/Assay.lean) -/

@[simp] theorem hub_setTap (s : State) (n : Nat) (t : Tap) : hub (setTap s n t) = hub s := by rfl
@[simp] theorem hub_pollLog (s : State) (pid : Nat) : hub (pollLog s pid) = hub s := by
  simp only [pollLog]; split <;> simp
@[simp] theorem hub_logLeaves (s : State) (pid : Nat) : hub (logLeaves s pid) = hub s := by
  unfold logLeaves; simp
@[simp] theorem hub_logWritten (s : State) (pid : Nat) (ok : Bool) : hub (logWritten s pid ok) = hub s := by
  unfold logWritten; simp
@[simp] theorem hub_logAppend (s : State) (pid : Nat) (rec : List Byte) : hub (logAppend s pid rec) = hub s := by
  unfold logAppend; simp
@[simp] theorem hub_opEnd (s : State) (pid k : Nat) (o : AOp) (v : Verdict) : hub (opEnd s pid k o v) = hub s := by
  simp only [opEnd]; split <;> simp
@[simp] theorem hub_opAbort (s : State) (pid k : Nat) (o : AOp) (cause : Nat) : hub (opAbort s pid k o cause) = hub s := by
  unfold opAbort; simp
@[simp] theorem hub_opsLoseRegions (s : State) : hub (opsLoseRegions s) = hub s := by
  unfold opsLoseRegions; simp
@[simp] theorem hub_asyFlush (s : State) (pid : Nat) : hub (asyFlush s pid) = hub s :=
  hub_foldl _ _ _ fun t k => by split <;> simp
@[simp] theorem hub_beatOp (m : Meta) (port : Nat) (data : List Byte) (absorbed : Bool) (s : State) (x : Nat × Nat × AOp) :
    hub (beatOp m port data absorbed s x) = hub s := by
  unfold beatOp; simp
@[simp] theorem hub_markTapFault (checker : Nat) (s : State) (x : Nat × Nat × AOp) : hub (markTapFault checker s x) = hub s := by
  unfold markTapFault; simp
@[simp] theorem hub_tapFault (s : State) (port pseq : Nat) (t : Tap) (checker : Nat) : hub (tapFault s port pseq t checker) = hub s := by
  unfold tapFault; simp [↓hub_mk]
@[simp] theorem hub_tapBeat (s : State) (port : Nat) (data : BitVec 1024) (info : BitVec 128) (absorbed : Bool) :
    hub (tapBeat s port data info absorbed) = hub s := by
  simp only [tapBeat]; split <;> simp
@[simp] theorem hub_asyResult (s : State) (pid r : Nat) : hub (asyResult s pid r) = hub s := by rfl
@[simp] theorem hub_asyCmd (s : State) (src : Src) (off : Nat) (k : State → Nat → State) (hk : ∀ t p, hub (k t p) = hub t) :
    hub (asyCmd s src off k) = hub s := by
  cases src <;> simp [asyCmd, hk]
@[simp] theorem hub_asyDraw (s : State) (sample n : Nat) : hub (asyDraw s sample n).2.2 = hub s := by
  simp only [asyDraw]; split
  · rfl
  · simp [hub_of_drbgGrant ‹_›]
@[simp] theorem hub_opOpen (s : State) (pid k : Nat) (o : AOp) (nw : Nat) : hub (opOpen s pid k o nw) = hub s := by
  unfold opOpen; simp
@[simp] theorem hub_asySubmit (s : State) (pid : Nat) : hub (asySubmit s pid) = hub s := by
  unfold asySubmit; split <;> simp
@[simp] theorem hub_asyClose (s : State) (pid : Nat) : hub (asyClose s pid) = hub s := by
  unfold asyClose; simp
@[simp] theorem hub_asyCancel (s : State) (pid : Nat) : hub (asyCancel s pid) = hub s := by
  simp only [asyCancel]; split <;> simp
@[simp] theorem hub_logRegister (s : State) (pid : Nat) : hub (logRegister s pid) = hub s := by
  simp only [logRegister]; repeat' split
  all_goals simp
@[simp] theorem hub_logRelease (s : State) (pid : Nat) : hub (logRelease s pid) = hub s := by
  unfold logRelease; simp
@[simp] theorem hub_logDone (s : State) (pid : Nat) (reg ok : Bool) : hub (logDone s pid reg ok) = hub s := by
  unfold logDone; simp
@[simp] theorem hub_disagreed (s : State) (pid : Nat) (o : AOp) (b array : Nat) : hub (disagreed s pid o b array) = hub s := by
  unfold disagreed; simp [↓hub_mk]
@[simp] theorem hub_disagreements (s : State) (pid : Nat) (o : AOp) (bs : List Band) : hub (disagreements s pid o bs) = hub s := by
  unfold disagreements; simp
@[simp] theorem hub_opJudge (s : State) (pid k : Nat) (o : AOp) (rs : List Recheck) : hub (opJudge s pid k o rs) = hub s := by
  unfold opJudge; simp
@[simp] theorem hub_assayVerdict (s : State) (pid k : Nat) (rs : List Recheck) : hub (assayVerdict s pid k rs) = hub s := by
  unfold assayVerdict; split <;> simp
@[simp] theorem hub_setQuotas (s : State) (es : List (Nat × Nat × Nat)) : hub (setQuotas s es) = hub s := by
  unfold setQuotas; simp
@[simp] theorem hub_asyConfig (s : State) (c tag : Nat) (body : List Word) : hub (asyConfig s c tag body) = hub s := by
  unfold asyConfig; split <;> simp

/-! ### Assay programs (Machine/Prog.lean) -/

@[simp] theorem hub_prgResult (s : State) (pid r : Nat) : hub (prgResult s pid r) = hub s := by rfl
@[simp] theorem hub_prgOpen (s : State) (pid : Nat) : hub (prgOpen s pid) = hub s := by rfl
@[simp] theorem hub_prgLoad (s : State) (pid : Nat) : hub (prgLoad s pid) = hub s := by
  simp only [prgLoad]; repeat' split
  all_goals simp [↓hub_mk]
@[simp] theorem hub_prgUnload (s : State) (pid : Nat) : hub (prgUnload s pid) = hub s := by
  unfold prgUnload; simp [↓hub_mk]
@[simp] theorem hub_prgInfo (s : State) (pid : Nat) : hub (prgInfo s pid) = hub s := by
  simp only [prgInfo]; split <;> simp
@[simp] theorem hub_prgAppend (s : State) (src : Src) (pid : Nat) (bytes : List Byte) : hub (prgAppend s src pid bytes) = hub s := by
  unfold prgAppend; simp
@[simp] theorem hub_asyRun (s : State) (pid : Nat) : hub (asyRun s pid) = hub s := by
  unfold asyRun; split <;> simp

/-! ### Keys sealed for sleep and keys for agents (Machine/Keys.lean) -/

@[simp] theorem hub_keySend (s : State) (a : Nat) (d : KeyDesc) (kek key : List Byte) : hub (keySend s a d kek key) = hub s := by
  unfold keySend; simp
@[simp] theorem hub_wrapSet (s : State) (a : Nat) : hub (wrapSet s a) = hub s := by
  unfold wrapSet; simp [↓hub_mk]
@[simp] theorem hub_wrapSets (s : State) (as : List Nat) : hub (wrapSets s as) = hub s := by
  unfold wrapSets; simp
@[simp] theorem hub_keyDeliverFrames (s : State) (k : DKey) : hub (keyDeliverFrames s k) = hub s := by
  unfold keyDeliverFrames; simp
@[simp] theorem hub_keyErase (s : State) (a index keyId : Nat) : hub (keyErase s a index keyId) = hub s := by
  unfold keyErase; simp
@[simp] theorem hub_setKeys (s : State) (ks : List DKey) : hub (setKeys s ks) = hub s := by rfl
@[simp] theorem hub_dropKeys (s : State) (q : DKey → Bool) : hub (dropKeys s q) = hub s := by
  unfold dropKeys; simp
@[simp] theorem hub_rekeyAgents (s : State) (as : List Nat) : hub (rekeyAgents s as) = hub s := by
  unfold rekeyAgents; simp
@[simp] theorem hub_dropChunks (s : State) (a n : Nat) : hub (dropChunks s a n) = hub s := by rfl
@[simp] theorem hub_keyDone (s : State) (a : Nat) (ok : Bool) : hub (keyDone s a ok) = hub s := by
  unfold keyDone; simp

/-! ### Power and reset of the domains (Machine/Power.lean) -/

@[simp] theorem hub_pwrPoll (s : State) : hub (pwrPoll s) = hub s := by
  unfold pwrPoll; repeat' split
  all_goals simp [↓hub_mk]
@[simp] theorem hub_pwrAsk (s : State) (dom state : Nat) : hub (pwrAsk s dom state) = hub s := by
  unfold pwrAsk; simp [↓hub_mk]
@[simp] theorem hub_domSet (s : State) (q : DomSeq) (step : Nat) : hub (domSet s q step) = hub s := by rfl
@[simp] theorem hub_domDrop (s : State) (q : DomSeq) : hub (domDrop s q) = hub s := by rfl
@[simp] theorem hub_domStart (s : State) (d : Nat) (why : DomWhy) : hub (domStart s d why) = hub s := by rfl
@[simp] theorem hub_domLost (s : State) (d : Nat) : hub (domLost s d) = hub s := by
  unfold domLost; simp
@[simp] theorem hub_domHeal (s : State) (d : Nat) : hub (domHeal s d) = hub s := by
  unfold domHeal; simp [↓hub_mk]
@[simp] theorem hub_domRoots (s : State) (d : Nat) : hub (domRoots s d) = hub s := by
  unfold domRoots; simp
@[simp] theorem hub_domEnd (s : State) (q : DomSeq) (ok : Bool) : hub (domEnd s q ok) = hub s := by
  unfold domEnd; split <;> simp [↓hub_mk]
@[simp] theorem hub_domBack (s : State) (d : Nat) (ok : Bool) : hub (domBack s d ok) = hub s := by
  unfold domBack; simp
@[simp] theorem hub_domCommitted (s : State) (ds : List Nat) (ok : Bool) : hub (domCommitted s ds ok) = hub s := by
  unfold domCommitted; simp
@[simp] theorem hub_pwrAnswered (s : State) (r : PwrReq) : hub (pwrAnswered s r) = hub s := by
  unfold pwrAnswered; split <;> simp
@[simp] theorem hub_domPowerTimeout (s : State) (d : Nat) : hub (domPowerTimeout s d) = hub s := by
  unfold domPowerTimeout; split <;> simp
@[simp] theorem hub_domainReset (s : State) (c tag cls : Nat) (body : List Word) : hub (domainReset s c tag cls body) = hub s := by
  unfold domainReset; simp
@[simp] theorem hub_domainPower (s : State) (c tag cls : Nat) (body : List Word) : hub (domainPower s c tag cls body) = hub s := by
  unfold domainPower; simp
@[simp] theorem hub_pwrDomain (s : State) (d st : Nat) : hub (pwrDomain s d st) = hub s := by
  simp only [pwrDomain]; split <;> simp [↓hub_mk]

/-! ### Epochs (Machine/Epoch.lean) -/

@[simp] theorem hub_setEpoch (s : State) (e : Epoch) : hub (setEpoch s e) = hub s := by rfl
@[simp] theorem hub_sendWrites (s : State) (kind : Nat) (as : List Nat) (use : CpbUse) : hub (sendWrites s kind as use) = hub s := by
  unfold sendWrites; simp
@[simp] theorem hub_sendPrepare (s : State) (kind : Nat) (as : List Nat) (v : Nat) (ep : Bool) (use : CpbUse) :
    hub (sendPrepare s kind as v ep use) = hub s := by
  unfold sendPrepare; simp
@[simp] theorem hub_sendVersion (s : State) (op : Nat) (as : List Nat) (v : Nat) (use : CpbUse) : hub (sendVersion s op as v use) = hub s := by
  unfold sendVersion; simp
@[simp] theorem hub_epochBegin (s : State) (runAll : Bool) (es : List WEntry) : hub (epochBegin s runAll es) = hub s := by
  unfold epochBegin; simp
@[simp] theorem hub_epochFail (s : State) (op reason a : Nat) : hub (epochFail s op reason a) = hub s := by
  unfold epochFail; simp
@[simp] theorem hub_epochDone (s : State) : hub (epochDone s) = hub s := by
  unfold epochDone; simp
@[simp] theorem hub_epochExchange (s : State) : hub (epochExchange s) = hub s := by
  unfold epochExchange; simp [↓hub_mk]
@[simp] theorem hub_epochPrepareNow (s : State) : hub (epochPrepareNow s) = hub s := by
  unfold epochPrepareNow; simp
@[simp] theorem hub_epochCommitKind (s : State) : hub (epochCommitKind s) = hub s := by
  unfold epochCommitKind; simp
@[simp] theorem hub_epochCommitNow (s : State) : hub (epochCommitNow s) = hub s := by rfl
@[simp] theorem hub_rollbackNow (s : State) : hub (rollbackNow s) = hub s := by
  unfold rollbackNow; simp
@[simp] theorem hub_rollbackStep (s : State) : hub (rollbackStep s) = hub s := by
  simp only [rollbackStep]; split <;> simp
@[simp] theorem hub_pollEpoch (s : State) : hub (pollEpoch s) = hub s := by
  simp only [pollEpoch]; split <;> simp
@[simp] theorem hub_epochReply (s : State) (f : Frame) (ack : Bool) (reason : Nat) : hub (epochReply s f ack reason) = hub s := by
  unfold epochReply; simp
@[simp] theorem hub_epochNoReply (s : State) (f : Frame) : hub (epochNoReply s f) = hub s := by
  unfold epochNoReply; simp
@[simp] theorem hub_epochResult (s : State) (r : Nat) : hub (epochResult s r) = hub s := by rfl
@[simp] theorem hub_epochStart (s : State) (runAll : Bool) : hub (epochStart s runAll) = hub s := by
  simp only [epochStart]; repeat' split
  all_goals simp
@[simp] theorem hub_epochCommitCmd (s : State) : hub (epochCommitCmd s) = hub s := by
  unfold epochCommitCmd; simp
@[simp] theorem hub_epochAbandon (s : State) : hub (epochAbandon s) = hub s := by
  unfold epochAbandon; simp
@[simp] theorem hub_epochReprepare (s : State) : hub (epochReprepare s) = hub s := by
  simp only [epochReprepare]; repeat' split
  all_goals simp
@[simp] theorem hub_commitTimeout (s : State) : hub (commitTimeout s) = hub s := by
  unfold commitTimeout; simp

/-! ### Images (Machine/Image.lean) -/

@[simp] theorem hub_flashRead (s : State) (slot offset length : Nat) : hub (flashRead s slot offset length) = hub s := by rfl
@[simp] theorem hub_pushSend (s : State) (words : List Word) : hub (pushSend s words) = hub s := by
  unfold pushSend; simp

/-! ### Loads (Machine/Load.lean) -/

@[simp] theorem hub_setSiteInfo (s : State) (k : Nat) (v : SiteInfo) : hub (setSiteInfo s k v) = hub s := by rfl
@[simp] theorem hub_setLoad (s : State) (l : Load) : hub (setLoad s l) = hub s := by rfl
@[simp] theorem hub_loadJournal (s : State) (l : Load) (event src site reason : Nat) :
    hub (loadJournal s l event src site reason) = hub s := by
  unfold loadJournal; simp [↓hub_mk]
@[simp] theorem hub_siteNotice (s : State) (l : Load) (k held reason : Nat) : hub (siteNotice s l k held reason) = hub s := by
  unfold siteNotice; repeat' split
  all_goals simp
@[simp] theorem hub_loadsEnd (s : State) (why : LoadWhy) : hub (loadsEnd s why) = hub s := by
  unfold loadsEnd; split <;> simp
@[simp] theorem hub_loadDrop (s : State) (l : Load) : hub (loadDrop s l) = hub s := by
  unfold loadDrop; simp [↓hub_mk]
@[simp] theorem hub_failSite (l : Load) (reason : Nat) (s : State) (k : Nat) : hub (failSite l reason s k) = hub s := by
  unfold failSite; split <;> simp [↓hub_mk]
@[simp] theorem hub_keepSites (s : State) (l : Load) (reason : Nat) (ok : Nat → Bool) : hub (keepSites s l reason ok) = hub s := by
  simp only [keepSites, hub_ite, hub_loadDrop, ite_self]
  exact hub_foldl _ _ _ fun t k => hub_failSite ..
@[simp] theorem hub_failAll (s : State) (l : Load) (reason : Nat) : hub (failAll s l reason) = hub s := by
  unfold failAll; simp
@[simp] theorem hub_loadRead (s : State) (l : Load) (off n : Nat) : hub (loadRead s l off n) = hub s := by
  unfold loadRead; simp
@[simp] theorem hub_loadBegin (s : State) (l : Load) : hub (loadBegin s l) = hub s := by
  simp only [loadBegin]; split <;> simp [↓hub_mk]
@[simp] theorem hub_loadReady (s : State) (l : Load) : hub (loadReady s l) = hub s := by
  unfold loadReady; simp
@[simp] theorem hub_loadBlock (s : State) (l : Load) (m : Image) (i : Nat) : hub (loadBlock s l m i) = hub s := by
  unfold loadBlock; simp
@[simp] theorem hub_loadCheck (s : State) (l : Load) : hub (loadCheck s l) = hub s := by
  simp only [loadCheck]; repeat' split
  all_goals simp
@[simp] theorem hub_hipWrites (use : HipUse) (n : Nat) (s : State) (a : Nat) (bs : List Byte) : hub (hipWrites use n s a bs) = hub s := by
  induction n generalizing s a bs with
  | zero => rfl
  | succ n ih => simp [hipWrites, ih]
@[simp] theorem hub_loadWrite (s : State) (l : Load) (m : Image) (i : Nat) : hub (loadWrite s l m i) = hub s := by
  simp only [loadWrite, hub_setLoad]
  exact hub_foldl _ _ _ fun t k => by split <;> simp
@[simp] theorem hub_loadRelease (s : State) (l : Load) (m : Image) : hub (loadRelease s l m) = hub s := by
  simp only [loadRelease, hub_loadDrop]
  refine hub_foldl _ _ _ fun t k => ?_
  split <;> simp [↓hub_mk]
@[simp] theorem hub_loadWritten (s : State) (l : Load) (i : Nat) (bad : List Nat) : hub (loadWritten s l i bad) = hub s := by
  simp only [loadWritten]; repeat' split
  all_goals simp
@[simp] theorem hub_loadBytes (s : State) (ok : Bool) (bytes : List Byte) : hub (loadBytes s ok bytes) = hub s := by
  simp only [loadBytes]; repeat' split
  all_goals simp
@[simp] theorem hub_stagingDone (s : State) (num : Nat) (ok : Bool) (bytes : List Byte) : hub (stagingDone s num ok bytes) = hub s := by
  unfold stagingDone; split <;> simp
@[simp] theorem hub_loadWriteDone (s : State) (num addr : Nat) (ok : Bool) : hub (loadWriteDone s num addr ok) = hub s := by
  simp only [loadWriteDone]; repeat' split
  all_goals simp
@[simp] theorem hub_stagedAnswer (s : State) (origin length : Nat) : hub (stagedAnswer s origin length) = hub s := by
  unfold stagedAnswer; split <;> simp [↓hub_mk]
@[simp] theorem hub_stagedTimeout (s : State) : hub (stagedTimeout s) = hub s := by
  unfold stagedTimeout; split <;> simp [↓hub_mk]
@[simp] theorem hub_siteReadyTimeout (s : State) (k : Nat) : hub (siteReadyTimeout s k) = hub s := by
  unfold siteReadyTimeout; split <;> simp
@[simp] theorem hub_pollLoads (s : State) : hub (pollLoads s) = hub s := by
  unfold pollLoads; split <;> simp
@[simp] theorem hub_startLoads (s : State) (ks : List Nat) (why : LoadWhy) : hub (startLoads s ks why) = hub s := by
  unfold startLoads; simp [↓hub_mk]

/-! ### The ANVIL engine (Machine/Anvil.lean) -/

@[simp] theorem hub_jobFails (r : Nat) (s : State) : hub (jobFails r s).2.2.2 = hub s := by rfl
@[simp] theorem hub_jobMem (s : State) (m : List (Nat × List Byte)) : hub (jobMem s m).2.2.2 = hub s := by rfl
@[simp] theorem hub_putOuts (s : State) (m : List (Nat × List Byte)) : hub (putOuts s m) = hub s := by
  unfold putOuts; simp
@[simp] theorem hub_setOpWords (s : State) (ws : List (Nat × DWord)) : hub (setOpWords s ws) = hub s := by rfl
@[simp] theorem hub_anvilBegin (s : State) (e : Nat × Nat) (f : State → List Byte → Nat × Nat × Outs × State)
    (hf : ∀ t d, hub (f t d).2.2.2 = hub t) : hub (anvilBegin s e f) = hub s := by
  simp only [anvilBegin]; split <;> simp [↓hub_mk, hf]
@[simp] theorem hub_anvilRow (op : Nat) (f : State → List Byte → Nat × Nat × Outs × State) (s : State)
    (hf : ∀ t d, hub (f t d).2.2.2 = hub t) : hub (anvilRow op f s) = hub s := by
  simp only [anvilRow]; repeat' split
  all_goals simp [hf]
@[simp] theorem hub_modOp (op : Nat) (useB : Bool) (ok : Nat → Nat → Nat → Bool) (val : Nat → Nat → Nat → Nat) (s : State) (d : List Byte) :
    hub (modOp op useB ok val s d).2.2.2 = hub s := by
  unfold modOp; repeat' split
  all_goals simp
@[simp] theorem hub_modExp (s : State) (d : List Byte) : hub (modExp s d).2.2.2 = hub s := by
  simp only [modExp]; split <;> simp
@[simp] theorem hub_slotClear (s : State) (d : List Byte) : hub (slotClear s d).2.2.2 = hub s := by
  unfold slotClear; split <;> simp
@[simp] theorem hub_slotLoad (s : State) (d : List Byte) : hub (slotLoad s d).2.2.2 = hub s := by
  simp only [slotLoad]; repeat' split
  all_goals simp
@[simp] theorem hub_slotStore (s : State) (d : List Byte) : hub (slotStore s d).2.2.2 = hub s := by
  simp only [slotStore]; repeat' split
  all_goals simp
@[simp] theorem hub_ecdsaSignJob (s : State) (d : List Byte) : hub (ecdsaSignJob s d).2.2.2 = hub s := by
  have granted : ∀ t, drbgGrant s true = some t → hub t = hub s := fun _ => hub_of_drbgGrant
  simp only [ecdsaSignJob]; repeat' split
  all_goals simp_all
@[simp] theorem hub_ecdsaVerifyJob (s : State) (d : List Byte) : hub (ecdsaVerifyJob s d).2.2.2 = hub s := by
  simp only [ecdsaVerifyJob]; repeat' split
  all_goals simp
@[simp] theorem hub_ecdhJob (s : State) (d : List Byte) : hub (ecdhJob s d).2.2.2 = hub s := by
  simp only [ecdhJob]; repeat' split
  all_goals simp
@[simp] theorem hub_ecCheckJob (s : State) (d : List Byte) : hub (ecCheckJob s d).2.2.2 = hub s := by
  unfold ecCheckJob; repeat' split
  all_goals simp
@[simp] theorem hub_lattice (f : State → List Byte → Nat × Nat × Outs × State) (s : State) (d : List Byte)
    (hf : ∀ t d, hub (f t d).2.2.2 = hub t) : hub (lattice f s d).2.2.2 = hub s := by
  simp only [lattice]; split <;> simp [hf]
@[simp] theorem hub_mldsaSignJob (s : State) (d : List Byte) : hub (mldsaSignJob s d).2.2.2 = hub s := by
  have granted : ∀ t, drbgGrant s true = some t → hub t = hub s := fun _ => hub_of_drbgGrant
  simp only [mldsaSignJob]; repeat' split
  all_goals simp_all
@[simp] theorem hub_mldsaVerifyJob (s : State) (d : List Byte) : hub (mldsaVerifyJob s d).2.2.2 = hub s := by
  simp only [mldsaVerifyJob]; split <;> simp
@[simp] theorem hub_mlkemEncapsJob (s : State) (d : List Byte) : hub (mlkemEncapsJob s d).2.2.2 = hub s := by
  have granted : ∀ t, drbgGrant s false = some t → hub t = hub s := fun _ => hub_of_drbgGrant
  simp only [mlkemEncapsJob]; repeat' split
  all_goals simp_all
@[simp] theorem hub_mlkemDecapsJob (s : State) (d : List Byte) : hub (mlkemDecapsJob s d).2.2.2 = hub s := by
  simp only [mlkemDecapsJob]; repeat' split
  all_goals simp
@[simp] theorem hub_anvilYield (s : State) (stretch : Nat) : hub (anvilYield s stretch) = hub s := by
  unfold anvilYield; split <;> simp [↓hub_mk]
@[simp] theorem hub_putSlot (s : State) (origin : Nat) (o : Option (Nat × Word × List Byte)) : hub (putSlot s origin o).2 = hub s := by
  unfold putSlot; repeat' split
  all_goals simp
@[simp] theorem hub_pkeJob (s : State) (w : Who) (off : Nat) : hub (pkeJob s w off) = hub s := by
  unfold pkeJob; simp [↓hub_mk]
@[simp] theorem hub_pkeSlotLen (s : State) (w : Who) (data : Word) : hub (pkeSlotLen s w data) = hub s := by
  unfold pkeSlotLen; simp [↓hub_mk]

/-! ### Measurement lanes (Machine/Lanes.lean) -/

@[simp] theorem hub_laneRead (s : State) (n : Nat) : hub (laneRead s n) = hub s := by
  unfold laneRead; simp
@[simp] theorem hub_laneStart (s : State) (n : Nat) (off : Nat) : hub (laneStart s n off) = hub s := by
  simp only [laneStart]; repeat' split
  all_goals simp
@[simp] theorem hub_laneRow (op n : Nat) (s : State) : hub (laneRow op n s) = hub s := by
  simp only [laneRow]; split <;> simp
@[simp] theorem hub_laneHip (s : State) (n : Nat) (ok : Bool) (len : Nat) (bytes : List Byte) : hub (laneHip s n ok len bytes) = hub s := by
  simp only [laneHip]; split <;> simp
@[simp] theorem hub_laneEnd (s : State) (n off : Nat) (d : List Byte) (r : Nat) : hub (laneEnd s n off d r) = hub s := by
  simp only [laneEnd]; repeat' split
  all_goals simp [↓hub_mk]
@[simp] theorem hub_hashDone (s : State) (n : Nat) : hub (hashDone s n) = hub s := by
  simp only [hashDone]; split <;> simp
@[simp] theorem hub_measJob (s : State) (w : Who) (n off : Nat) : hub (measJob s w n off) = hub s := by
  unfold measJob; simp

/-! ### The symmetric engine (Machine/Aes.lean) -/

@[simp] theorem hub_aesBegin (s : State) (e : Nat × Nat) (f : State → List Byte → Nat × Outs × State)
    (hf : ∀ t d, hub (f t d).2.2 = hub t) : hub (aesBegin s e f) = hub s := by
  simp [aesBegin, ↓hub_mk, hf]
@[simp] theorem hub_aesRow (mode : Nat) (f : State → List Byte → Nat × Outs × State) (s : State)
    (hf : ∀ t d, hub (f t d).2.2 = hub t) : hub (aesRow mode f s) = hub s := by
  simp only [aesRow]; repeat' split
  all_goals simp [hf]
@[simp] theorem hub_aesEnd (s : State) (j : AJob) : hub (aesEnd s j) = hub s := by
  unfold aesEnd; simp [↓hub_mk]
@[simp] theorem hub_aesDone (s : State) : hub (aesDone s) = hub s := by
  simp only [aesDone]; repeat' split
  all_goals simp
@[simp] theorem hub_symJob (s : State) (w : Who) (off : Nat) : hub (symJob s w off) = hub s := by
  unfold symJob; simp [↓hub_mk]
@[simp] theorem hub_aFail (r : Nat) (s : State) : hub (aFail r s).2.2 = hub s := by rfl
@[simp] theorem hub_gcmEncJob (s : State) (d : List Byte) : hub (gcmEncJob s d).2.2 = hub s := by
  simp only [gcmEncJob]; repeat' split
  all_goals simp
@[simp] theorem hub_gcmDecJob (s : State) (d : List Byte) : hub (gcmDecJob s d).2.2 = hub s := by
  simp only [gcmDecJob]; repeat' split
  all_goals simp
@[simp] theorem hub_gcmDecSlotJob (s : State) (d : List Byte) : hub (gcmDecSlotJob s d).2.2 = hub s := by
  simp only [gcmDecSlotJob]; repeat' split
  all_goals simp
@[simp] theorem hub_xtsJob (enc : Bool) (s : State) (d : List Byte) : hub (xtsJob enc s d).2.2 = hub s := by
  simp only [xtsJob]; repeat' split
  all_goals simp
@[simp] theorem hub_ctrJob (s : State) (d : List Byte) : hub (ctrJob s d).2.2 = hub s := by
  unfold ctrJob; repeat' split
  all_goals simp
@[simp] theorem hub_kwWrapJob (s : State) (d : List Byte) : hub (kwWrapJob s d).2.2 = hub s := by
  simp only [kwWrapJob]; repeat' split
  all_goals simp
@[simp] theorem hub_kwUnwrapJob (s : State) (d : List Byte) : hub (kwUnwrapJob s d).2.2 = hub s := by
  simp only [kwUnwrapJob]; repeat' split
  all_goals simp
@[simp] theorem hub_drbgGenJob (s : State) (d : List Byte) : hub (drbgGenJob s d).2.2 = hub s := by
  have granted : ∀ t, drbgGrant s (dB d 1 / 8 % 2 = 1) = some t → hub t = hub s := fun _ => hub_of_drbgGrant
  simp only [drbgGenJob]; repeat' split
  all_goals simp_all

/-! ### The CVU (Machine/CvuUnit.lean) -/

@[simp] theorem hub_setCvu (s : State) (u : Nat) (c : Cvu) : hub (setCvu s u c) = hub s := by rfl
@[simp] theorem hub_cvuFeed (s : State) (u : Nat) (c : Cvu) (bs : List Byte) : hub (cvuFeed s u c bs) = hub s := by
  unfold cvuFeed; simp
@[simp] theorem hub_cvuStart (s : State) (w : Who) (u : Nat) : hub (cvuStart s w u) = hub s := by
  unfold cvuStart; simp
@[simp] theorem hub_cvuFinish (s : State) (u : Nat) (c : Cvu) : hub (cvuFinish s u c) = hub s := by
  unfold cvuFinish; simp
@[simp] theorem hub_cvuMemrun (s : State) (u : Nat) (c : Cvu) : hub (cvuMemrun s u c) = hub s := by
  unfold cvuMemrun; simp
@[simp] theorem hub_cvuMemDone (s : State) (u : Nat) : hub (cvuMemDone s u) = hub s := by
  unfold cvuMemDone; simp

/-! ### SPDM (Machine/Spdm.lean) -/

@[simp] theorem hub_noteAnswer (s : State) (c tag : Nat) (r : SpdmRsp) : hub (noteAnswer s c tag r) = hub s := by rfl
@[simp] theorem hub_spdmReply (s : State) (c tag : Nat) (r : SpdmRsp) : hub (spdmReply s c tag r) = hub s := by
  simp only [spdmReply]; split <;> simp [↓hub_mk]
@[simp] theorem hub_sendRecord (s : State) (c tag : Nat) : hub (sendRecord s c tag) = hub s := by
  unfold sendRecord; split <;> simp [↓hub_mk]
@[simp] theorem hub_sessReply (s : State) (c tag : Nat) (body : List Word) : hub (sessReply s c tag body) = hub s := by
  unfold sessReply; split <;> simp
@[simp] theorem hub_carReply (s : State) (c tag code : Nat) (secured : Bool) (body : List Word) :
    hub (carReply s c tag code secured body) = hub s := by
  unfold carReply; simp
@[simp] theorem hub_carCode (s : State) (c tag code : Nat) (secured : Bool) (r : Nat) : hub (carCode s c tag code secured r) = hub s := by
  unfold carCode; simp
@[simp] theorem hub_sessTouch (s : State) (c : Nat) : hub (sessTouch s c) = hub s := by
  unfold sessTouch; split <;> simp
@[simp] theorem hub_badRecord (s : State) (c tag : Nat) : hub (badRecord s c tag) = hub s := by
  unfold badRecord; split <;> simp
@[simp] theorem hub_carried (s : State) (ch : Chan) (tag : BitVec 6) (code : Nat) (car : Carriage) (must : Bool)
    (k : State → Bool → Nat → List Word → State) (hk : ∀ t sec cls body, hub (k t sec cls body) = hub t) :
    hub (carried s ch tag code car must k) = hub s := by
  cases car <;> simp [carried, hk]
@[simp] theorem hub_spdmRow (s : State) (ch : Chan) (tag : BitVec 6) (car : Carriage) (need : Bool) (k : State → State × SpdmRsp)
    (hk : ∀ t, hub (k t).1 = hub t) : hub (spdmRow s ch tag car need k) = hub s := by
  refine hub_withRequest _ _ _ _ _ fun t cls body => ?_
  dsimp only; repeat' split
  all_goals simp [hk]
@[simp] theorem hub_sessDerive (s : State) (n label pid ctx : Nat) (kin : List Byte) : hub (sessDerive s n label pid ctx kin) = hub s := by
  unfold sessDerive; exact hub_fillSlot ..
@[simp] theorem hub_dataKeys (s : State) (v : Session) (m n1 n2 update : Nat) : hub (dataKeys s v m n1 n2 update) = hub s := by
  unfold dataKeys; rw [hub_sessDerive, hub_sessDerive]
@[simp] theorem hub_finish (s : State) (c : Nat) (th : BitVec 384) (verify : BitVec 384) : hub (finish s c th verify).1 = hub s := by
  simp only [finish]; repeat' split
  all_goals simp
theorem hub_inSession (s : State) (c : Nat) (k : Session → State × SpdmRsp) (hk : ∀ v, hub (k v).1 = hub s) :
    hub (inSession s c k).1 = hub s := by
  simp only [inSession]; repeat' split
  all_goals simp [hk]

/-! ### Hallmarks (Machine/Hallmark.lean) -/

@[simp] theorem hub_setPreps (s : State) (ps : List HPrep) : hub (setPreps s ps) = hub s := by rfl
@[simp] theorem hub_prepReply (s : State) (p : HPrep) (r : Nat) (bs : List Byte) : hub (prepReply s p r bs) = hub s := by
  unfold prepReply; simp
@[simp] theorem hub_prepTake (s : State) (p : HPrep) : hub (prepTake s p) = hub s := by
  have take : ∀ k, hub (hmkTake s k p.pid).2 = hub s := fun k => by simp
  simp only [prepTake]; split
  · rfl
  · rename_i k _
    split <;> (rename_i h; have := take k; rw [h] at this; simp_all)
@[simp] theorem hub_pollPreps (s : State) : hub (pollPreps s) = hub s := by
  unfold pollPreps; simp
@[simp] theorem hub_weightMeasure (s : State) (c tag : Nat) (sec : Bool) (body : List Word) :
    hub (weightMeasure s c tag sec body) = hub s := by
  unfold weightMeasure; simp
@[simp] theorem hub_weightRead (s : State) (pid obj : Nat) (o : WObj) : hub (weightRead s pid obj o) = hub s := by
  unfold weightRead; simp
@[simp] theorem hub_weightGo (s : State) (pid obj : Nat) : hub (weightGo s pid obj) = hub s := by
  unfold weightGo; split <;> simp
@[simp] theorem hub_pollWeights (s : State) : hub (pollWeights s) = hub s := by
  unfold pollWeights; simp
@[simp] theorem hub_weightGranted (s : State) (pid obj : Nat) (rs : List Nat) (ok : Bool) : hub (weightGranted s pid obj rs ok) = hub s := by
  unfold weightGranted; split <;> simp
@[simp] theorem hub_weightBytes (s : State) (pid obj : Nat) (ok : Bool) (bytes : List Byte) :
    hub (weightBytes s pid obj ok bytes) = hub s := by
  unfold weightBytes; split <;> simp

/-! ### Key delivery, pod tokens, TDISP and IDE (Machine/Deliver.lean) -/

@[simp] theorem hub_kemUpgrade (s : State) (c tag : Nat) (body : List Word) : hub (kemUpgrade s c tag body) = hub s := by
  have granted : ∀ t, drbgGrant s true = some t → hub t = hub s := fun _ => hub_of_drbgGrant
  simp only [kemUpgrade]; repeat' split
  all_goals simp_all
@[simp] theorem hub_keyDeliver (s : State) (c tag cls : Nat) (body : List Word) : hub (keyDeliver s c tag cls body) = hub s := by
  simp only [keyDeliver]; repeat' split
  all_goals simp
@[simp] theorem hub_keyAnswer (s : State) (k : DKey) (r : Nat) : hub (keyAnswer s k r) = hub s := by
  unfold keyAnswer; split <;> simp
@[simp] theorem hub_keyPut (s : State) (k : DKey) (k' : Option DKey) : hub (keyPut s k k') = hub s := by rfl
@[simp] theorem hub_keyNaked (s : State) (a : Nat) : hub (keyNaked s a) = hub s := by
  unfold keyNaked; split <;> simp
@[simp] theorem hub_keyStep (s : State) (k : DKey) : hub (keyStep s k) = hub s := by
  unfold keyStep; repeat' split
  all_goals simp
@[simp] theorem hub_pollKeys (s : State) : hub (pollKeys s) = hub s := by
  unfold pollKeys; simp
@[simp] theorem hub_keysCommitted (s : State) (pid : Nat) (ok : Bool) : hub (keysCommitted s pid ok) = hub s :=
  hub_foldl _ _ _ fun t k => by split <;> simp
@[simp] theorem hub_keyRevoke (s : State) (c tag cls : Nat) (body : List Word) : hub (keyRevoke s c tag cls body) = hub s := by
  unfold keyRevoke; split <;> simp
@[simp] theorem hub_identEndorse (s : State) (c tag : Nat) (body : List Word) : hub (identEndorse s c tag body) = hub s := by
  unfold identEndorse; split <;> simp [↓hub_mk]
@[simp] theorem hub_podKey (master : Nat) (s : State) (x : Nat × Nat × Nat × Nat) : hub (podKey master s x) = hub s := by
  simp only [podKey]; repeat' split
  all_goals simp
@[simp] theorem hub_podKeys (s : State) : hub (podKeys s) = hub s := by
  unfold podKeys; split <;> simp
@[simp] theorem hub_podToken (s : State) (c tag : Nat) (body : List Word) : hub (podToken s c tag body) = hub s := by
  simp only [podToken]; repeat' split
  all_goals simp [↓hub_mk]
@[simp] theorem hub_tsmRow (s : State) (ch : Chan) (tag : BitVec 6) (car : Carriage) (tdispReq : Bool) (k : State → State × SpdmRsp)
    (hk : ∀ t, hub (k t).1 = hub t) : hub (tsmRow s ch tag car tdispReq k) = hub s := by
  refine hub_spdmRow _ _ _ _ _ _ fun t => ?_
  split
  · rfl
  · refine hub_inSession _ _ _ fun v => ?_
    repeat' split
    all_goals simp [↓hub_mk, hk]
theorem hub_vfRow (s : State) (vf : Nat) (k : Nat → State × SpdmRsp) (hk : ∀ p, hub (k p).1 = hub s) : hub (vfRow s vf k).1 = hub s := by
  simp only [vfRow]; split <;> simp [hk]
@[simp] theorem hub_setStream (s : State) (stream : Nat) (keySet on : Bool) : hub (setStream s stream keySet on) = hub s := by rfl

/-! ### Boot (Machine/Boot.lean) -/

@[simp] theorem hub_stepStart (s : State) (n src : Nat) : hub (stepStart s n src) = hub s := by
  unfold stepStart; simp [↓hub_mk]
@[simp] theorem hub_stepDone (s : State) (n src : Nat) : hub (stepDone s n src) = hub s := by
  unfold stepDone; simp
@[simp] theorem hub_setPos (s : State) (p : BootAt) : hub (setPos s p) = hub s := by rfl
@[simp] theorem hub_journalRead (s : State) : hub (journalRead s) = hub s := by
  simp only [journalRead]; repeat' split
  all_goals simp [↓hub_mk]
@[simp] theorem hub_imageArea (s : State) (f : Boot → Boot) : hub (imageArea s f) = hub s := by
  unfold imageArea; simp [↓hub_mk]
@[simp] theorem hub_zeroCache (s : State) : hub (zeroCache s) = hub s := by
  unfold zeroCache; simp
@[simp] theorem hub_cacheBlock (s : State) (i : Nat) (bs : List Byte) : hub (cacheBlock s i bs) = hub s := by
  unfold cacheBlock; simp
@[simp] theorem hub_testRoot (s : State) : hub (testRoot s) = hub s := by rfl
@[simp] theorem hub_bootRoot (s : State) : hub (bootRoot s).2 = hub s := by
  simp only [bootRoot]; repeat' split
  all_goals simp [↓hub_mk]
@[simp] theorem hub_fixedSlot (s : State) (n origin use engine len : Nat) (key : List Byte) :
    hub (fixedSlot s n origin use engine len key) = hub s := by
  unfold fixedSlot; simp
@[simp] theorem hub_fixedRoots (s : State) : hub (fixedRoots s) = hub s := by
  unfold fixedRoots; simp
/-- The fixed slots are filled from the DRBG and from the fuses. -/
theorem hub_of_fixedSlots {s t : State} (h : fixedSlots s = some t) : hub t = hub s := by
  simp only [fixedSlots] at h; split at h
  · simp_all
  · split at h
    · cases h
    · cases h; simp [hub_of_drbgGrant ‹_›]
@[simp] theorem hub_lockPage (s : State) (page : Nat) : hub (lockPage s page) = hub s := by rfl
@[simp] theorem hub_enableAreas (s : State) : hub (enableAreas s) = hub s := by rfl
@[simp] theorem hub_sourceStart (s : State) (src : Nat) : hub (sourceStart s src) = hub s := by
  unfold sourceStart; simp [↓hub_mk]
@[simp] theorem hub_headCheck (s : State) (src : Nat) (bs : List Byte) : hub (headCheck s src bs).2 = hub s := by
  simp only [headCheck]; split <;> simp
@[simp] theorem hub_bootBlock (s : State) (src : Nat) (m : Image) (i : Nat) : hub (bootBlock s src m i) = hub s := by rfl
@[simp] theorem hub_pushOffer (s : State) (origin length : Nat) : hub (pushOffer s origin length) = hub s := by
  unfold pushOffer; split <;> simp [↓hub_mk]
@[simp] theorem hub_readDirectory (s : State) : hub (readDirectory s) = hub s := by
  unfold readDirectory; split <;> simp [↓hub_mk]
@[simp] theorem hub_skipSite (reason : Nat) (s : State) (k : Nat) : hub (skipSite reason s k) = hub s := by
  unfold skipSite; simp
@[simp] theorem hub_bootLoads (s : State) : hub (bootLoads s) = hub s := by
  unfold bootLoads; simp
@[simp] theorem hub_censusSilent (s : State) (a : Nat) : hub (censusSilent s a) = hub s := by
  unfold censusSilent; split <;> simp
@[simp] theorem hub_censusEnd (s : State) : hub (censusEnd s) = hub s := by
  simp only [censusEnd]; split <;> simp
@[simp] theorem hub_postReply (s : State) (f : Frame) (op : Nat) (pay : BitVec 56) : hub (postReply s f op pay) = hub s := by
  unfold postReply; simp [↓hub_mk]
@[simp] theorem hub_bootS10 (s : State) : hub (bootS10 s) = hub s := by
  unfold bootS10; simp
@[simp] theorem hub_restoreGens (s : State) (empty : Bool) : hub (restoreGens s empty) = hub s := by
  unfold restoreGens; simp
@[simp] theorem hub_restoredShared (s : State) (v : Version) : hub (restoredShared s v) = hub s := by
  unfold restoredShared; simp [↓hub_mk]
@[simp] theorem hub_unsealItems (s : State) : hub (unsealItems s) = hub s := by
  unfold unsealItems; split
  · rfl
  · refine hub_foldl _ _ _ fun t x => ?_
    repeat' split
    all_goals simp [↓hub_mk]

/-! ### The tables of the agents (Machine/Tables.lean) -/

@[simp] theorem hub_writeList (s : State) (es : List WEntry) : hub (writeList s es) = hub s := by rfl

/-! ### The Pattern Book (Machine/Book.lean) -/

@[simp] theorem hub_setBook (s : State) (k : Book) : hub (setBook s k) = hub s := by rfl
@[simp] theorem hub_bookEnd (s : State) (r : Nat) : hub (bookEnd s r) = hub s := by
  unfold bookEnd; simp
@[simp] theorem hub_undoQuiesce (s : State) (rolledBack : Bool) : hub (undoQuiesce s rolledBack) = hub s := by
  unfold undoQuiesce; simp
@[simp] theorem hub_bundleNotice (s : State) (p : Nat) : hub (bundleNotice s p) = hub s := by
  unfold bundleNotice; simp
@[simp] theorem hub_drainSources (s : State) (p : Nat) : hub (drainSources s p) = hub s := by
  unfold drainSources; simp
@[simp] theorem hub_drainSites (s : State) (p : Nat) : hub (drainSites s p) = hub s :=
  hub_foldl _ _ _ fun t k => by split <;> simp
@[simp] theorem hub_retire (s : State) (p : Nat) : hub (retire s p) = hub s := by
  unfold retire; simp
@[simp] theorem hub_retireGen (s : State) (p : Nat) : hub (retireGen s p) = hub s := by
  have step := hub_genStep s p
  simp only [retireGen]
  split <;> (rename_i h; rw [h] at step; simp_all)
@[simp] theorem hub_fenceLeaving (s : State) (i : Nat) : hub (fenceLeaving s i) = hub s := by
  unfold fenceLeaving; simp
@[simp] theorem hub_quiesceEnd (s : State) : hub (quiesceEnd s) = hub s := by
  unfold quiesceEnd; simp
@[simp] theorem hub_cmdRes (s : State) (r : Nat) : hub (cmdRes s r) = hub s := by rfl
@[simp] theorem hub_submitBytes (s : State) (bs : List Byte) : hub (submitBytes s bs) = hub s := by
  unfold submitBytes; split <;> simp
@[simp] theorem hub_bookCmd (s : State) (ok : BPhase → Bool) (k : State → State) (hk : ∀ t, hub (k t) = hub t) :
    hub (bookCmd s ok k) = hub s := by
  simp [bookCmd, hk]
@[simp] theorem hub_bookAccess (s : State) (src : Src) (off : Nat) (k : State → State) (hk : ∀ t, hub (k t) = hub t) :
    hub (bookAccess s src off k) = hub s := by
  simp [bookAccess, hk]
@[simp] theorem hub_bookOpen (s : State) : hub (bookOpen s) = hub s := by
  simp [bookOpen]
@[simp] theorem hub_bookSubmit (s : State) : hub (bookSubmit s) = hub s := by
  simp [bookSubmit]
@[simp] theorem hub_bookAbort (s : State) : hub (bookAbort s) = hub s := by
  unfold bookAbort; split <;> simp [↓hub_mk]
@[simp] theorem hub_bookRestore (s : State) : hub (bookRestore s) = hub s := by
  simp only [bookRestore]; split
  · simp
  · exact hub_bookCmd _ _ _ fun t => by split <;> simp
@[simp] theorem hub_bookReadback (s : State) : hub (bookReadback s) = hub s := by
  unfold bookReadback; split <;> simp
@[simp] theorem hub_bookWrite (s : State) (src : Src) (bytes : List Byte) : hub (bookWrite s src bytes) = hub s := by
  simp [bookWrite]
@[simp] theorem hub_consentMsg (s : State) (c tag : Nat) (body : List Word) : hub (consentMsg s c tag body) = hub s := by
  unfold consentMsg; simp

/-! ### The commits of SC1 (Machine/Jobs.lean) -/

@[simp] theorem hub_relist (s : State) (j : Job) : hub (relist s j) = hub s := by rfl
@[simp] theorem hub_compose (s : State) (j : Job) : hub (compose s j) = hub s := by rfl
@[simp] theorem hub_prepareHalted (s : State) (j : Job) : hub (prepareHalted s j) = hub s := by
  unfold prepareHalted; simp [↓hub_mk]
@[simp] theorem hub_regionClosed (b c : Bank) (s : State) (i : Nat) : hub (regionClosed b c s i) = hub s := by
  unfold regionClosed; simp
@[simp] theorem hub_partClosed (c : Bank) (s : State) (p : Nat) : hub (partClosed c s p) = hub s := by
  unfold partClosed; simp
@[simp] theorem hub_ringsClosed (b c : Bank) (s : State) (p : Nat) : hub (ringsClosed b c s p) = hub s := by
  unfold ringsClosed; simp
@[simp] theorem hub_weightsClosed (grants : Bool) (b c : Bank) (s : State) (p : Nat) : hub (weightsClosed grants b c s p) = hub s :=
  hub_foldl _ _ _ fun t k => by split <;> simp
@[simp] theorem hub_tdispClosed (b c : Bank) (s : State) (p : Nat) : hub (tdispClosed b c s p) = hub s := by
  unfold tdispClosed; simp
@[simp] theorem hub_rootsClosed (b c : Bank) (s : State) (p : Nat) : hub (rootsClosed b c s p) = hub s := by
  unfold rootsClosed; simp
@[simp] theorem hub_layoutEvent (b c : Bank) (s : State) (p : Nat) : hub (layoutEvent b c s p) = hub s := by
  unfold layoutEvent; simp
@[simp] theorem hub_bookWritten (s : State) : hub (bookWritten s) = hub s := by rfl
@[simp] theorem hub_closeEffects (grants : Bool) (s : State) : hub (closeEffects grants s) = hub s := by
  unfold closeEffects; simp
@[simp] theorem hub_followScrubs (s : State) : hub (followScrubs s) = hub s := by
  unfold followScrubs; simp [↓hub_mk]
@[simp] theorem hub_restoreEffects (s : State) (empty : Bool) : hub (restoreEffects s empty) = hub s := by
  unfold restoreEffects; simp [↓hub_mk]
@[simp] theorem hub_assignedDirty (s : State) : hub (assignedDirty s) = hub s := by
  unfold assignedDirty; simp
@[simp] theorem hub_dropRing (s : State) (p i : Nat) : hub (dropRing s p i) = hub s := by
  unfold dropRing; simp
@[simp] theorem hub_rootsBack (s : State) (p : Nat) : hub (rootsBack s p) = hub s := by
  unfold rootsBack; simp
@[simp] theorem hub_setScrub (s : State) (c : Option Scrub) : hub (setScrub s c) = hub s := by rfl
@[simp] theorem hub_scrubStart (s : State) (i : Nat) : hub (scrubStart s i) = hub s := by rfl
@[simp] theorem hub_scrubIssue (c : Scrub) (s : State) : hub (scrubIssue c s) = hub s := by
  unfold scrubIssue; repeat' split
  · exact hub_foldl _ _ _ fun t k => hub_hipIssue ..
  · exact hub_foldl _ _ _ fun t k => hub_hipIssue ..
  · rfl
@[simp] theorem hub_scrubEnd (c : Scrub) (s : State) : hub (scrubEnd c s) = hub s := by
  unfold scrubEnd; simp [↓hub_mk]
@[simp] theorem hub_scrubTallies (s : State) : hub (scrubTallies s) = hub s := by
  unfold scrubTallies; simp [↓hub_mk]
@[simp] theorem hub_pollScrub (s : State) : hub (pollScrub s) = hub s := by
  simp only [pollScrub]; repeat' split
  all_goals simp
@[simp] theorem hub_scrubAnswer (s : State) (region : Nat) (readback ok : Bool) (data : List Byte) :
    hub (scrubAnswer s region readback ok data) = hub s := by
  unfold scrubAnswer; split <;> simp
@[simp] theorem hub_scrubDrop (s : State) : hub (scrubDrop s) = hub s := by
  unfold scrubDrop; split <;> simp [↓hub_mk]
@[simp] theorem hub_scrubDue (s : State) (i : Nat) : hub (scrubDue s i) = hub s := by
  unfold scrubDue; split <;> simp [↓hub_mk]

/-! ### Quench (Machine/QuenchSeq.lean) -/

@[simp] theorem hub_withQuench (s : State) (pid : Nat) (f : Quench → Quench) : hub (withQuench s pid f) = hub s := by
  unfold withQuench; split <;> simp
@[simp] theorem hub_quenchStep (s : State) (pid step : Nat) : hub (quenchStep s pid step) = hub s := by
  unfold quenchStep; simp
@[simp] theorem hub_rgenFollow (s : State) (pid : Nat) : hub (rgenFollow s pid) = hub s := by
  unfold rgenFollow; simp
@[simp] theorem hub_quenchTwo (s : State) (pid : Nat) : hub (quenchTwo s pid) = hub s := by
  unfold quenchTwo; simp
@[simp] theorem hub_quenchThree (s : State) (pid : Nat) : hub (quenchThree s pid) = hub s := by
  rw [quenchThree, hub_foldl _ _ _ fun t k => by split <;> simp]; simp
@[simp] theorem hub_quenchFour (s : State) (pid : Nat) : hub (quenchFour s pid) = hub s := by
  unfold quenchFour; simp
@[simp] theorem hub_dropHip (s : State) (pid : Nat) : hub (dropHip s pid) = hub s := by rfl
@[simp] theorem hub_flushPid (s0 : State) (pid : Nat) : hub (flushPid s0 pid) = hub s0 := by
  unfold flushPid; simp
@[simp] theorem hub_quenchFlush (s : State) (pid : Nat) : hub (quenchFlush s pid) = hub s := by
  unfold quenchFlush; simp [↓hub_mk]
@[simp] theorem hub_quenchEight (s : State) (pid : Nat) : hub (quenchEight s pid) = hub s := by
  unfold quenchEight; simp
@[simp] theorem hub_quenchKeys (s : State) (pid : Nat) : hub (quenchKeys s pid) = hub s := by
  unfold quenchKeys; simp [↓hub_mk]
@[simp] theorem hub_quenchTell (s : State) (q : Quench) : hub (quenchTell s q) = hub s := by
  unfold quenchTell; simp
@[simp] theorem hub_quenchLeave (s : State) (pid : Nat) : hub (quenchLeave s pid) = hub s := by rfl
@[simp] theorem hub_quenchTen (s : State) (q : Quench) : hub (quenchTen s q) = hub s := by
  unfold quenchTen; split <;> simp [↓hub_mk]
@[simp] theorem hub_quenchEleven (s : State) (q : Quench) : hub (quenchEleven s q) = hub s := by
  unfold quenchEleven; simp
@[simp] theorem hub_quenchPoll (s : State) (pid : Nat) : hub (quenchPoll s pid) = hub s := by
  have step := hub_genStep s pid
  simp only [quenchPoll]; split
  · rfl
  · split
    · split
      · split <;> (rename_i h; rw [h] at step; simp_all)
      · simp
    all_goals simp
@[simp] theorem hub_pollQuench (s : State) : hub (pollQuench s) = hub s := by
  unfold pollQuench; simp
@[simp] theorem hub_quenchResume (s : State) : hub (quenchResume s) = hub s := by
  unfold quenchResume; split <;> simp
@[simp] theorem hub_quenchDrained (s : State) (pid : Nat) : hub (quenchDrained s pid) = hub s := by
  unfold quenchDrained; simp
@[simp] theorem hub_qnStart (s : State) (pid outcome : Nat) : hub (qnStart s pid outcome) = hub s := by
  unfold qnStart; lift_lets; intro t done
  have hd : ∀ r u, hub (done r u) = hub u := fun _ _ => rfl
  have ht : hub t = hub s := hub_setReg ..
  clear_value t done
  simp [hd, ht]
@[simp] theorem hub_quenchMsg (s : State) (c tag : Nat) (body : List Word) : hub (quenchMsg s c tag body) = hub s := by
  unfold quenchMsg; simp
@[simp] theorem hub_liftMsg (s : State) (c tag : Nat) (body : List Word) : hub (liftMsg s c tag body) = hub s := by
  unfold liftMsg; simp
@[simp] theorem hub_partStart (s : State) (c tag cls : Nat) (body : List Word) : hub (partStart s c tag cls body) = hub s := by
  unfold partStart; simp

/-! ### Sleep (Machine/Sleep.lean) -/

@[simp] theorem hub_sleepNotice (s : State) (grace : Nat) : hub (sleepNotice s grace) = hub s := by
  unfold sleepNotice; simp
@[simp] theorem hub_sleepBegin (s : State) (grace retain : Nat) : hub (sleepBegin s grace retain) = hub s := by
  unfold sleepBegin; simp [↓hub_mk]
@[simp] theorem hub_sleepMsg (s : State) (c tag : Nat) (body : List Word) : hub (sleepMsg s c tag body) = hub s := by
  unfold sleepMsg; simp
@[simp] theorem hub_sleepCmd (s : State) (grace : Nat) : hub (sleepCmd s grace) = hub s := by
  simp only [sleepCmd]; repeat' split
  all_goals simp [↓hub_mk]
@[simp] theorem hub_sleepCancel (s : State) : hub (sleepCancel s) = hub s := by
  unfold sleepCancel; simp [↓hub_mk]
@[simp] theorem hub_graceEnd (s : State) : hub (graceEnd s) = hub s := by
  unfold graceEnd; simp [↓hub_mk]
@[simp] theorem hub_sleepPhase (s : State) (n : Nat) : hub (sleepPhase s n) = hub s := by rfl
@[simp] theorem hub_sleepFlush (s : State) (pid : Nat) : hub (sleepFlush s pid) = hub s := by
  unfold sleepFlush; simp
@[simp] theorem hub_sleepQuiesced (s : State) : hub (sleepQuiesced s) = hub s := by
  unfold sleepQuiesced; simp
@[simp] theorem hub_pollWake (s : State) : hub (pollWake s) = hub s := by
  unfold pollWake; simp [↓hub_mk]
@[simp] theorem hub_wakeEdge (s : State) : hub (wakeEdge s) = hub s := by rfl
@[simp] theorem hub_sleepDigestArm (s : State) (w : Who) (word : Word) : hub (sleepDigestArm s w word) = hub s := by
  unfold sleepDigestArm; simp [↓hub_mk]

/-! ### Tamper, core faults and halts (Machine/Tamper.lean) -/

@[simp] theorem hub_rawSet (s : State) (src : Nat) (on : Bool) : hub (rawSet s src on) = hub s := by rfl
@[simp] theorem hub_alarmNoted (s : State) (src m : Nat) : hub (alarmNoted s src m) = hub s := by
  unfold alarmNoted; simp [↓hub_mk]
@[simp] theorem hub_alarmCounter (s : State) : hub (alarmCounter s) = hub s := by
  unfold alarmCounter; simp [↓hub_mk]
@[simp] theorem hub_prepsAgain (s : State) : hub (prepsAgain s) = hub s := by
  unfold prepsAgain; simp
@[simp] theorem hub_measureStale (s : State) : hub (measureStale s) = hub s := by
  unfold measureStale; simp
@[simp] theorem hub_resumeWork (s : State) (core : Nat) : hub (resumeWork s core) = hub s := by
  unfold resumeWork; simp
@[simp] theorem hub_heartbeat (s : State) (w : Who) : hub (heartbeat s w) = hub s := by rfl
@[simp] theorem hub_journalDamage (s : State) (off : Nat) : hub (journalDamage s off) = hub s := by
  simp only [journalDamage]; repeat' split
  all_goals simp [↓hub_mk]
/-- A debug challenge is drawn ahead or from the DRBG. -/
theorem hub_of_unlockChallenge {s t : State} {c : BitVec 256} (h : unlockChallenge s = some (t, c)) : hub t = hub s := by
  simp only [unlockChallenge] at h; split at h
  · cases h; rfl
  · obtain ⟨u, hu, e⟩ := Option.map_eq_some_iff.1 h
    cases e; simp [hub_of_drbgGrant hu]
@[simp] theorem hub_debugUnlock (s : State) (token : List Byte) : hub (debugUnlock s token) = hub s := by
  simp only [debugUnlock]; split
  · rfl
  · split
    · rfl
    · rename_i s1 c h
      have drawn : hub (match drbgGrant s1 false with
          | some t => drew { t with fuse := { t.fuse with challenge := some (BitVec.ofNat 256 (freeNow t).toNat) } }
          | none => s1) = hub s := by
        split
        · rename_i t ht
          exact (hub_of_drbgGrant ht).trans (hub_of_unlockChallenge h)
        · exact hub_of_unlockChallenge h
      split
      · exact drawn
      · split
        · rw [hub_record]; exact drawn
        · exact drawn
@[simp] theorem hub_ledgerRelease (s : State) : hub (ledgerRelease s) = hub s := by
  unfold ledgerRelease; split <;> simp [↓hub_mk]
@[simp] theorem hub_ledgerWrite (s : State) (w : Who) : hub (ledgerWrite s w) = hub s := by
  unfold ledgerWrite; simp

/-! ### Register writes (Machine/Regs.lean) -/

@[simp] theorem hub_raiseEvents (s : State) (l : Loc) (bits : Nat) : hub (raiseEvents s l bits) = hub s := by
  unfold raiseEvents; repeat' split
  all_goals simp
@[simp] theorem hub_headWrite (s : State) (l : Loc) (w : Word) : hub (headWrite s l w) = hub s := by
  unfold headWrite; repeat' split
  all_goals simp
@[simp] theorem hub_setStagedLo (s : State) (src : Src) (a : Nat) (v : Word) : hub (setStagedLo s src a v) = hub s := by rfl
@[simp] theorem hub_pairSet (s : State) (src : Src) (l : Loc) (a : Nat) (lo hi : Word) : hub (pairSet s src l a lo hi) = hub s := by
  unfold pairSet; split <;> simp [↓hub_mk]
@[simp] theorem hub_pairCommit (s : State) (src : Src) (a : Nat) (hi : Word) : hub (pairCommit s src a hi) = hub s := by
  unfold pairCommit; simp [↓hub_mk]
@[simp] theorem hub_partEntryWrite (s : State) (o : Nat) (w : Word) : hub (partEntryWrite s o w) = hub s := by
  unfold partEntryWrite; simp [↓hub_mk]
@[simp] theorem hub_fwSpecial (s : State) (w : Who) (p o : Nat) (v : Word) : hub (fwSpecial s w p o v) = hub s := by
  unfold fwSpecial; split <;> simp [↓hub_mk]
@[simp] theorem hub_rwlWrite (s : State) (p o : Nat) (v : Word) : hub (rwlWrite s p o v) = hub s := by
  unfold rwlWrite; split <;> simp [↓hub_mk]
@[simp] theorem hub_winSpecial (s : State) (pid p o a : Nat) (v : Word) : hub (winSpecial s pid p o a v) = hub s := by
  unfold winSpecial; repeat' split
  all_goals simp [↓hub_mk]

/-! ### Register reads (Machine/Reads.lean) -/

@[simp] theorem hub_readWord (s : State) (src : Src) (a : Nat) : hub (readWord s src a).2 = hub s := by
  simp only [readWord]; repeat' split
  all_goals simp [↓hub_mk]
@[simp] theorem hub_readWords (src : Src) (n a : Nat) (s : State) : hub (readWords src n a s).2 = hub s := by
  induction n generalizing a s with
  | zero => rfl
  | succ n ih => simp [readWords, ih]
@[simp] theorem hub_readPerform (s : State) (src : Src) (addr beats : Nat) : hub (readPerform s src addr beats) = hub s := by
  unfold readPerform; split <;> simp
@[simp] theorem hub_readRequest (s : State) (src : Src) (addr beats : Nat) : hub (readRequest s src addr beats) = hub s := by
  cases src with
  | hcp tag id =>
    refine hub_arrive _ _ _ _ fun t => ?_
    dsimp only; repeat' split
    all_goals simp
  | fab c => simp [readRequest]

/-! ### Events (Machine/Events.lean) -/

@[simp] theorem hub_flightDone (s : State) (a : Nat) : hub (flightDone s a) = hub s := by rfl
@[simp] theorem hub_keyPortDone (s : State) (a result : Nat) (reply : BitVec 56) (op : Nat) :
    hub (keyPortDone s a result reply op) = hub s := by
  unfold keyPortDone; simp
@[simp] theorem hub_keyReply (s : State) (a : Nat) (ok : Bool) (pay : BitVec 56) : hub (keyReply s a ok pay) = hub s := by
  unfold keyReply; simp
@[simp] theorem hub_niLeft (s : State) (f : Frame) : hub (niLeft s f) = hub s := by
  unfold niLeft; simp
@[simp] theorem hub_resend (s : State) (x : Flight) : hub (resend s x) = hub s := by
  unfold resend; simp [↓hub_mk]
@[simp] theorem hub_noReply (s : State) (x : Flight) : hub (noReply s x) = hub s := by
  simp only [noReply]; split <;> simp
@[simp] theorem hub_replyTimeout (s : State) (a : Nat) : hub (replyTimeout s a) = hub s := by
  unfold replyTimeout; split <;> simp [↓hub_mk]
@[simp] theorem hub_hipPump (s : State) : hub (hipPump s) = hub s := by
  simp only [hipPump]; repeat' split
  all_goals simp [↓hub_mk]
@[simp] theorem hub_hipAct (s : State) (r : HipReq) (code : Nat) (data : List Byte) : hub (hipAct s r code data) = hub s := by
  unfold hipAct; split <;> simp
@[simp] theorem hub_hipResponse (s : State) (id code : Nat) (data : List Byte) : hub (hipResponse s id code data) = hub s := by
  unfold hipResponse; split <;> simp [↓hub_mk]
@[simp] theorem hub_siteUp (s : State) (k : Nat) : hub (siteUp s k) = hub s := by rfl
@[simp] theorem hub_siteDrainLimit (s : State) (k : Nat) : hub (siteDrainLimit s k) = hub s := by
  unfold siteDrainLimit; split <;> simp [↓hub_mk]
@[simp] theorem hub_drainLimit (s : State) : hub (drainLimit s) = hub s := by
  unfold drainLimit; simp [↓hub_mk]

/-! ### Commands shared by rows (Machine/Rows.lean) -/

@[simp] theorem hub_hmkDropCmd (w : Who) (s : State) : hub (hmkDropCmd w s) = hub s := by
  simp [hmkDropCmd]
@[simp] theorem hub_pwrDomainCmd (w : Who) (d st : Nat) (s : State) : hub (pwrDomainCmd w d st s) = hub s := by
  simp [pwrDomainCmd]
/-- A key command of CPB_CMD queues frames. -/
theorem hub_of_cpbKeySend {s t : State} {w : Who} {a : Nat} (h : cpbKeySend s w a = some t) : hub t = hub s := by
  simp only [cpbKeySend] at h
  repeat' split at h
  all_goals cases h
  all_goals simp
@[simp] theorem hub_cpbCmd (s : State) (w : Who) (op : Nat) : hub (cpbCmd s w op) = hub s := by
  simp only [cpbCmd]; split
  · simp
  · split
    · simp
    · split
      · simp
      · split
        · split
          · simp [hub_of_cpbKeySend ‹_›]
          · simp
        · simp
@[simp] theorem hub_cpbCore (w : Who) (s : State) (k : State → State) (hk : ∀ t, hub (k t) = hub t) : hub (cpbCore w s k) = hub s :=
  hub_ownCore s w k hk
@[simp] theorem hub_cpbAbandon (s : State) (w : Who) : hub (cpbAbandon s w) = hub s := by
  unfold cpbAbandon; simp

/-! ### Register requests (Machine/Access.lean) -/

@[simp] theorem hub_slotSet (s : State) (src : Src) (slot a : Nat) (hi : Word) : hub (slotSet s src slot a hi) = hub s := by
  simp [slotSet]
@[simp] theorem hub_wordWrite (src : Src) (s : State) (aw : Nat × Word) : hub (wordWrite src s aw) = hub s := by
  simp only [wordWrite]; repeat' split
  all_goals simp

/-! ### Runs (Machine/Runs.lean) -/

@[simp] theorem hub_runFinal (s : State) (pid k : Nat) (o : AOp) (v : Nat) : hub (runFinal s pid k o v) = hub s := by
  unfold runFinal; simp
@[simp] theorem hub_handlerDone (s : State) (pid k : Nat) (o : AOp) (c : Ctx) : hub (handlerDone s pid k o c) = hub s := by
  simp only [handlerDone]; repeat' split
  all_goals simp
@[simp] theorem hub_progApply (s : State) (pid k : Nat) (o : AOp) (c : Ctx) (x0 : PRes) : hub (progApply s pid k o c x0) = hub s := by
  unfold progApply; split <;> simp
@[simp] theorem hub_progStep (s : State) (pid k op : Nat) (m : PMode) (f : AOp → Ctx → PIns → Nat → PRes) :
    hub (progStep s pid k op m f) = hub s := by
  have granted : ∀ t, drbgGrant s false = some t → hub t = hub s := fun _ => hub_of_drbgGrant
  simp only [progStep]; repeat' split
  all_goals simp_all
@[simp] theorem hub_handlerInvoke (s : State) (pid k : Nat) : hub (handlerInvoke s pid k) = hub s := by
  simp only [handlerInvoke]; repeat' split
  all_goals simp

end Sys2Proof.Machine
end

section
/-! PROOFS. The rule of R68 as a predicate `hubOk` on `hub`, and the operations that move the block state, HUB_RST_N or PD_STATUS and keep it. -/
namespace Sys2Proof.Machine

/-- `hubHeld` of the three values that it speaks of (R68). -/
def hubOk (v : BState × BitVec 40 × BitVec 40) : Prop :=
  (∀ d, d < 40 → v.2.1.getLsbD d = true → v.2.2.getLsbD d = true) ∧ (v.1 = .halted ∨ v.1 = .safe → v.2.1 = 0)
theorem hubHeld_iff (s : State) : hubHeld s ↔ hubOk (hub s) := by
  unfold hubHeld hubOk stopped; rw [Bool.or_eq_true, decide_eq_true_iff, decide_eq_true_iff]; rfl

@[simp] theorem hubOk_ite (c : Prop) {_ : Decidable c} (v w : BState × BitVec 40 × BitVec 40) :
    hubOk (if c then v else w) = if c then hubOk v else hubOk w := apply_ite ..
/-- With every HUB_RST_N bit at 0 the rule holds in every state. -/
@[simp] theorem hubOk_down (b : BState) (pd : BitVec 40) : hubOk (b, 0#40, pd) := by simp [hubOk]
/-- Leaving a block state for one that is neither HALTED nor SAFE keeps the rule. -/
theorem hubOk.moved {s : State} (h : hubOk (hub s)) {b : BState} (hh : b ≠ .halted) (hs : b ≠ .safe) :
    hubOk (b, s.pins.hubRstN, s.pins.pdStatus) := ⟨h.1, fun e => absurd e (by simp [hh, hs])⟩
/-- Fewer HUB_RST_N bits keep the rule, while no PD_STATUS bit that they need falls. -/
theorem hubOk.lower {b : BState} {r r' pd pd' : BitVec 40} (h : hubOk (b, r, pd))
    (hr : ∀ d, d < 40 → r'.getLsbD d = true → r.getLsbD d = true ∧ (pd.getLsbD d = true → pd'.getLsbD d = true)) : hubOk (b, r', pd') := by
  refine ⟨fun d hd e => (hr d hd e).2 (h.1 d hd (hr d hd e).1), fun e => ?_⟩
  have zero : r = 0 := h.2 e
  refine BitVec.eq_of_getLsbD_eq fun d hd => ?_
  have := hr d hd
  simp_all

theorem hubOk_foldl {α : Type} (f : State → α → State) (l : List α) {s : State} (h : hubOk (hub s))
    (hf : ∀ t x, hubOk (hub t) → hubOk (hub (f t x))) : hubOk (hub (l.foldl f s)) := by
  induction l generalizing s with
  | nil => exact h
  | cons x l ih => exact ih (hf s x h)

@[simp] theorem hubOk_hubDown (s : State) : hubOk (hub (hubDown s)) := by
  simp [hubDown, ↓hub_mk]
theorem hubOk_setBlock {s : State} (h : hubOk (hub s)) {b : BState} (hh : b ≠ .halted) (hs : b ≠ .safe) : hubOk (hub (setBlock s b)) := by
  unfold setBlock; split
  · exact h
  · simpa [↓hub_mk] using h.moved hh hs
@[simp] theorem hubOk_haltNow (s : State) (code : Nat) : hubOk (hub (haltNow s code)) := by
  simp [haltNow, ↓hub_mk]
@[simp] theorem hubOk_safeNow (s : State) (cause : Nat) (tamper : Bool) : hubOk (hub (safeNow s cause tamper)) := hubOk_hubDown _
@[simp] theorem hubOk_haltWith {s : State} (h : hubOk (hub s)) (code : Nat) : hubOk (hub (haltWith s code)) := by
  simp [haltWith, h]
@[simp] theorem hubOk_safeEntry {s : State} (h : hubOk (hub s)) (cause : Nat) (tamper : Bool) : hubOk (hub (safeEntry s cause tamper)) := by
  simp [safeEntry, h]
/-- The mask of domain `d` has no other bit. -/
theorem getLsbD_domain {d e : Nat} (h : (BitVec.ofNat 40 (2 ^ d)).getLsbD e = true) : d = e := by
  rw [BitVec.getLsbD_ofNat, Nat.testBit_two_pow] at h
  simp_all
@[simp] theorem hubOk_setHubRst {s : State} (h : hubOk (hub s)) (d : Nat) (up : Bool) : hubOk (hub (setHubRst s d up)) := by
  unfold setHubRst; split
  · exact h
  · rename_i hc
    rw [hub_mk]
    cases up with
    | false => exact h.lower fun e _ hb => ⟨by rw [if_neg nofun, BitVec.getLsbD_and] at hb; exact (Bool.and_eq_true_iff.1 hb).1, id⟩
    | true =>
      simp only [Bool.true_and, Bool.or_eq_true, Bool.not_eq_true', decide_eq_true_eq, not_or, Bool.not_eq_false] at hc
      obtain ⟨⟨power, running⟩, safe⟩ := hc
      refine ⟨fun e he hb => ?_, fun stop => absurd stop (by simp [running, safe])⟩
      rw [if_pos rfl, BitVec.getLsbD_or, Bool.or_eq_true] at hb
      rcases hb with hb | hb
      · exact h.1 e he hb
      · exact getLsbD_domain hb ▸ power
/-- A reset of the core island takes every HUB_RST_N bit to 0 (R67). -/
@[simp] theorem hubOk_coreReset (s : State) (wake : Bool) : hubOk (hub (coreReset s wake)) := by
  simp [coreReset, ↓hub_mk, Pins.kept, Pins.reset]

/-! ### The DRBG reseed and the Strongbox (Machine/Rng.lean) -/

@[simp] theorem hubOk_signFaultNote {s : State} (h : hubOk (hub s)) (op : Nat) : hubOk (hub (signFaultNote s op).2) := by
  simp only [signFaultNote]; repeat' split
  all_goals simp [↓hub_mk, h]
theorem hubOk_signJob {α : Type} {op : Nat} {once : State → Option (α × Bool) × State} (ho : ∀ t, hub (once t).2 = hub t) {s : State}
    (h : hubOk (hub s)) : hubOk (hub (signJob op once s).2) := by
  have signed : ∀ {t : State} {r : Option (α × Bool)} {u}, hubOk (hub t) → once t = (r, u) → hubOk (hub u) := fun {t _ _} ht e => by
    have := ho t; rw [e] at this; exact this ▸ ht
  have noted : ∀ {t : State} {b : Bool} {u}, hubOk (hub t) → signFaultNote t op = (b, u) → hubOk (hub u) := fun {t _ _} ht e => by
    have := hubOk_signFaultNote ht op; rw [e] at this; exact this
  unfold signJob; split
  · exact signed h ‹_›
  · exact signed h ‹_›
  · rename_i h1
    split
    · exact noted (signed h h1) ‹_›
    · rename_i h2
      have ok2 := noted (signed h h1) h2
      split
      · exact signed ok2 ‹_›
      · exact hubOk_signFaultNote (signed ok2 ‹_›) op
      · exact signed ok2 ‹_›
@[simp] theorem hubOk_ecSign {s : State} (h : hubOk (hub s)) (seed : List Byte) (e : Nat) : hubOk (hub (ecSign s seed e).2) :=
  hubOk_signJob (hub_ecSignOnce seed e) h
@[simp] theorem hubOk_mlSign {s : State} (h : hubOk (hub s)) (seed m : List Byte) : hubOk (hub (mlSign s seed m).2) :=
  hubOk_signJob (hub_mlSignOnce seed m) h

/-! ### Power and reset of the domains (Machine/Power.lean) -/

@[simp] theorem hubOk_domStep {s : State} (h : hubOk (hub s)) (q : DomSeq) : hubOk (hub (domStep s q)) := by
  unfold domStep; repeat' split
  all_goals simp [h]
@[simp] theorem hubOk_pollDoms {s : State} (h : hubOk (hub s)) : hubOk (hub (pollDoms s)) :=
  hubOk_foldl _ _ h fun _ q ht => hubOk_domStep ht q
@[simp] theorem hubOk_pdFall {s : State} (h : hubOk (hub s)) (d : Nat) : hubOk (hub (pdFall s d)) := by
  simp only [pdFall, hub_domLost, setHubRst, Bool.false_and, if_neg Bool.false_ne_true, hub_mk]
  refine h.lower fun e _ hb => ?_
  rw [BitVec.getLsbD_and, Bool.and_eq_true] at hb
  exact ⟨hb.1, fun power => by rw [BitVec.getLsbD_and, power, hb.2]; rfl⟩
@[simp] theorem hubOk_pdRise {s : State} (h : hubOk (hub s)) (d : Nat) : hubOk (hub (pdRise s d)) := by
  have risen : hubOk (s.block, s.pins.hubRstN, s.pins.pdStatus ||| BitVec.ofNat 40 (2 ^ d)) :=
    h.lower fun e _ hb => ⟨hb, fun power => by rw [BitVec.getLsbD_or, power]; rfl⟩
  simp only [pdRise]; split
  · rw [hub_domStart, hub_mk]; exact risen
  · rw [hub_mk]; exact risen

/-! ### The ANVIL engine (Machine/Anvil.lean) -/

@[simp] theorem hubOk_signFault {s : State} (h : hubOk (hub s)) (j : PJob) : hubOk (hub (signFault s j)) := by
  have noted := hubOk_signFaultNote h (dB j.desc 0)
  unfold signFault
  split <;> (rename_i e; rw [e] at noted; simpa [↓hub_mk] using noted)
@[simp] theorem hubOk_anvilEnd {s : State} (h : hubOk (hub s)) (j : PJob) : hubOk (hub (anvilEnd s j)) := by
  unfold anvilEnd; simp [↓hub_mk, h]
@[simp] theorem hubOk_anvilDone {s : State} (h : hubOk (hub s)) : hubOk (hub (anvilDone s)) := by
  simp only [anvilDone]; repeat' split
  all_goals simp [h]

/-! ### SPDM (Machine/Spdm.lean) -/

@[simp] theorem hubOk_partSign {s : State} (h : hubOk (hub s)) (pid e : Nat) : hubOk (hub (partSign s pid e).2) := by
  unfold partSign; split <;> simp [h]
theorem hubOk_of_partSign {s t : State} {pid e : Nat} {r : Option (Nat × Nat)} (h : hubOk (hub s)) (eq : partSign s pid e = (r, t)) :
    hubOk (hub t) := by
  have := hubOk_partSign h pid e
  rwa [eq] at this
@[simp] theorem hubOk_keyExchange {s : State} (h : hubOk (hub s)) (c reqId : Nat) (point : List Byte) (th : BitVec 384) :
    hubOk (hub (keyExchange s c reqId point th).1) := by
  unfold keyExchange
  split
  · exact h
  · split
    · exact h
    · split
      · rename_i granted _
        extract_lets pid rsp e s1 d s2 ctx s3 hs s4
        have kept : hub s4 = hub s := calc
          hub s4 = hub s3 := hub_foldl _ _ _ fun _ _ => hub_sessDerive ..
          _ = hub s2 := hub_sessDerive ..
          _ = hub s1 := hub_fillSlot ..
          _ = hub _ := (hub_fillSlot ..).trans (hub_drew ..)
          _ = hub s := hub_of_drbgGrant granted
        clear_value s4 e
        split <;> rename_i signed <;> replace signed := hubOk_of_partSign (by rw [hub_eraseSlots, kept]; exact h) signed
        · rw [hub_eraseSlots]; exact signed
        · rw [hub_setSession]; exact signed
      · exact h

/-! ### Hallmarks (Machine/Hallmark.lean) -/

@[simp] theorem hubOk_hallmarkSign {s : State} (h : hubOk (hub s)) (pid : Nat) (payload : List Byte) :
    hubOk (hub (hallmarkSign s pid payload).2) := by
  unfold hallmarkSign; split
  · rename_i ec ml _ _
    have signed := hubOk_ecSign h ec (beVal (sha384 (sigStructure 0 payload)))
    split <;> (rename_i e; rw [e] at signed)
    · exact signed
    · have second := hubOk_mlSign signed ml (sigStructure 1 payload)
      split <;> (rename_i e; rw [e] at second; exact second)
  · exact h
@[simp] theorem hubOk_prepEnd {s : State} (h : hubOk (hub s)) (k : Nat) (ok : Bool) : hubOk (hub (prepEnd s k ok)) := by
  unfold prepEnd; split
  · exact h
  · rename_i p _
    dsimp only; split
    · simp [h]
    · have signed := hubOk_hallmarkSign (s := setPreps s (s.att.preps.filter (fun x => x ≠ p))) (by simp [h]) p.pid p.payload
      split <;> (rename_i e; rw [e] at signed; simpa using signed)

/-! ### Reset (Machine/Reset.lean) -/

@[simp] theorem hubOk_porReset (s : State) : hubOk (hub (porReset s)) := by
  simp [porReset, ↓hub_mk]

/-! ### Boot (Machine/Boot.lean) -/

@[simp] theorem hubOk_bootLock {s : State} (h : hubOk (hub s)) : hubOk (hub (bootLock s)) := by
  unfold bootLock; split
  · exact h
  · dsimp only; split
    · refine hubOk_haltWith ?_ _
      rw [hub_ite]; simp [↓hub_mk, h]
    · rename_i t e
      have filled : hubOk (hub t) := by rw [hub_of_fixedSlots e, hub_ite]; simp [↓hub_mk, h]
      simp [↓hub_mk, filled]
@[simp] theorem hubOk_trySources {s : State} (h : hubOk (hub s)) (alt : Bool) (l : List Nat) : hubOk (hub (trySources alt l s)) := by
  induction l generalizing s alt with
  | nil => simp [trySources, h]
  | cons src rest ih =>
    simp only [trySources]; repeat' split
    all_goals simp [↓hub_mk, h, ih]
@[simp] theorem hubOk_sourceFail {s : State} (h : hubOk (hub s)) (src step reason detail : Nat) :
    hubOk (hub (sourceFail s src step reason detail)) := by
  unfold sourceFail; simp [↓hub_mk, h]
@[simp] theorem hubOk_bootSources {s : State} (h : hubOk (hub s)) : hubOk (hub (bootSources s)) := by
  unfold bootSources; repeat' split
  all_goals simp [↓hub_mk, h]
@[simp] theorem hubOk_imageAccepted {s : State} (h : hubOk (hub s)) (src : Nat) (m : Image) : hubOk (hub (imageAccepted s src m)) := by
  unfold imageAccepted; simp [↓hub_mk, h]
@[simp] theorem hubOk_bootFetch {s : State} (h : hubOk (hub s)) (src : Nat) (ok : Bool) (bytes : List Byte) :
    hubOk (hub (bootFetch s src ok bytes)) := by
  have checked := hub_headCheck s src (s.boot.push ++ bytes)
  unfold bootFetch; dsimp only; split
  · simp [h]
  · split
    · simp [↓hub_mk, h]
    · split <;> (rename_i e; rw [e] at checked; simp_all)
@[simp] theorem hubOk_bootBlockDone {s : State} (h : hubOk (hub s)) (src i : Nat) (ok : Bool) (bytes : List Byte) :
    hubOk (hub (bootBlockDone s src i ok bytes)) := by
  unfold bootBlockDone; split <;> simp [h]
@[simp] theorem hubOk_pushBlocks {s : State} (h : hubOk (hub s)) (m : Image) (src : Nat) (bs : List Byte) (n i : Nat) :
    hubOk (hub (pushBlocks m src bs n s i)) := by
  induction n generalizing s i with
  | zero => exact h
  | succ n ih =>
    simp only [pushBlocks]; repeat' split
    all_goals simp [h, ih]
@[simp] theorem hubOk_pushData {s : State} (h : hubOk (hub s)) (words : List Word) : hubOk (hub (pushData s words)) := by
  simp only [pushData]; split
  · split
    · exact h
    · split
      · simp [↓hub_mk, h]
      · split
        · simp [↓hub_mk, h]
        · split
          · simpa [↓hub_mk] using h
          · split <;> (rename_i e; have checked := congrArg (fun x => hub x.2) e; simp [↓hub_mk] at checked)
            · split <;> simp [↓hub_mk, ← checked, h]
            · simp [← checked, h]
  · simpa [↓hub_mk] using h
  · exact h
@[simp] theorem hubOk_jtagImage {s : State} (h : hubOk (hub s)) : hubOk (hub (jtagImage s)) := by
  unfold jtagImage; simp [↓hub_mk, h]
@[simp] theorem hubOk_pushEnd {s : State} (h : hubOk (hub s)) : hubOk (hub (pushEnd s)) := by
  unfold pushEnd; repeat' split
  all_goals simp [h]
@[simp] theorem hubOk_pushTimeout {s : State} (h : hubOk (hub s)) : hubOk (hub (pushTimeout s)) := by
  unfold pushTimeout; split <;> simp [↓hub_mk, h]
@[simp] theorem hubOk_fastRefused {s : State} (h : hubOk (hub s)) (reason : Nat) : hubOk (hub (fastRefused s reason)) := by
  unfold fastRefused; simp [↓hub_mk, h]
@[simp] theorem hubOk_wakeDecide {s : State} (h : hubOk (hub s)) : hubOk (hub (wakeDecide s)) := by
  unfold wakeDecide; split <;> simp [↓hub_mk, h]
@[simp] theorem hubOk_wakeCheck {s : State} (h : hubOk (hub s)) : hubOk (hub (wakeCheck s)) := by
  unfold wakeCheck; simp [↓hub_mk, h]
@[simp] theorem hubOk_bootS2 {s : State} (h : hubOk (hub s)) : hubOk (hub (bootS2 s)) := by
  unfold bootS2; simp [h]
@[simp] theorem hubOk_bootTamper {s : State} (h : hubOk (hub s)) : hubOk (hub (bootTamper s)) := by
  unfold bootTamper; simp [↓hub_mk, h]
@[simp] theorem hubOk_tamperRecorded {s : State} (h : hubOk (hub s)) : hubOk (hub (tamperRecorded s)) := by
  unfold tamperRecorded; simp [↓hub_mk, h]
@[simp] theorem hubOk_bootS1 {s : State} (h : hubOk (hub s)) (fail0 arrays : Nat) (coresBad : BitVec 4) (sfdp : Option (Bool × DWord)) :
    hubOk (hub (bootS1 s fail0 arrays coresBad sfdp)) := by
  unfold bootS1; simp [↓hub_mk, h]
@[simp] theorem hubOk_senseReady {s : State} (h : hubOk (hub s)) (disturbed fail arrays : Nat) (coresBad : BitVec 4)
    (sfdp : Option (Bool × DWord)) : hubOk (hub (senseReady s disturbed fail arrays coresBad sfdp)) := by
  have sensed := hub_senseArray s disturbed
  unfold senseReady; split
  · exact h
  · split <;> (rename_i s1 e; rw [e] at sensed)
    · have started : hubOk (hub s1) := sensed ▸ h
      have booted : ∀ t, hub t = hub s1 → hubOk (hub (setBlock t .boot)) := fun t ht => hubOk_setBlock (ht ▸ started) (by simp) (by simp)
      simp [↓hub_mk, booted]
    · simp_all
@[simp] theorem hubOk_bootS9 {s : State} (h : hubOk (hub s)) : hubOk (hub (bootS9 s)) := by
  unfold bootS9; simp [↓hub_mk, h]
@[simp] theorem hubOk_bootS8End {s : State} (h : hubOk (hub s)) : hubOk (hub (bootS8End s)) := by
  unfold bootS8End; simp [↓hub_mk, h]
@[simp] theorem hubOk_bootLayoutDone {s : State} (h : hubOk (hub s)) (ok : Bool) : hubOk (hub (bootLayoutDone s ok)) := by
  unfold bootLayoutDone; simp [↓hub_mk, h]
@[simp] theorem hubOk_bootLayout {s : State} (h : hubOk (hub s)) : hubOk (hub (bootLayout s)) := by
  have up : hubOk (hub ((namedDomains s).foldl (fun t d => setHubRst t d true) s)) := hubOk_foldl _ _ h fun t d ht => by simp [ht]
  simp only [bootLayout]; repeat' split
  all_goals simp [↓hub_mk, up]
@[simp] theorem hubOk_bootS8 {s : State} (h : hubOk (hub s)) : hubOk (hub (bootS8 s)) := by
  unfold bootS8; simp [↓hub_mk, h]
@[simp] theorem hubOk_coreRelease {s : State} (h : hubOk (hub s)) (w : Who) (data : Word) : hubOk (hub (coreRelease s w data)) := by
  unfold coreRelease; simp [↓hub_mk, h]
@[simp] theorem hubOk_censusReply {s : State} (h : hubOk (hub s)) (a op : Nat) (pay : BitVec 56) : hubOk (hub (censusReply s a op pay)) := by
  unfold censusReply; split <;> simp [h]
@[simp] theorem hubOk_bootS11 {s : State} (h : hubOk (hub s)) : hubOk (hub (bootS11 s)) := by
  have started : ∀ t : State, hub t = hub s → ∀ c : Bool, hubOk (hub (setBlock t (if c then .degraded else .run))) := fun t ht c =>
    hubOk_setBlock (ht ▸ h) (by cases c <;> simp) (by cases c <;> simp)
  simp [bootS11, ↓hub_mk, started]
@[simp] theorem hubOk_restoreDone {s : State} (h : hubOk (hub s)) (ok : Bool) : hubOk (hub (restoreDone s ok)) := by
  unfold restoreDone; split <;> simp [h]
@[simp] theorem hubOk_pollBoot {s : State} (h : hubOk (hub s)) : hubOk (hub (pollBoot s)) := by
  unfold pollBoot; repeat' split
  all_goals simp [h]

/-! ### The Pattern Book (Machine/Book.lean) -/

@[simp] theorem hubOk_quiescePid {s : State} (h : hubOk (hub s)) (p : Nat) : hubOk (hub (quiescePid s p)) := by
  simp only [quiescePid, hub_dropKeys, hub_ite, hub_setTdisp, ite_self, hub_setBook]
  exact hubOk_foldl _ _ (by simpa using h) fun t d ht => by simp [ht]
@[simp] theorem hubOk_bookAccept {s : State} (h : hubOk (hub s)) : hubOk (hub (bookAccept s)) := by
  simp only [bookAccept]; split
  · simp [h]
  · rw [hub_foldl _ _ _ hub_drainSites, hub_drainSources]
    exact hubOk_foldl _ _ (by simp [h]) fun t p ht => hubOk_quiescePid ht p
@[simp] theorem hubOk_pollBook {s : State} (h : hubOk (hub s)) : hubOk (hub (pollBook s)) := by
  unfold pollBook; split <;> simp [h]

/-! ### The commits of SC1 (Machine/Jobs.lean) -/

@[simp] theorem hubOk_jobDone {s : State} (h : hubOk (hub s)) (j : Job) (ok : Bool) : hubOk (hub (jobDone s j ok)) := by
  unfold jobDone; split <;> simp [h]
@[simp] theorem hubOk_commitEnded {s : State} (h : hubOk (hub s)) : hubOk (hub (commitEnded s)) := by
  unfold commitEnded; repeat' split
  all_goals simp [↓hub_mk, h]
@[simp] theorem hubOk_pollJobs {s : State} (h : hubOk (hub s)) : hubOk (hub (pollJobs s)) := by
  unfold pollJobs; repeat' split
  all_goals simp [↓hub_mk, h]

/-! ### Sleep (Machine/Sleep.lean) -/

@[simp] theorem hubOk_sleepSeal (s : State) : hubOk (hub (sleepSeal s)) := by
  unfold sleepSeal; simp [↓hub_mk]
@[simp] theorem hubOk_sleepReached {s : State} (h : hubOk (hub s)) : hubOk (hub (sleepReached s)) := by
  simp [sleepReached, ↓hub_mk, hubOk_setBlock h]
@[simp] theorem hubOk_pollSleep {s : State} (h : hubOk (hub s)) : hubOk (hub (pollSleep s)) := by
  unfold pollSleep; split <;> simp [h]
@[simp] theorem hubOk_islandOff (s : State) : hubOk (hub (islandOff s)) := by
  rw [islandOff, hub_mk]
  exact (hubOk_coreReset s true).moved nofun nofun
@[simp] theorem hubOk_islandOn (s : State) : hubOk (hub (islandOn s)) := by
  simp [islandOn, ↓hub_mk]
@[simp] theorem hubOk_pwrFinished {s : State} (h : hubOk (hub s)) (r : PwrReq) : hubOk (hub (pwrFinished s r)) := by
  unfold pwrFinished; simp [↓hub_mk, h]
@[simp] theorem hubOk_pwrAck {s : State} (h : hubOk (hub s)) (level : Bool) : hubOk (hub (pwrAck s level)) := by
  unfold pwrAck; split <;> simp [↓hub_mk, h]
@[simp] theorem hubOk_pwrSilent {s : State} (h : hubOk (hub s)) : hubOk (hub (pwrSilent s)) := by
  unfold pwrSilent; simp [↓hub_mk, h]
@[simp] theorem hubOk_wakeDigestCompare {s : State} (h : hubOk (hub s)) (w : Who) (word : Word) :
    hubOk (hub (wakeDigestCompare s w word)) := by
  unfold wakeDigestCompare; simp [↓hub_mk, h]

/-! ### Tamper, core faults and halts (Machine/Tamper.lean) -/

@[simp] theorem hubOk_alarmConfirmed {s : State} (h : hubOk (hub s)) (src : Nat) : hubOk (hub (alarmConfirmed s src)) := by
  simp only [alarmConfirmed]; repeat' split
  all_goals simp [↓hub_mk, h]
@[simp] theorem hubOk_escalateSafe {s : State} (h : hubOk (hub s)) (cause : Nat) : hubOk (hub (escalateSafe s cause)) := by
  unfold escalateSafe; simp [h]
@[simp] theorem hubOk_enterDegraded {s : State} (h : hubOk (hub s)) : hubOk (hub (enterDegraded s)) := by
  simp [enterDegraded, h, hubOk_setBlock h]
@[simp] theorem hubOk_takeover {s : State} (h : hubOk (hub s)) (core : Nat) : hubOk (hub (takeover s core)) := by
  unfold takeover; simp [↓hub_mk, h]
@[simp] theorem hubOk_coreFault {s : State} (h : hubOk (hub s)) (core cause : Nat) : hubOk (hub (coreFault s core cause)) := by
  unfold coreFault; repeat' split
  all_goals simp [↓hub_mk, h]
@[simp] theorem hubOk_sramError {s : State} (h : hubOk (hub s)) (mem : Nat) (unc : Bool) (pid off : Nat) :
    hubOk (hub (sramError s mem unc pid off)) := by
  simp only [sramError]; repeat' split
  all_goals simp [↓hub_mk, h]
@[simp] theorem hubOk_arrayBist {s : State} (h : hubOk (hub s)) (array : Nat) (pass : Bool) : hubOk (hub (arrayBist s array pass)) := by
  unfold arrayBist; simp [↓hub_mk, h]

/-! ### The sequencers move on (Machine/Settle.lean) -/

/-- A sequencer's step that keeps the rule may be taken or not. -/
theorem hubOk_polls (fs : List (State → State)) {s : State} (h : hubOk (hub s))
    (hf : ∀ f ∈ fs, ∀ t, hubOk (hub t) → hubOk (hub (f t))) : hubOk (hub (fs.foldl (fun t f => if live t then f t else t) s)) := by
  induction fs generalizing s with
  | nil => exact h
  | cons f fs ih =>
    refine ih ?_ fun g hg => hf g (by simp [hg])
    show hubOk (hub (if live s then f s else s))
    split
    · exact hf f (by simp) s h
    · exact h
@[simp] theorem hubOk_pollAll {s : State} (h : hubOk (hub s)) : hubOk (hub (pollAll s)) := by
  rw [pollAll, hub_pwrPoll]
  refine hubOk_polls _ h fun f hf t ht => ?_
  simp only [List.mem_cons, List.not_mem_nil, or_false] at hf
  rcases hf with rfl | rfl | rfl | rfl | rfl | rfl | rfl | rfl | rfl | rfl | rfl | rfl | rfl <;> simp [ht]
@[simp] theorem hubOk_settleLive {s : State} (h : hubOk (hub s)) (n : Nat) : hubOk (hub (settleLive n s)) := by
  induction n generalizing s with
  | zero => exact h
  | succ n ih => simp [settleLive, h, ih]
@[simp] theorem hubOk_settle {s : State} (h : hubOk (hub s)) : hubOk (hub (settle s)) := by
  unfold settle; split <;> simp [h]

/-! ### Events (Machine/Events.lean) -/

@[simp] theorem hubOk_replyAct {s : State} (h : hubOk (hub s)) (f : Frame) (op : Nat) (pay : BitVec 56) :
    hubOk (hub (replyAct s f op pay)) := by
  unfold replyAct; split <;> simp [h]
@[simp] theorem hubOk_cpbReply {s : State} (h : hubOk (hub s)) (fr : BitVec 128) : hubOk (hub (cpbReply s fr)) := by
  simp only [cpbReply]; repeat' split
  all_goals simp [h]
@[simp] theorem hubOk_flashDone {s : State} (h : hubOk (hub s)) (ok : Bool) (bytes : List Byte) : hubOk (hub (flashDone s ok bytes)) := by
  unfold flashDone; repeat' split
  all_goals simp [↓hub_mk, h]
@[simp] theorem hubOk_domainSilent {s : State} (h : hubOk (hub s)) (d : Nat) : hubOk (hub (domainSilent s d)) := by
  unfold domainSilent; simp [h]

/-! ### Commands shared by rows (Machine/Rows.lean) -/

@[simp] theorem hubOk_fuseEnded {s : State} (h : hubOk (hub s)) (failed : BitVec 72) : hubOk (hub (fuseEnded s failed)) := by
  unfold fuseEnded; split <;> simp [h]
theorem hubOk_byCore {s : State} (h : hubOk (hub s)) (w : Who) {k : State → State} (hk : ∀ t, hubOk (hub t) → hubOk (hub (k t))) :
    hubOk (hub (byCore s w k)) := by
  unfold byCore; split
  · exact hk _ (by simp [h])
  · exact h
@[simp] theorem hubOk_hmkReleaseCmd {s : State} (h : hubOk (hub s)) (w : Who) : hubOk (hub (hmkReleaseCmd w s)) := by
  refine hubOk_byCore h w fun t ht => ?_
  dsimp only; repeat' split
  all_goals simp [ht]
@[simp] theorem hubOk_epochCmd {s : State} (h : hubOk (hub s)) (w : Who) (k : State → State) (hk : ∀ t, hub (k t) = hub t) :
    hubOk (hub (epochCmd w s k)) := by
  simp [epochCmd, h, hk]

end Sys2Proof.Machine
end

section
/-! PROOFS. Every command keeps the rule of R68: the commands that are rows of the register map, the requests that write them, and the step. -/
namespace Sys2Proof.Machine

/-- A command keeps the rule of R68. -/
def RowHeld (f : Row) : Prop := ∀ s t, hubOk (hub s) → f s = .next t → hubOk (hub t)
theorem rowHeld_next {g : State → State} (hg : ∀ s, hubOk (hub s) → hubOk (hub (g s))) : RowHeld (fun s => .next (g s)) := by
  intro s t h e
  cases e
  exact hg s h
theorem rowHeld_frame {g : State → State} (hg : ∀ s, hub (g s) = hub s) : RowHeld (fun s => .next (g s)) :=
  rowHeld_next fun s h => by rwa [hg]
/-- A command that is a fault on an operand which names nothing (log entry 18). -/
theorem rowHeld_fault {c : Prop} [Decidable c] {x : Fault} {g : State → State} (hg : ∀ s, hubOk (hub s) → hubOk (hub (g s))) :
    RowHeld (fun s => if c then .fault x else .next (g s)) := by
  intro s t h e
  dsimp only at e; split at e
  · cases e
  · cases e; exact hg s h
/-- A command of a domain is a fault for a domain that KX3 has not (log entry 18). -/
theorem rowHeld_domainRow (d : BitVec 6) {k : State → Nat → State} (hk : ∀ s n, hubOk (hub s) → hubOk (hub (k s n))) :
    RowHeld (fun s => domainRow d s k) := by
  intro s t h e
  unfold domainRow at e; split at e
  · cases e; simp [hk, h]
  · cases e
theorem hubOk_withRequest {s : State} (h : hubOk (hub s)) (ch : Chan) (tag : BitVec 6) (code : Nat) {k : State → Nat → List Word → State}
    (hk : ∀ t cls body, hubOk (hub t) → hubOk (hub (k t cls body))) : hubOk (hub (withRequest s ch tag code k)) := by
  unfold withRequest; split
  · exact h
  · exact hk _ _ _ (by simp [h])
theorem hubOk_spdmRow {s : State} (h : hubOk (hub s)) (ch : Chan) (tag : BitVec 6) (car : Carriage) (need : Bool)
    {k : State → State × SpdmRsp} (hk : ∀ t, hubOk (hub t) → hubOk (hub (k t).1)) : hubOk (hub (spdmRow s ch tag car need k)) := by
  refine hubOk_withRequest h ch tag _ fun t cls body ht => ?_
  dsimp only; repeat' split
  all_goals simp [hk, ht]

/-! ### The commands that a register write can bring -/

@[simp] theorem execTopHaltWrite_held (w : Who) (code : Byte) : RowHeld (execTopHaltWrite w code) :=
  rowHeld_next fun s h => hubOk_byCore h _ fun t ht => by
    dsimp only; split <;> simp [ht]
@[simp] theorem execTopVtClr_held (w : Who) : RowHeld (execTopVtClr w) := rowHeld_next fun s h => by simp [↓hub_mk, h]
@[simp] theorem execCoreRelease_held (w : Who) (data : Word) : RowHeld (execCoreRelease w data) :=
  rowHeld_next fun _ h => hubOk_settle (hubOk_byCore h _ fun _ ht => hubOk_coreRelease ht w data)
@[simp] theorem execReadRaw_held (w : Who) : RowHeld (execReadRaw w) := rowHeld_next fun s h => by simp [h]
@[simp] theorem execReadDecoded_held (w : Who) : RowHeld (execReadDecoded w) := rowHeld_next fun s h => by simp [h]
@[simp] theorem execProgramRow_held (w : Who) (window : BitVec 2) : RowHeld (execProgramRow w window) :=
  rowHeld_next fun s h => by simp [h]
@[simp] theorem execProgramGroup_held (w : Who) (window : BitVec 2) (group : Byte) : RowHeld (execProgramGroup w window group) :=
  rowHeld_next fun s h => by simp [↓hub_mk, h]
@[simp] theorem execProgramSecret_held (w : Who) (window : BitVec 2) : RowHeld (execProgramSecret w window) :=
  rowHeld_next fun s h => by simp [h]
@[simp] theorem execProgramRaw_held (w : Who) (window : BitVec 2) (check : Byte) : RowHeld (execProgramRaw w window check) :=
  rowHeld_next fun s h => by simp [↓hub_mk, h]
@[simp] theorem execSleepDigestArm_held (w : Who) (word : Word) : RowHeld (execSleepDigestArm w word) :=
  rowHeld_next fun s h => by simp [h]
@[simp] theorem execWakeDigestCompare_held (w : Who) (word : Word) : RowHeld (execWakeDigestCompare w word) :=
  rowHeld_next fun _ h => hubOk_settle (hubOk_byCore h _ fun _ ht => hubOk_wakeDigestCompare ht w word)
@[simp] theorem execInstall_held (w : Who) : RowHeld (execInstall w) := rowHeld_next fun s h => by simp [h]
@[simp] theorem execErase_held (w : Who) : RowHeld (execErase w) := rowHeld_next fun s h => by simp [h]
@[simp] theorem execDerive_held (w : Who) : RowHeld (execDerive w) := rowHeld_next fun s h => by simp [h]
@[simp] theorem execErasePid_held (w : Who) : RowHeld (execErasePid w) := rowHeld_frame fun _ => hub_sboxCmd _ _ _ _ _ fun _ _ => by
  dsimp only; split <;> simp
@[simp] theorem execEraseStale_held (w : Who) : RowHeld (execEraseStale w) := rowHeld_frame fun _ => hub_sboxCmd _ _ _ _ _ fun _ _ => by
  dsimp only; split <;> simp
@[simp] theorem execRootCmd_held (w : Who) : RowHeld (execRootCmd w) := rowHeld_frame fun _ => hub_sboxCmd _ _ _ _ _ fun _ _ => by
  split <;> simp
@[simp] theorem execSboxLockSet_held (w : Who) (data : Word) : RowHeld (execSboxLockSet w data) :=
  rowHeld_next fun s h => by simp [↓hub_mk, h]
@[simp] theorem execPkeSlotLenWrite_held (w : Who) (data : Word) : RowHeld (execPkeSlotLenWrite w data) :=
  rowHeld_next fun s h => by simp [h]
@[simp] theorem execPkeJob_held (w : Who) (offset : Word) : RowHeld (execPkeJob w offset) := rowHeld_next fun s h => by simp [h]
@[simp] theorem execSymJob_held (w : Who) (offset : Word) : RowHeld (execSymJob w offset) := rowHeld_next fun s h => by simp [h]
@[simp] theorem execHmkTake_held (w : Who) (pid : Byte) : RowHeld (execHmkTake w pid) := rowHeld_next fun s h => by simp [↓hub_mk, h]
@[simp] theorem execHmkSeal_held (w : Who) : RowHeld (execHmkSeal w) := rowHeld_next fun s h => by simp [h]
@[simp] theorem execHmkRelease_held (w : Who) : RowHeld (execHmkRelease w) := rowHeld_next fun s h => by simp [h]
@[simp] theorem execHmkDrop_held (w : Who) : RowHeld (execHmkDrop w) := rowHeld_next fun s h => by simp [h]
@[simp] theorem execSetState_held (w : Who) (pid : Byte) (newState : BitVec 3) : RowHeld (execSetState w pid newState) :=
  rowHeld_next fun s h => by simp [h]
@[simp] theorem execGenStep_held (w : Who) (pid : Byte) : RowHeld (execGenStep w pid) := rowHeld_next fun s h => by simp [h]
@[simp] theorem execEpochPrepare_held (w : Who) : RowHeld (execEpochPrepare w) := rowHeld_next fun s h => by simp [h]
@[simp] theorem execEpochCommit_held (w : Who) : RowHeld (execEpochCommit w) := rowHeld_next fun s h => by simp [h]
@[simp] theorem execEpochRun_held (w : Who) : RowHeld (execEpochRun w) := rowHeld_next fun s h => by simp [h]
@[simp] theorem execEpochRollback_held (w : Who) : RowHeld (execEpochRollback w) := rowHeld_next fun s h => by simp [h]
@[simp] theorem execReprepare_held (w : Who) : RowHeld (execReprepare w) := rowHeld_next fun s h => by simp [h]
@[simp] theorem execQnStart_held (w : Who) (pid : Byte) (outcome : BitVec 2) : RowHeld (execQnStart w pid outcome) :=
  rowHeld_next fun s h => by simp [h]
@[simp] theorem execQosOperRateWrite_held (w : Who) (rate : BitVec 16) : RowHeld (execQosOperRateWrite w rate) :=
  rowHeld_next fun s h => by simp [h]
@[simp] theorem execTlWait_held (src : Src) : RowHeld (execTlWait src) := rowHeld_frame fun _ => hub_tlAccess _ _ _ fun _ => by
  dsimp only; split <;> simp
@[simp] theorem execTlCancel_held (src : Src) : RowHeld (execTlCancel src) := rowHeld_frame fun _ => hub_tlAccess _ _ _ fun _ => by
  dsimp only; split <;> simp
@[simp] theorem execTlRead_held (src : Src) : RowHeld (execTlRead src) := rowHeld_frame fun _ => hub_tlAccess _ _ _ fun _ => by
  dsimp only; split <;> simp [↓hub_mk]
@[simp] theorem execTlSetAcl_held (src : Src) : RowHeld (execTlSetAcl src) := rowHeld_frame fun _ => hub_tlAccess _ _ _ fun _ => by
  dsimp only; repeat' split
  all_goals simp
@[simp] theorem execTlClear_held (w : Who) : RowHeld (execTlClear w) := rowHeld_next fun s h => by simp [h]
@[simp] theorem execMbfVersionWrite_held (w : Who) (v : Word) : RowHeld (execMbfVersionWrite w v) := rowHeld_next fun s h => by simp [h]
@[simp] theorem execMbfFlush_held (w : Who) : RowHeld (execMbfFlush w) := rowHeld_next fun s h => by simp [h]
@[simp] theorem execMbfResetDone_held (w : Who) : RowHeld (execMbfResetDone w) := rowHeld_next fun s h => by simp [h]
@[simp] theorem execMbfTake_held (w : Who) : RowHeld (execMbfTake w) := rowHeld_next fun s h => by simp [h]
@[simp] theorem execAsfQuotaWrite_held (w : Who) (value : Word) : RowHeld (execAsfQuotaWrite w value) :=
  rowHeld_next fun s h => by simp [h]
@[simp] theorem execHeartbeatWrite_held (w : Who) : RowHeld (execHeartbeatWrite w) := rowHeld_next fun s h => by simp [h]
@[simp] theorem execLgfWrite_held (w : Who) : RowHeld (execLgfWrite w) := rowHeld_next fun s h => by simp [h]
@[simp] theorem execPwrDomain_held (w : Who) (d : BitVec 6) (st : BitVec 2) : RowHeld (execPwrDomain w d st) :=
  rowHeld_next fun s h => by simp [h]
@[simp] theorem execPwrSleep_held (w : Who) (grace : BitVec 14) : RowHeld (execPwrSleep w grace) := rowHeld_next fun s h => by simp [h]
@[simp] theorem execCpbAbandon_held (w : Who) : RowHeld (execCpbAbandon w) := rowHeld_next fun s h => by simp [h]
@[simp] theorem execCpbCmdFrame_held (w : Who) (op : BitVec 6) : RowHeld (execCpbCmdFrame w op) := rowHeld_next fun s h => by simp [h]
@[simp] theorem execMeasJob_held (w : Who) (lane : BitVec 4) (offset : Word) : RowHeld (execMeasJob w lane offset) :=
  rowHeld_next fun s h => by simp [h]
@[simp] theorem execCvuStart_held (w : Who) (u : BitVec 3) : RowHeld (execCvuStart w u) := rowHeld_next fun s h => by simp [h]
@[simp] theorem execCvuFinish_held (w : Who) (u : BitVec 3) : RowHeld (execCvuFinish w u) := rowHeld_next fun s h => by simp [h]
@[simp] theorem execCvuMemrun_held (w : Who) (u : BitVec 3) : RowHeld (execCvuMemrun w u) := rowHeld_next fun s h => by simp [h]
@[simp] theorem execCvuData_held (w : Who) (u : BitVec 3) (data : Word) : RowHeld (execCvuData w u data) :=
  rowHeld_next fun s h => by simp [h]
@[simp] theorem execCvuData8_held (w : Who) (u : BitVec 3) (data : Byte) : RowHeld (execCvuData8 w u data) :=
  rowHeld_next fun s h => by simp [h]
@[simp] theorem execXlSend_held (src : Src) : RowHeld (execXlSend src) := rowHeld_next fun s h => by simp [h]
@[simp] theorem execFqRegister_held (src : Src) : RowHeld (execFqRegister src) := rowHeld_next fun s h => by simp [h]
@[simp] theorem execFqRelease_held (src : Src) : RowHeld (execFqRelease src) := rowHeld_next fun s h => by simp [h]
@[simp] theorem execIrqApply_held (src : Src) : RowHeld (execIrqApply src) := rowHeld_next fun s h => by simp [h]
@[simp] theorem execIrqDiscard_held (src : Src) : RowHeld (execIrqDiscard src) := rowHeld_next fun s h => by simp [h]
@[simp] theorem execAsySubmit_held (src : Src) : RowHeld (execAsySubmit src) := rowHeld_next fun s h => by simp [h]
@[simp] theorem execAsyClose_held (src : Src) : RowHeld (execAsyClose src) := rowHeld_next fun s h => by simp [h]
@[simp] theorem execAsyCancel_held (src : Src) : RowHeld (execAsyCancel src) := rowHeld_next fun s h => by simp [h]
@[simp] theorem execLogRegister_held (src : Src) : RowHeld (execLogRegister src) := rowHeld_next fun s h => by simp [h]
@[simp] theorem execLogRelease_held (src : Src) : RowHeld (execLogRelease src) := rowHeld_next fun s h => by simp [h]
@[simp] theorem execAsyRun_held (src : Src) : RowHeld (execAsyRun src) := rowHeld_next fun s h => by simp [h]
@[simp] theorem execPrgOpen_held (src : Src) : RowHeld (execPrgOpen src) := rowHeld_next fun s h => by simp [h]
@[simp] theorem execPrgLoad_held (src : Src) : RowHeld (execPrgLoad src) := rowHeld_next fun s h => by simp [h]
@[simp] theorem execPrgUnload_held (src : Src) : RowHeld (execPrgUnload src) := rowHeld_next fun s h => by simp [h]
@[simp] theorem execPrgInfo_held (src : Src) : RowHeld (execPrgInfo src) := rowHeld_next fun s h => by simp [h]
@[simp] theorem execLgRelease_held (src : Src) : RowHeld (execLgRelease src) := rowHeld_next fun s h => by simp [h]
@[simp] theorem execBookOpen_held (src : Src) : RowHeld (execBookOpen src) := rowHeld_next fun s h => by simp [h]
@[simp] theorem execBookSubmit_held (src : Src) : RowHeld (execBookSubmit src) := rowHeld_next fun s h => by simp [h]
@[simp] theorem execBookAbort_held (src : Src) : RowHeld (execBookAbort src) := rowHeld_next fun s h => by simp [h]
@[simp] theorem execBookRestore_held (src : Src) : RowHeld (execBookRestore src) := rowHeld_next fun s h => by simp [h]
@[simp] theorem execBookReadback_held (src : Src) : RowHeld (execBookReadback src) := rowHeld_next fun s h => by simp [h]
@[simp] theorem execTallySignal_held (src : Src) (slot : BitVec 14) : RowHeld (execTallySignal src slot) :=
  rowHeld_next fun s h => by simp [h]
@[simp] theorem execTallyAdd_held (src : Src) (slot : BitVec 14) (addend : Word) : RowHeld (execTallyAdd src slot addend) :=
  rowHeld_next fun s h => by simp [h]
@[simp] theorem execMbTxWrite_held (src : Src) (ch : Chan) (beats : List (DWord × Byte)) : RowHeld (execMbTxWrite src ch beats) :=
  rowHeld_next fun s h => by simp [h]
@[simp] theorem execBookWindowWrite_held (src : Src) (bytes : List Byte) : RowHeld (execBookWindowWrite src bytes) :=
  rowHeld_next fun s h => by simp [h]
@[simp] theorem execPrgWindowWrite_held (src : Src) (bytes : List Byte) : RowHeld (execPrgWindowWrite src bytes) :=
  rowHeld_next fun s h => by split <;> simp [h]
@[simp] theorem execXlFaultIn_held (src : Src) (bytes : List Byte) : RowHeld (execXlFaultIn src bytes) :=
  rowHeld_next fun s h => by split <;> simp [h]
@[simp] theorem execMbfRxAppend_held (w : Who) (words : List Word) : RowHeld (execMbfRxAppend w words) :=
  rowHeld_next fun s h => by simp [h]

/-! ### The rows of the register map -/

/-- Whatever command a register write brings, it keeps the rule. -/
def RowsHeld (o : Option Row) : Prop := ∀ f, o = some f → RowHeld f
@[simp] theorem rowsHeld_none : RowsHeld none := nofun
@[simp] theorem rowsHeld_some (f : Row) : RowsHeld (some f) ↔ RowHeld f := ⟨fun h => h f rfl, fun h _ e => Option.some.inj e ▸ h⟩
@[simp] theorem rowsHeld_ite (c : Prop) {_ : Decidable c} (a b : Option Row) : RowsHeld (if c then a else b) = if c then RowsHeld a else RowsHeld b :=
  apply_ite ..
@[simp] theorem rowsHeld_byOp (op : Nat) (rows : List (Nat × Row)) (h : ∀ r ∈ rows, RowHeld r.2) : RowsHeld (byOp op rows) := by
  intro f e
  obtain ⟨r, hr, rfl⟩ := Option.map_eq_some_iff.1 e
  exact h r (List.mem_of_find?_eq_some hr)
theorem rowsHeld_foldl {g : Option Row → Nat × Row → Option Row} (hg : ∀ a r, RowsHeld a → RowHeld r.2 → RowsHeld (g a r))
    (rows : List (Nat × Row)) {a : Option Row} (ha : RowsHeld a) (h : ∀ r ∈ rows, RowHeld r.2) : RowsHeld (rows.foldl g a) := by
  induction rows generalizing a with
  | nil => exact ha
  | cons r rows ih => exact ih (hg a r ha (h r (by simp))) fun q hq => h q (by simp [hq])
theorem rowsThen_held {f g : Row} (hf : RowHeld f) (hg : RowHeld g) : RowHeld (rowsThen f g) := by
  intro s t h e
  unfold rowsThen at e; split at e
  · exact hg _ _ (hf _ _ h ‹_›) e
  · exact hf _ _ h e

/-- A command whose operand is a register's value at its run. -/
theorem rowHeld_of_state {f : State → Row} (hf : ∀ t, RowHeld (f t)) : RowHeld fun s => f s s :=
  fun s => hf s s
theorem fwRow_held (w : Who) (p o : Nat) (v : Word) : RowsHeld (fwRow w p o v) := by
  unfold fwRow; split
  case h_4 =>
    simp [rowHeld_of_state fun t => execProgramRow_held w (BitVec.ofNat 2 t.fuse.window),
      rowHeld_of_state fun t => execProgramGroup_held w (BitVec.ofNat 2 t.fuse.window) (BitVec.ofNat 8 (fld v 15 8)),
      rowHeld_of_state fun t => execProgramSecret_held w (BitVec.ofNat 2 t.fuse.window),
      rowHeld_of_state fun t => execProgramRaw_held w (BitVec.ofNat 2 t.fuse.window) (BitVec.ofNat 8 (fld v 23 16))]
  all_goals simp
theorem cvuRow_held (w : Who) (o : Nat) (v : Word) : RowsHeld (cvuRow w o v) := by
  unfold cvuRow; dsimp only; split
  · simp
  · simp
  · refine rowsHeld_foldl (fun a r ha hr => ?_) _ rowsHeld_none fun r hr => ?_
    · cases a with
      | none => simpa using hr
      | some f => simpa using rowsThen_held (ha f rfl) hr
    · have listed := (List.mem_filter.1 hr).1
      simp only [List.mem_cons, List.not_mem_nil, or_false] at listed
      rcases listed with rfl | rfl | rfl <;> simp
  · simp
theorem winRow_held (src : Src) (p o : Nat) (v : Word) : RowsHeld (winRow src p o v) := by
  unfold winRow; split <;> simp
theorem operRow_held (src : Src) (p o : Nat) (v : Word) : RowsHeld (operRow src p o v) := by
  unfold operRow; split <;> simp
theorem slotRow_held (src : Src) (k o : Nat) (v : Word) : RowsHeld (slotRow src k o v) := by
  unfold slotRow; split <;> simp
theorem rowAt_held (src : Src) (a : Nat) (v : Word) : RowsHeld (rowAt src a v) := by
  have slot : ∀ t, RowHeld (fun s => .next (slotSet s src t a v)) := fun t => rowHeld_next fun s h => by simp [h]
  unfold rowAt; split
  · split
    · exact cvuRow_held _ _ _
    · simp
  · exact fwRow_held _ _ _ _
  · exact winRow_held _ _ _ _
  · exact operRow_held _ _ _ _
  · split
    · simpa using slot _
    · exact slotRow_held _ _ _ _
  · split
    · simpa using slot _
    · exact slotRow_held _ _ _ _
  · simp
theorem windowRow_held (src : Src) (k : WKind) (beats : List (DWord × Byte)) : RowHeld (windowRow src k beats) := by
  cases k with
  | rxf =>
    cases src with
    | fab w => exact execMbfRxAppend_held _ _
    | hcp tag id => exact rowHeld_next fun s h => h
  | _ => simp [windowRow]

theorem hubOk_runRow {f : Row} (hf : RowHeld f) {s : State} (h : hubOk (hub s)) : hubOk (hub (runRow f s).2) := by
  unfold runRow; split
  · rename_i t e
    have ran : hubOk (hub t) := hf _ _ (by simpa [↓hub_mk] using h) e
    split <;> simpa [↓hub_mk] using ran
  · exact h
theorem hubOk_partWrite {s : State} (h : hubOk (hub s)) (src : Src) (p : WPart) : hubOk (hub (partWrite src s p).2) := by
  cases p with
  | word a v =>
    have written : hubOk (hub (wordWrite src s (a, v))) := by simp [h]
    unfold partWrite; dsimp only; split
    · exact hubOk_runRow (rowAt_held src a v _ ‹_›) written
    · exact written
  | window k a beats => exact hubOk_runRow (windowRow_held src k beats) h
theorem hubOk_partsWrite {s t : State} (h : hubOk (hub s)) (src : Src) (ps : List WPart) (e : partsWrite src ps s = .ok t) : hubOk (hub t) := by
  induction ps generalizing s with
  | nil => cases e; exact h
  | cons p ps ih =>
    simp only [partsWrite] at e; split at e
    · exact ih (hubOk_partWrite h src p) e
    · cases e
/-- A request is performed whole, or refused with nothing performed (R79). -/
@[simp] theorem hubOk_requestPerform {s : State} (h : hubOk (hub s)) (src : Src) (addr : Nat) (beats : List (DWord × Byte)) :
    hubOk (hub (requestPerform s src addr beats)) := by
  unfold requestPerform; split
  · rw [hub_respond]; exact hubOk_partsWrite h src _ ‹_›
  · simp [h]
theorem hubOk_arrive {s : State} (h : hubOk (hub s)) (src : Src) {k : State → State} (hk : ∀ t, hubOk (hub t) → hubOk (hub (k t))) (beats : Nat) :
    hubOk (hub (arrive s src k beats)) := by
  rcases arrive_cases s src k beats with e | ⟨-, e⟩ | e <;> simp [e, h, hk]
@[simp] theorem hubOk_requestWrite {s : State} (h : hubOk (hub s)) (src : Src) (addr : Nat) (beats : List (DWord × Byte)) :
    hubOk (hub (requestWrite s src addr beats)) := by
  cases src with
  | hcp tag id =>
    refine hubOk_arrive h _ (fun t ht => ?_) _
    dsimp only; repeat' split
    all_goals simp [ht]
  | fab c =>
    unfold requestWrite; dsimp only; repeat' split
    all_goals simp [h]
@[simp] theorem hubOk_registerWrite {s : State} (h : hubOk (hub s)) (src : Src) (a : Nat) (w : Word) :
    hubOk (hub (registerWrite s src a w)) := by
  simp [registerWrite, h]
@[simp] theorem hubOk_pageLock {s : State} (h : hubOk (hub s)) (src : Src) (a : Nat) : hubOk (hub (pageLock s src a)) := by
  simp [pageLock, h]
@[simp] theorem hubOk_writeHi {s : State} (h : hubOk (hub s)) (src : Src) (a : Nat) (hi : Word) : hubOk (hub (writeHi s src a hi)) := by
  unfold writeHi; repeat' split
  all_goals simp [h]

theorem rowHeld_spdmRow (ch : Chan) (tag : BitVec 6) (car : Carriage) (need : Bool) {k : State → State × SpdmRsp}
    (hk : ∀ t, hub (k t).1 = hub t) : RowHeld (fun s => .next (spdmRow s ch tag car need k)) :=
  rowHeld_frame fun s => hub_spdmRow s ch tag car need k hk
/-- The TDISP requests touch the state of their function (R249). -/
theorem rowHeld_vfRow (ch : Chan) (tag : BitVec 6) (car : Carriage) (tdispReq : Bool) (vf : Nat) {k : State → Nat → State × SpdmRsp}
    (hk : ∀ t p, hub (k t p).1 = hub t) : RowHeld (fun s => .next (tsmRow s ch tag car tdispReq (fun s => vfRow s vf (k s)))) :=
  rowHeld_frame fun _ => hub_tsmRow _ _ _ _ _ _ fun t => hub_vfRow _ _ _ fun p => hk t p

/-- Every command of the table keeps the rule of R68. -/
theorem exec_held (i : Instr) : RowHeld (exec i) := by
  cases i with
  | resetExit =>
    refine rowHeld_next fun s h => ?_
    split
    · simpa [↓hub_mk] using h.moved (b := .sense) nofun nofun
    · exact h
  | pdStatusFall d => exact rowHeld_domainRow d fun s n h => hubOk_pdFall h n
  | pdStatusRise d => exact rowHeld_domainRow d fun s n h => hubOk_pdRise h n
  | domainPowerTimeout d => exact rowHeld_domainRow d fun s n h => hubOk_domainSilent h n
  | tamperCondition src | tamperConditionEnd src | alarmConfirmed src => exact rowHeld_fault fun s h => by simp [h]
  | topHaltWrite w code => exact execTopHaltWrite_held w code
  | coreRelease w data => exact execCoreRelease_held w data
  | wakeDigestCompare w word => exact execWakeDigestCompare_held w word
  | tlWait src => exact execTlWait_held src
  | tlCancel src => exact execTlCancel_held src
  | tlRead src => exact execTlRead_held src
  | tlSetAcl src => exact execTlSetAcl_held src
  | erasePid w => exact execErasePid_held w
  | eraseStale w => exact execEraseStale_held w
  | rootCmd w => exact execRootCmd_held w
  | fuseSupplyLost window completed cut =>
    refine rowHeld_next fun s h => ?_
    dsimp only; repeat' split
    all_goals simp [↓hub_mk, h]
  | challenge ch tag car slot hash =>
    refine rowHeld_next fun s h => hubOk_spdmRow h _ _ _ _ fun t ht => ?_
    split
    · exact ht
    · split <;> exact hubOk_of_partSign ht ‹_›
  | getMeasurements ch tag car param hash =>
    refine rowHeld_next fun s h => hubOk_spdmRow h _ _ _ _ fun t ht => ?_
    extract_lets all blocks
    split
    · exact ht
    · split <;> exact hubOk_of_partSign ht ‹_›
  | keyExchange ch tag car param point th =>
    refine rowHeld_next fun s h => hubOk_spdmRow h _ _ _ _ fun t ht => ?_
    repeat' split
    all_goals simp [ht]
  | heartbeat ch tag car | endSession ch tag car =>
    exact rowHeld_spdmRow _ _ _ _ fun t => hub_inSession _ _ _ fun v => by simp
  | keyUpdate ch tag car =>
    refine rowHeld_spdmRow _ _ _ _ fun t => hub_inSession _ _ _ fun v => ?_
    repeat' split
    all_goals simp
  | chunkSend ch tag car last bytes =>
    refine rowHeld_next fun s h => ?_
    split
    · simpa [↓hub_mk] using h
    · rw [hub_spdmRow _ _ _ _ _ _ fun t => by split <;> simp [↓hub_mk]]; exact h
  | chunkGet ch tag car => exact rowHeld_spdmRow _ _ _ _ fun t => by dsimp only; split <;> simp [↓hub_mk]
  | weightStatus ch tag car =>
    refine rowHeld_frame fun s => hub_carried _ _ _ _ _ _ _ fun t sec cls body => ?_
    dsimp only; repeat' split
    all_goals simp
  | lockInterfaceRequest ch tag car vf | getDeviceInterfaceReport ch tag car vf | startInterfaceRequest ch tag car vf =>
    exact rowHeld_vfRow _ _ _ _ _ fun t p => by split <;> simp
  | getDeviceInterfaceState ch tag car vf | stopInterfaceRequest ch tag car vf => exact rowHeld_vfRow _ _ _ _ _ fun t p => by simp
  | xlFaultIn | prgWindowWrite | countingWindowEnd | getCertificate => exact rowHeld_next fun s h => by split <;> simp [h]
  | _ => exact rowHeld_next fun s h => by simp [↓hub_mk, h]

/-- Settles O57: HUB_RST_N follows PD_STATUS and is 0 in HALTED and in SAFE (R68). A command keeps the rule by `exec_held`; the
command's removal from the queue and the count of an idle step touch neither the block state nor these pins. -/
theorem hubResetsHeld : Obligations.HubResetsHeld := by
  unfold Obligations.HubResetsHeld
  intro s t h e
  rw [hubHeld_iff] at h ⊢
  unfold step at e; split at e
  · cases e; exact h
  · exact exec_held _ _ _ (by simpa [↓hub_mk] using h) e

end Sys2Proof.Machine
end

section
/-! PROOFS. Steps 2 and 3 of an HCP access (Table 3-9): which places a tag reaches, which pages are in service, and the answer that the two
together give (R80, R82, R83, R507). -/
namespace Sys2Proof.Machine

/-! ### Step 2: what a tag reaches (R80) -/

/-- The tag names PID `p` in its current generation. -/
def tagNames (s : State) (tag : BitVec 24) (p : Nat) : Prop := tagPid tag = p ∧ tagGen tag = genOf s p
/-- Partition `p` has a window: the block serves, and the partition is neither FREE nor RETIRING. -/
def hasWindow (s : State) (p : Nat) : Prop := serving s = true ∧ pstate s p ≠ .free ∧ pstate s p ≠ .retiring

theorem reaches_oper_iff (s : State) (tag : BitVec 24) (k o : Nat) : reaches s tag (.oper k o) = true ↔ tagNames s tag 1 := by
  simp [reaches, tagNames]
theorem reaches_win_iff (s : State) (tag : BitVec 24) (p k o : Nat) :
    reaches s tag (.win p k o) = true ↔ tagNames s tag p ∧ hasWindow s p := by
  simp only [reaches, tagNames, hasWindow, Bool.and_eq_true, decide_eq_true_eq]
  constructor
  · rintro ⟨⟨⟨⟨serves, pid⟩, gen⟩, notFree⟩, notRetiring⟩
    exact ⟨⟨pid, gen⟩, serves, notFree, notRetiring⟩
  · rintro ⟨⟨pid, gen⟩, serves, notFree, notRetiring⟩
    exact ⟨⟨⟨⟨serves, pid⟩, gen⟩, notFree⟩, notRetiring⟩
theorem reaches_slot_eq (s : State) (tag : BitVec 24) (p k o : Nat) :
    reaches s tag (.slot p k o) = (reaches s tag (.win p k o) && (tallyOfSlot s p k).isSome) := by rfl
/-- EP and SUB of a tag play no part. -/
theorem reaches_congr_tag (s : State) {tag tag' : BitVec 24} (hp : tagPid tag' = tagPid tag) (hg : tagGen tag' = tagGen tag) (l : Loc) :
    reaches s tag' l = reaches s tag l := by
  unfold reaches; rw [hp, hg]
theorem not_hasWindow_iff (s : State) (p : Nat) :
    ¬ hasWindow s p ↔ serving s = false ∨ pstate s p = .free ∨ pstate s p = .retiring := by
  simp only [hasWindow, Classical.not_and_iff_not_or_not, Classical.not_not, Bool.not_eq_true, ne_eq]

/-! ### Step 3: which pages are in service (Tables 3-10 and 3-11) -/

/-- Table 3-10, with the pages that R507 leaves in service. -/
theorem inService_oper_iff (s : State) (write : Bool) (k o : Nat) :
    inService s write (.oper k o) = true ↔ match s.block with
      | .sense | .boot => (k = 0 ∧ write = false) ∨ k = 1
      | .run | .degraded => sleepShut s = false ∨ k = 0 ∨ k = 5 ∨ k = 6 ∨ 7 < k
      | .safe => (k = 0 ∨ k = 5) ∧ write = false
      | .halted => k = 0 ∧ write = false
      | _ => False := by
  have open_page : (!(sleepShut s && (decide (1 ≤ k ∧ k ≤ 4) || k = 7))) = true ↔
      sleepShut s = false ∨ k = 0 ∨ k = 5 ∨ k = 6 ∨ 7 < k := by
    cases sleepShut s <;> simp; omega
  cases h : s.block with
  | run | degraded => simpa only [inService, h] using open_page
  | _ => simp [inService, h]
/-- Table 3-11 for a window's pages. -/
theorem inService_win_iff (s : State) (write : Bool) (p k o : Nat) :
    inService s write (.win p k o) = true ↔ sleepShut s = false ∧ match pstate s p with
      | .running => True
      | .configured | .quarantined => k = 0 ∨ k = 1 ∨ k = 6
      | .quenching => k = 0 ∧ write = false
      | _ => False := by
  cases h : pstate s p <;> simp [inService, h, or_assoc]
/-- Table 3-11 for its Tally slots. -/
theorem inService_slot_iff (s : State) (write : Bool) (p k o : Nat) :
    inService s write (.slot p k o) = true ↔ sleepShut s = false ∧ pstate s p = .running := by
  simp [inService]

/-! ### The answer of the two steps -/

theorem hcpCheck_of_sleep (s : State) (tag : BitVec 24) (write : Bool) (l : Loc) (h : s.block = .sleep) :
    hcpCheck s tag write l = some .edown := by
  simp [hcpCheck, h]
theorem hcpCheck_congr_tag (s : State) {tag tag' : BitVec 24} (hp : tagPid tag' = tagPid tag) (hg : tagGen tag' = tagGen tag) (write : Bool)
    (l : Loc) : hcpCheck s tag' write l = hcpCheck s tag write l := by
  simp only [hcpCheck, reaches_congr_tag s hp hg]

section
variable {s : State} (awake : s.block ≠ .reset ∧ s.block ≠ .sleep) {tag : BitVec 24} {write : Bool} {l : Loc}
include awake

/-- A place that step 2 refuses. -/
theorem hcpCheck_of_not_reaches (h : reaches s tag l = false) :
    hcpCheck s tag write l = some (if write then .eaccess else .epoison) := by
  simp [hcpCheck, awake, h]
/-- A place that the tag reaches, with `P` for its being in service: step 3 alone decides. -/
theorem hcpCheck_of_reaches {P : Prop} (h : reaches s tag l = true) (hP : inService s write l = true ↔ P) :
    (P → hcpCheck s tag write l = none) ∧ (¬ P → hcpCheck s tag write l = some .edown) := by
  rw [← hP]
  constructor <;> intro shown <;> simp [hcpCheck, awake, h, shown]
end

/-- Settles O55: each clause is step 2 or step 3 of Table 3-9 for one kind of place. -/
theorem pagesInService : Obligations.PagesInService := by
  unfold Obligations.PagesInService
  intro s tag write check miss mine
  refine ⟨fun l => hcpCheck_of_sleep s tag write l, fun l tag' hp hg => hcpCheck_congr_tag s hp hg write l, fun hr hs => ?_⟩
  have awake : s.block ≠ .reset ∧ s.block ≠ .sleep := ⟨hr, hs⟩
  refine ⟨fun k o t => ?firmware, fun k o foreign => ?operForeign, fun p k o foreign => ?windowForeign,
    fun p k o unassigned => ?slotUnassigned, fun k o named => ?oper, fun p k o named serves notFree notRetiring => ?window⟩
  case firmware =>
    exact ⟨hcpCheck_of_not_reaches awake rfl, hcpCheck_of_not_reaches awake rfl, hcpCheck_of_not_reaches awake rfl⟩
  case operForeign => exact hcpCheck_of_not_reaches awake (Bool.eq_false_iff.mpr (mt (reaches_oper_iff s tag k o).mp foreign))
  case windowForeign =>
    have barred : ¬ (tagNames s tag p ∧ hasWindow s p) := not_and_of_not_or_not (foreign.imp_right (not_hasWindow_iff s p).mpr)
    have refused : reaches s tag (.win p k o) = false := Bool.eq_false_iff.mpr (mt (reaches_win_iff s tag p k o).mp barred)
    exact ⟨hcpCheck_of_not_reaches awake refused, hcpCheck_of_not_reaches awake (by simp [reaches_slot_eq, refused])⟩
  case slotUnassigned => exact hcpCheck_of_not_reaches awake (by simp [reaches_slot_eq, unassigned])
  case oper => exact hcpCheck_of_reaches awake ((reaches_oper_iff s tag k o).mpr named) (inService_oper_iff s write k o)
  case window =>
    have reached : reaches s tag (.win p k o) = true := (reaches_win_iff s tag p k o).mpr ⟨named, serves, notFree, notRetiring⟩
    obtain ⟨served, shut⟩ := hcpCheck_of_reaches awake reached (inService_win_iff s write p k o)
    refine ⟨fun _ => served, fun _ => shut, fun t assigned => ?_⟩
    have slotReached : reaches s tag (.slot p k o) = true := by simp [reaches_slot_eq, reached, assigned]
    obtain ⟨slotServed, slotShut⟩ := hcpCheck_of_reaches awake slotReached (inService_slot_iff s write p k o)
    exact ⟨fun opened running => slotServed ⟨opened, running⟩, fun out => slotShut (not_and_of_not_or_not (out.imp_left (by simp)))⟩

end Sys2Proof.Machine
end

section
/-! PROOFS. What a halt leaves (R32, R162), read off its steps: the block state, the pins, TOP_HALT and the boot journal. -/
namespace Sys2Proof.Machine

/-! ### The block state and the boot state through the steps of a halt -/

theorem block_of_sansRecords {s t : State} (h : sansRecords t = sansRecords s) : t.block = s.block := by
  have shadow := congrArg State.block h
  exact shadow
theorem boot_of_sansRecords {s t : State} (h : sansRecords t = sansRecords s) : t.boot = s.boot := by
  have shadow := congrArg State.boot h
  exact shadow
@[simp] theorem sansRecords_ledgerFreeze (s : State) : sansRecords (ledgerFreeze s) = sansRecords s := by
  unfold ledgerFreeze; split
  · rfl
  · exact sansRecords_record ..

@[simp] theorem record_block (s : State) (event pid sev scope p0 p1 p2 : Nat) : (record s event pid sev scope p0 p1 p2).block = s.block :=
  block_of_sansRecords (sansRecords_record ..)
@[simp] theorem record_boot (s : State) (event pid sev scope p0 p1 p2 : Nat) : (record s event pid sev scope p0 p1 p2).boot = s.boot :=
  boot_of_sansRecords (sansRecords_record ..)
@[simp] theorem ledgerFreeze_block (s : State) : (ledgerFreeze s).block = s.block := block_of_sansRecords (sansRecords_ledgerFreeze s)
@[simp] theorem ledgerFreeze_boot (s : State) : (ledgerFreeze s).boot = s.boot := boot_of_sansRecords (sansRecords_ledgerFreeze s)
@[simp] theorem topEvent_block (s : State) (bits : Nat) : (topEvent s bits).block = s.block := block_of_sansEvents (sansEvents_topEvent s bits)
@[simp] theorem topEvent_boot (s : State) (bits : Nat) : (topEvent s bits).boot = s.boot :=
  boot_of_sansRecords (sansRecords_of_sansEvents (sansEvents_topEvent s bits))

/-- HALTED and SAFE are kept; outside them every change of state is performed (Table 1-3). -/
@[simp] theorem setBlock_block (s : State) (b : BState) : (setBlock s b).block = if stopped s then s.block else b := by
  by_cases same : s.block = b <;> by_cases stop : stopped s <;> simp [setBlock, same, stop]
@[simp] theorem setBlock_boot (s : State) (b : BState) : (setBlock s b).boot = s.boot := by
  unfold setBlock; split
  · rfl
  · exact topEvent_boot ..

@[simp] theorem hubDown_block (s : State) : (hubDown s).block = s.block :=
  List.foldlRecOn (motive := fun t : State => t.block = s.block) _ _ rfl fun _ kept _ _ => kept
@[simp] theorem hubDown_boot (s : State) : (hubDown s).boot = s.boot :=
  List.foldlRecOn (motive := fun t : State => t.boot = s.boot) _ _ rfl fun _ kept _ _ => kept
@[simp] theorem hubDown_pins (s : State) : (hubDown s).pins = { s.pins with hubRstN := 0, siteHoldN := 0 } :=
  List.foldlRecOn (motive := fun t : State => t.pins = { s.pins with hubRstN := 0, siteHoldN := 0 }) _ _ rfl fun _ down _ _ => down
@[simp] theorem cpbShutter_block (s : State) : (cpbShutter s).block = s.block :=
  List.foldlRecOn (motive := fun t : State => t.block = s.block) _ _ rfl fun _ kept _ _ => kept
@[simp] theorem cpbShutter_boot (s : State) : (cpbShutter s).boot = s.boot :=
  List.foldlRecOn (motive := fun t : State => t.boot = s.boot) _ _ rfl fun _ kept _ _ => kept
@[simp] theorem cpbShutter_pins (s : State) : (cpbShutter s).pins = s.pins :=
  List.foldlRecOn (motive := fun t : State => t.pins = s.pins) _ _ rfl fun _ kept _ _ => kept

/-! ### The journal (R151) and the START record (R490) -/

@[simp] theorem journal_block (s : State) (step event src site reason detail : Nat) :
    (journal s step event src site reason detail).block = s.block := by
  unfold journal; split <;> rfl
/-- Where the journal is usable, the next entry takes the record. -/
theorem journal_writes {s : State} (usable : s.boot.journalOk = true) (awake : s.block ≠ .reset ∧ s.block ≠ .sense ∧ s.block ≠ .sleep)
    (step event src site reason detail : Nat) :
    ∃ r, smGet none (journal s step event src site reason detail).boot.journal s.boot.jnext = some r ∧ r.event = event ∧
      r.detail = BitVec.ofNat 96 detail := by
  obtain ⟨notReset, notSense, notSleep⟩ := awake
  simp [journal, usable, notReset, notSense, notSleep]

@[simp] theorem startRecord_block (s : State) : (startRecord s).block = s.block := by
  unfold startRecord; split
  · rfl
  · exact record_block ..
/-- The START record goes to the Ledger; of the boot state it moves only the note that it is written. -/
theorem startRecord_boot (s : State) : (startRecord s).boot = { s.boot with startRec := (startRecord s).boot.startRec } := by
  unfold startRecord; split
  · rfl
  · simp only [record_boot]

/-! ### A halt -/

theorem haltNow_block {s : State} (live : stopped s = false) (code : Nat) : (haltNow s code).block = .halted := by
  unfold stopped at live
  simp [haltNow, stopped, live]
theorem haltNow_pins (s : State) (code : Nat) :
    (haltNow s code).pins.halt = BitVec.ofNat 8 code ∧ (haltNow s code).pins.hubRstN = 0 ∧ (haltNow s code).pins.siteHoldN = 0 ∧
      (haltNow s code).pins.shutterN = false := by
  simp [haltNow]
theorem haltNow_topHalt (s : State) (code : Nat) : reg (haltNow s code) 0x4C = w32 (code * 256) := reg_setReg ..
/-- TOP_HALT.LAST reads the code back. -/
theorem fld_haltWord (code : Byte) : fld (w32 (code.toNat * 256)) 15 8 = code.toNat := by
  have small := code.isLt
  simp only [fld, w32, BitVec.toNat_ofNat]
  omega
/-- A halt journals its HALT record, event 9 with the code as its detail. -/
theorem haltNow_journals {s : State} (usable : s.boot.journalOk = true) (awake : s.block ≠ .reset ∧ s.block ≠ .sense ∧ s.block ≠ .sleep)
    (code : Nat) :
    ∃ r, smGet none (haltNow s code).boot.journal s.boot.jnext = some r ∧ r.event = 9 ∧ r.detail = BitVec.ofNat 96 code := by
  have boot := startRecord_boot s
  have written := journal_writes (s := startRecord s) (by rw [boot]; exact usable) (by simpa using awake) s.boot.step 9 s.boot.src s.boot.site
    s.boot.reason code
  rw [boot] at written
  simpa [haltNow] using written

theorem haltWith_of_live {s : State} (live : stopped s = false) (code : Nat) : haltWith s code = haltNow s code := by
  simp [haltWith, live]

/-! ### The write to TOP_HALT (R513) -/

theorem byCore_of_fabOk {s : State} {w : Who} (able : fabOk s w = true) (k : State → State) : byCore s w k = k (answer s .ok) := by
  simp [byCore, able]
/-- A fabric access that is refused with EACCESS leaves no record: its answer is all (R85). -/
theorem refuse_fab_eaccess (s : State) (w : Who) (l : Loc) (addr : Nat) : refuse s (.fab w) l addr .eaccess = answer s .eaccess := by
  simp [refuse, respond, sealed, srcPid, srcId, tenant]
/-- A write to TOP_HALT by an initiator that can act. -/
theorem exec_topHaltWrite {s : State} {w : Who} (able : fabOk s w = true) (code : Byte) :
    exec (.topHaltWrite w code) s = .next
      (if s.block = .boot ∧ ((0x20 ≤ code.toNat ∧ code.toNat ≤ 0x3F) ∨ (0x60 ≤ code.toNat ∧ code.toNat ≤ 0x6F))
        then haltWith (answer s .ok) code.toNat else answer s .eaccess) := by
  show execTopHaltWrite w code s = _
  rw [execTopHaltWrite, byCore_of_fabOk able, refuse_fab_eaccess]
  rfl

/-- Settles O22: a permitted write is a halt from BOOT, which `haltNow` describes; any other ends in the refusal. -/
theorem topHaltWrite : Obligations.TopHaltWrite := by
  unfold Obligations.TopHaltWrite
  intro s w code able permitted
  rw [exec_topHaltWrite able]
  refine ⟨fun holds => ?performed, fun fails => ?refused⟩
  case refused => rw [if_neg fails]; rfl
  case performed =>
    have live : stopped (answer s .ok) = false := by
      show stopped s = false
      simp [stopped, holds.1]
    have awake : s.block ≠ .reset ∧ s.block ≠ .sense ∧ s.block ≠ .sleep := by simp [holds.1]
    obtain ⟨halt, hubRstN, siteHoldN, shutterN⟩ := haltNow_pins (answer s .ok) code.toNat
    refine ⟨haltNow (answer s .ok) code.toNat, by rw [if_pos holds, haltWith_of_live live], haltNow_block live _, by simpa using halt,
      hubRstN, siteHoldN, shutterN, ?last, fun usable => haltNow_journals (s := answer s .ok) usable awake _⟩
    case last => rw [haltNow_topHalt, fld_haltWord]

end Sys2Proof.Machine
end
